-- ==== Sys2Proof/Word.lean ====
section
/-! DEFINITION. The word types and their plainest arithmetic: bit fields of numbers, two's complement readings,
clamping and rounding shifts (00_scope R16; 02 R60). -/

namespace Sys2Proof

abbrev Byte := BitVec 8
abbrev Word := BitVec 32
abbrev DWord := BitVec 64

/-- Bits hi down to lo of a number. -/
def bitsOf (v hi lo : Nat) : Nat := (v >>> lo) % 2 ^ (hi + 1 - lo)

/-- The number with its bits hi down to lo replaced by the low bits of x. -/
def putBits (v hi lo x : Nat) : Nat :=
  (v >>> (hi + 1)) <<< (hi + 1) + (x % 2 ^ (hi + 1 - lo)) <<< lo + v % 2 ^ lo

/-- A Bool as the bit it stands for. -/
def b2n (b : Bool) : Nat := if b then 1 else 0

/-- The low n bits of v read as a two's complement number (R16). -/
def signedOf (n v : Nat) : Int :=
  let x := v % 2 ^ n
  if 2 * x < 2 ^ n then (x : Int) else (x : Int) - (2 ^ n : Nat)

/-- The n-bit two's complement pattern of an integer. -/
def patternOf (n : Nat) (x : Int) : Nat := (x % ((2 ^ n : Nat) : Int)).toNat

/-- The nearest limit of lo..hi. -/
def clampInt (lo hi x : Int) : Int := if x < lo then lo else if hi < x then hi else x

/-- The nearest value of the signed n-bit range. -/
def clampBits (n : Nat) (x : Int) : Int := clampInt (-(2 ^ (n - 1) : Nat)) ((2 ^ (n - 1) : Nat) - 1) x

/-- Does x fit in n bits of two's complement? -/
def fitsBits (n : Nat) (x : Int) : Bool := clampBits n x == x

/-- Arithmetic shift right by sh, rounding half upwards (R60); a shift of 0 adds no rounding term. -/
def roundShift (x : Int) (sh : Nat) : Int :=
  if sh = 0 then x else (x + (2 ^ (sh - 1) : Nat)) / ((2 ^ sh : Nat) : Int)

/-- Arithmetic shift right, rounding towards minus infinity. -/
def floorShift (x : Int) (sh : Nat) : Int := x / ((2 ^ sh : Nat) : Int)

/-- Saturating increment of a counter with the given top. -/
def satAdd (top v d : Nat) : Nat := if top < v + d then top else v + d

end Sys2Proof
end

