-- ==== Sys2Proof/Machine/Inputs.lean ====
section
/-! DEFINITION. What reaches the module from outside, as commands, snapshot items and a standby's local inputs carry it
(R319, R354, R365, R484, R486). -/

namespace Sys2Proof

/-- What a sample of an encoder's A and B shows (R319): an edge in the forward or the reverse sense, or both changed. -/
inductive EncEdge where | forward | reverse | double
deriving DecidableEq, Repr

/-- A CAN frame as a channel's receiver takes it (R354, R356, R358). -/
structure CanFrame where
  id : BitVec 29
  ide : Bool
  fdf : Bool
  brs : Bool
  esi : Bool
  remote : Bool
  dlc : BitVec 4
  data : BitVec 512
  /-- The frame passes its CAN CRC. -/
  crcOk : Bool
  /-- The cycle, counted from tick 0, in which the frame began. -/
  begun : Nat
deriving DecidableEq, Repr

/-- What a CAN controller meets on its wire (R365, after ISO 11898-1): a CRC error; an acknowledgement error of an error-passive
transmitter that sees no dominant bit in its passive error flag; a stuff error of a transmitter in arbitration; or another. -/
inductive CanErrKind where | crc | ackPassive | stuffArb | other
deriving DecidableEq, Repr

/-- An error on a CAN channel (R365): seen as transmitter or receiver, its kind, and with a dominant bit after the receiver's own
error flag. -/
structure CanErr where
  tx : Bool
  kind : CanErrKind
  heavy : Bool
deriving DecidableEq, Repr

/-- What an axis port senses in one 10 ns step (R310, R317, R318): the magnitudes of the currents of phases A and B in 1/256 of full
scale, and the bridge-fault input low. -/
structure ChopSense where
  a : Nat
  b : Nat
  low : Bool
deriving DecidableEq, Repr

/-- What the active's snapshot item says (R484), its data as the block reads it. -/
inductive SnapData where
  /-- Kind 1: digital input levels. -/
  | din (raw : BitVec 48)
  /-- Kind 2: count and frequency of a pulse input. -/
  | pulse (count freq : Word)
  /-- Kind 3: count of an encoder, load angle of an axis, a chopper detection. -/
  | encoder (count : Word)
  | loadAngle (la : Byte)
  | chopper (code : Fin 8)
  /-- Kind 4: a decimated modulator sample, and whether its input is in fault. -/
  | modulator (v : Word) (fault : Bool)
  /-- Kind 5: a conversion of a channel, its result and its code, and whether the list scheduled it; the outcome of an urgent request
  of a duty: 0 its conversion has ended, 1 dropped, 2 dropped as late. -/
  | conversion (ch : Fin 60) (v : Word) (code : BitVec 18) (listed : Bool)
  | urgent (outcome : Fin 3) (duty : Fin 16)
  /-- Kind 6: an object store; a transmission completed or a request ended; the error counters and the bus state (0 to 3 as
  `CANB_cSTAT.STATE`). -/
  | canStore (obj : BitVec 13) (data : List DWord)
  | canSent (obj : BitVec 13) (ok : Bool)
  | canState (tec : BitVec 9) (rcv : Byte) (st : Fin 4)
  /-- Kind 7: an Ethernet frame passed to a ring. -/
  | frame (port : Fin 5) (rct : Bool) (ts : DWord) (bytes : List Byte)
  /-- Kind 8: a Bextis arrival. -/
  | bextis (b : Bool) (dest : BitVec 48) (msg : List Byte)
  /-- Kind 9: a safety input sample, the readback, a dark test. -/
  | safeIn (raw : BitVec 16)
  | safeBack (rb : BitVec 16)
  | safeDark (o : Fin 8) (off : Bool)
  /-- Kind 10: the value returned to a load of a PTPT or RTCB register. -/
  | load (v : DWord)
deriving DecidableEq, Repr

/-- An input that a standby's own receiver took (R486): what its blocks take from it on local inputs (R487). -/
inductive LocalData where
  | din (raw : BitVec 48)
  /-- A rising edge of a pulse input, in 10 ns from its tick edge. -/
  | pulse (p : Fin 32) (ten : Nat)
  | encoder (e : Fin 4) (k : EncEdge)
  /-- Load angles of the axes, one byte each. -/
  | angles (la : DWord)
  /-- What an axis port senses, in 10 ns steps. -/
  | bridge (a : Fin 8) (w : List ChopSense)
  /-- Decimated modulator samples, by input. -/
  | modulators (x : List Word)
  /-- A conversion's result and code, with the duty whose urgent request it answers; none where the list scheduled it. -/
  | conversion (ch : Fin 60) (v : Word) (code : BitVec 18) (duty : Option (Fin 16))
  | canFrame (c : Fin 16) (f : CanFrame)
  | canError (c : Fin 16) (e : CanErr)
  /-- A frame on an Ethernet port, with its timestamp; `fifo` tells that it overflowed the receive memory. -/
  | frame (p : Fin 5) (fifo : Bool) (ts : Nat) (bytes : List Byte)
  | bextis (c : Fin 8) (b : Bool) (dest : BitVec 48) (msg : List Byte)
  | safeIn (raw : BitVec 16)
  | safeBack (rb : BitVec 16)
deriving DecidableEq, Repr

end Sys2Proof
end

