-- ==== Sys2Proof/Machine/NMap.lean ====
section
/-! DEFINITION. Finite maps from numbers as sorted lists of pairs in one canonical form: keys strictly rising and no
entry equal to what an unlisted key reads as. Memories (lists of Host.Cell), registers and tables are held so. -/

namespace Sys2Proof.Machine

abbrev NMap (α : Type) := List (Nat × α)

variable {α : Type}

/-- What is listed at k. -/
def NMap.at? : NMap α → Nat → Option α
  | [], _ => none
  | (j, v) :: r, k => if j = k then some v else NMap.at? r k

/-- List v at k, keeping the keys rising. -/
def NMap.put : NMap α → Nat → α → NMap α
  | [], k, v => [(k, v)]
  | (j, w) :: r, k, v =>
    if k < j then (k, v) :: (j, w) :: r
    else if k = j then (k, v) :: r
    else (j, w) :: NMap.put r k v

/-- Unlist k. -/
def NMap.del : NMap α → Nat → NMap α
  | [], _ => []
  | (j, w) :: r, k => if j = k then NMap.del r k else (j, w) :: NMap.del r k

/-- The value at k, where an unlisted key reads as d. -/
def NMap.get (d : α) (m : NMap α) (k : Nat) : α := (NMap.at? m k).getD d

/-- Write v at k, where an unlisted key reads as d: writing d removes the entry. -/
def NMap.set [DecidableEq α] (d : α) (m : NMap α) (k : Nat) (v : α) : NMap α :=
  if v = d then NMap.del m k else NMap.put m k v

/-- Change the value at k. -/
def NMap.modify [DecidableEq α] (d : α) (m : NMap α) (k : Nat) (f : α → α) : NMap α :=
  NMap.set d m k (f (NMap.get d m k))

/-- The keys of a map are above b and strictly rising, and no entry holds what its key reads as unlisted. -/
def NMap.wfFrom [DecidableEq α] (d : Nat → α) : Nat → NMap α → Bool
  | _, [] => true
  | b, (j, v) :: r => decide (b ≤ j) && decide (v ≠ d j) && NMap.wfFrom d (j + 1) r

/-- The canonical form. -/
def NMap.wf [DecidableEq α] (d : Nat → α) (m : NMap α) : Bool := NMap.wfFrom d 0 m

/-- The canonical form of a memory, in which an unlisted byte reads as 0 (notes/assumptions/10). -/
def Memory.wf (m : NMap Byte) : Bool := NMap.wf (fun _ => 0) m

/-- Read n bytes from address a, the lowest byte at the lowest address (DEDUCED: notes/assumptions/55). -/
def memRead (m : NMap Byte) (a : Nat) : Nat → Nat
  | 0 => 0
  | n + 1 => (NMap.get 0 m a).toNat + 256 * memRead m (a + 1) n

/-- Write the n low bytes of v from address a, the lowest byte at the lowest address (DEDUCED: notes/assumptions/55). -/
def memWrite (m : NMap Byte) (a : Nat) : Nat → Nat → NMap Byte
  | 0, _ => m
  | n + 1, v => memWrite (NMap.set 0 m a (BitVec.ofNat 8 v)) (a + 1) n (v / 256)

/-- The n bytes from a as a list. -/
def memBytes (m : NMap Byte) (a : Nat) : Nat → List Nat
  | 0 => []
  | n + 1 => (NMap.get 0 m a).toNat :: memBytes m (a + 1) n

/-- Write a list of bytes from a. -/
def memPutBytes (m : NMap Byte) (a : Nat) : List Nat → NMap Byte
  | [] => m
  | b :: r => memPutBytes (NMap.set 0 m a (BitVec.ofNat 8 b)) (a + 1) r

end Sys2Proof.Machine
end

