-- ==== Sys2Proof/Machine/Body.lean ====
section
/-! DEFINITION. The state of the LP9120 as plain data, but for its queue of commands: every register, memory, queue and mode
the spec gives it. INVENTORY.md lists every field with its rule. -/

namespace Sys2Proof.Machine

/-! ## Cores (02_programmers_model) -/

/-- An error mark beside a stored word: none, one flipped bit (correctable), uncorrectable and not yet met, or poisoned
(R63, R131, R132). -/
inductive ErrMark where | clean | single | double | poisoned
deriving DecidableEq, Repr

/-- One entry of the hardware loop stack (R66): the first and last word of the body, the iterations that remain with
the present one, and the call depth at which it was opened. -/
structure LoopEnt where
  first : Nat
  last : Nat
  count : Nat
  depth : Nat
deriving DecidableEq, Repr

/-- One post (R24): first word, data words, and whether it was late when it was issued (R32). -/
structure Post where
  idx : Nat
  data : List Nat
  late : Bool
deriving DecidableEq, Repr

/-- What a waiting core waits for. -/
inductive Wait where
  | none
  /-- WTK, job form (R107). -/
  | job (rst any : Bool) (n rd : Nat)
  /-- WTK, tier form (R107): the first boundary tick it may return at is not before `since`. -/
  | tier (rst : Bool) (t rd since : Nat)
  /-- EVWAIT (R113): the last cycle in which an event still counts, counted from tick 0, and the masks as it sampled them
  (R81). -/
  | event (rd : Nat) (limit : Option Nat) (masks : List Word)
  /-- SQWAIT (R116). -/
  | solver (rd ticket : Nat) (limit : Option Nat)
  /-- PUB held for the next tick (R109): the cycle in which it leaves, 0, or 2 on a checked core whose post an unchecked one would
  have held too, and whether the shadow checker disagrees. -/
  | post (rd : Nat) (p : Post) (cyc : Nat) (chk : Bool)
deriving DecidableEq, Repr

/-- One DW core (R57 to R62, R66 to R72), by physical core number. -/
structure CoreS where
  /-- Started and not off (R55). -/
  on : Bool
  /-- Stopped with the stop reason held in `CORE_nTRAP.STOP` (R72, R79). -/
  stopped : Bool
  trapMode : Bool
  wait : Wait
  /-- The byte address of the next instruction (R61). -/
  pc : Nat
  /-- w1 to w63 (R57); an unlisted register holds 0. -/
  w : NMap Word
  /-- acc0 to acc3 (R58). -/
  acc : NMap (BitVec 72)
  z : Bool
  n : Bool
  c : Bool
  v : Bool
  s : Bool
  /-- Return stack, innermost first (R69). -/
  rstack : List Nat
  /-- Loop stack, innermost first (R66). -/
  lstack : List LoopEnt
  /-- The current job (R29). -/
  job : Option Nat
  imem : NMap Byte
  dmem : NMap Byte
  /-- Error marks of the 32-bit words of the two local memories (R63). -/
  imemErr : NMap ErrMark
  dmemErr : NMap ErrMark
  /-- Cycles of the last instruction (R84). -/
  cost : Nat
  /-- Per-core latches: `TIER_TICKHI` (R44), `METR_EFRAC` (R393), the LOOP console and set-load addresses (R301, R302),
  the recorder's staged record (R539). -/
  tickh : Word
  efrac : Word
  cwra : Word
  blda : Word
  wcode : Word
  wp0 : Word
  wp1 : Word
deriving DecidableEq, Repr

/-- A core that executes nothing, registers as R59's text after kick-off: zero, but w63 one past the top of local data. -/
def CoreS.off : CoreS :=
  { on := false, stopped := false, trapMode := false, wait := .none, pc := 0, w := [(63, 0x08010000)], acc := [],
    z := false, n := false, c := false, v := false, s := false, rstack := [], lstack := [], job := Option.none,
    imem := [], dmem := [], imemErr := [], dmemErr := [], cost := 0, tickh := 0, efrac := 0, cwra := 0, blda := 0,
    wcode := 0, wp0 := 0, wp1 := 0 }

/-! ## Ticks, jobs and the scoreboard (01_tiers_and_changeover) -/

/-- A scoreboard word with the stamp of its last publication (R26, R27). -/
structure SbWord where
  val : DWord
  ptick : DWord
  src : Nat
  late : Bool
deriving DecidableEq, Repr

/-- A region marked stale by a missed deadline, with the tick of the mark (R35). -/
structure StaleMark where
  base : Nat
  len : Nat
  tick : Nat
deriving DecidableEq, Repr

/-- One job's hidden state (R28 to R35). -/
structure JobS where
  /-- Sealed successfully at least once (R45). -/
  isSealed : Bool
  /-- Running in the sense of R8. -/
  run : Bool
  active : Bool
  taken : Bool
  /-- Boundary index of the active instance. -/
  k : Nat
  /-- Deadline tick of the active instance. -/
  deadline : Nat
  /-- The active instance has missed its deadline. -/
  missed : Bool
  /-- Deadline ticks of skipped releases (R30). -/
  skips : List Nat
  /-- A deadline of this job fell in this tick's edge and its consequences are still to come (R34, R35). -/
  due : Bool
  /-- The last instance that ended completed on time (R434 code 7). -/
  lastOk : Bool
deriving DecidableEq, Repr

def JobS.init : JobS :=
  { isSealed := false, run := false, active := false, taken := false, k := 0, deadline := 0, missed := false,
    skips := [], due := false, lastOk := false }

structure TierS where
  jobs : NMap JobS
  /-- Posts accepted in the present tick, by source (R23). -/
  staging : NMap (List Post)
  /-- Posts of the tick before, which the collector applies in this changeover (R20). -/
  collecting : NMap (List Post)
  sb : NMap SbWord
  stale : List StaleMark
  /-- Jobs whose regions are to be marked at this changeover after its posts (R35). -/
  toMark : List (Nat × StaleMark)
  /-- Consecutive ticks with the discipline error at or below 500 ns (R40). -/
  lockRun : Nat
deriving DecidableEq, Repr

def TierS.init : TierS :=
  { jobs := [], staging := [], collecting := [], sb := [], stale := [], toMark := [], lockRun := 0 }

/-! ## The commons (04_commons_and_checks) -/

/-- A running check-unit command (R141). -/
structure CkRun where
  op : Nat
  src : Nat
  dst : Nat
  len : Nat
  core : Nat
deriving DecidableEq, Repr

structure CmnsS where
  /-- Error and poison marks of 64-bit words, by word index (R131, R132). -/
  err : NMap ErrMark
  /-- Corrected errors of each bank in the present period (R131). -/
  perCor : NMap Nat
  /-- The word each bank's scrubber checks next (R133). -/
  scrub : NMap Nat
  /-- The running command of each check-unit channel. -/
  ck : NMap (Option CkRun)
  /-- Rows of a bank that are being copied to bench rows, oldest first: the row and the tick of the decision (R135). -/
  rowCopy : NMap (List (Nat × Nat))
  /-- Rows switched to bench rows, keyed 256 * bank + row, with the bench row used (R135). -/
  rowSub : NMap Nat
deriving DecidableEq, Repr

def CmnsS.init : CmnsS := { err := [], perCor := [], scrub := [], ck := [], rowCopy := [], rowSub := [] }

/-! ## The quarter model (05_quarter_model) -/

structure QmS where
  /-- The duty that wrote GO for the seal in progress of each generation. -/
  sealBy : NMap (Option Nat)
  /-- The tick at which a retired generation's hold ends (R162). -/
  hold : NMap (Option Nat)
  /-- The program wrote ACT since the last round boundary (R161). -/
  actWritten : Bool
  /-- The generation the block itself switches to at the next round boundary (R164). -/
  auto : Option Nat
  /-- MSEQ of each generation as last sealed (R159 code 12, R164). -/
  mseq : NMap Nat
  /-- SCAN and AUTO as sampled at the last round boundary (R167). -/
  scan : Bool
  autoOn : Bool
deriving DecidableEq, Repr

def QmS.init : QmS := { sealBy := [], hold := [], actWritten := false, auto := none, mseq := [], scan := false, autoOn := false }

/-! ## State fusion (06_state_fusion) -/

/-- An accepted sample in the intake queue (R169, R170): reference, calibrated value and instant, and the cycle of its
write, counted from tick 0 (R174). -/
structure Sample where
  ref : Nat
  value : Nat
  inst : Nat
  wrote : Nat
deriving DecidableEq, Repr

/-- A close in progress (R177): the buffer and its slot header without NLATE. -/
structure FusaClose where
  buf : Nat
  ctick : Nat
  byLim : Bool
  /-- Late entries of the buffer. -/
  nlate : Nat
deriving DecidableEq, Repr

/-- A running assist command (R197, R198): operation, descriptor address and words as read, starting duty, the first
of the codes 1 to 4 that failed, or 6 where the descriptor is poisoned, the base of the generation it began with (R161),
and the gate fields as the command sampled them (R196). -/
structure AssistRun where
  op : Nat
  desc : Nat
  words : List Nat
  core : Nat
  code : Nat
  base : Nat
  g1 : Nat
  g2 : Nat
  g3 : Nat
  rehab : Nat
deriving DecidableEq, Repr

/-- Dispute state of a reference (R183): disputed, and the consecutive buffers inside the gate. -/
structure Dispute where
  disputed : Bool
  inside : Nat
deriving DecidableEq, Repr

structure FusaS where
  queue : List Sample
  /-- The first buffer since RUN became 1 (R180). -/
  first : Nat
  /-- The buffer last closed since then, plus one; 0 with none. -/
  closed : Nat
  /-- The buffer that aligns and the limit captured for it (R173). -/
  aligning : Option Nat
  limit : Nat
  closing : Option FusaClose
  /-- Late entries in the list of the buffer that closes next (R178). -/
  nlate : Nat
  /-- The tick at which the window without rate limit ends (R189). -/
  freeUntil : Nat
  /-- Offsets and gains held at the last period boundary, by register address (R189). -/
  held : NMap Word
  /-- References at their drift budget since their last write (R190): bit 0 the offset, bit 1 the gain. -/
  budget : NMap Nat
  disputes : NMap Dispute
  /-- The last buffer for which GATE advanced the dispute state (R183). -/
  lastGate : Option Nat
  assist : NMap (Option AssistRun)
deriving DecidableEq, Repr

def FusaS.init : FusaS :=
  { queue := [], first := 0, closed := 0, aligning := none, limit := 0, closing := none, nlate := 0, freeUntil := 0,
    held := [], budget := [], disputes := [], lastGate := none, assist := [] }

/-! ## The solver engine (07_solver_engine) -/

/-- A column of a problem's pattern (R211, R216): sign (true: dual), the three exponents and the rows of its below-diagonal
entries. -/
structure SolvCol where
  dual : Bool
  ek : Int
  ev : Int
  ei : Int
  rows : List Nat
deriving DecidableEq, Repr

/-- A problem's store (R208 to R211). Cells are the signed integers of R211; an unlisted cell is 0. Cells of K and L are
keyed 2^18 * row + column, of vectors 2^18 * vector + row. -/
structure Prob where
  /-- τ and δ as mantissa and exponent (R214, R215). -/
  tauM : Nat
  tauX : Int
  delM : Nat
  delX : Int
  cols : List SolvCol
  /-- Rows of the below-diagonal non-zeros of each column of L (R217). -/
  fill : List (List Nat)
  /-- First cell and first structure word of the runs held (R210). -/
  cellsAt : Nat
  wordsAt : Nat
  k : NMap Int
  vec : NMap Int
  l : NMap Int
  d : NMap Int
  dinv : NMap Int
deriving DecidableEq, Repr

def Prob.free : Prob :=
  { tauM := 0, tauX := 0, delM := 0, delX := 0, cols := [], fill := [], cellsAt := 0, wordsAt := 0, k := [], vec := [],
    l := [], d := [], dinv := [] }

/-- The end of a command's work: its code and flags (R236). -/
structure SqFin where
  code : Nat
  reg : Bool
  ovf : Bool
  limit : Bool
  signf : Bool
  fstale : Bool
  /-- The columns a REFAC has flagged (R230). -/
  flagcnt : Nat
deriving DecidableEq, Repr

/-- A started command (R219, R223): its descriptor words as read, start tick, physical lanes, the outcome once its work is
done, a cancel that waits for the next tick edge, and of an iteration the number done, the residuals of the last check and
whether a line has overflowed (R232). -/
structure SqRun where
  words : List Nat
  start : Nat
  lanes : List Nat
  fin : Option SqFin
  cancel : Bool
  iters : Nat
  res : Option (Nat × Nat)
  ovf : Bool
deriving DecidableEq, Repr

/-- A command held by a queue (R222): queue (true: short), sequence number, descriptor address, submitting duty, and the
cycle of acceptance counted from tick 0. -/
structure SqCmd where
  short : Bool
  seq : Nat
  desc : Nat
  core : Nat
  cycle : Nat
  run : Option SqRun
deriving DecidableEq, Repr

structure SolvS where
  /-- Next sequence number of each queue (R115, R207). -/
  seqLong : Nat
  seqShort : Nat
  /-- Commands held, in order of acceptance. -/
  held : List SqCmd
  /-- Completed tickets, by sequence number + 65536 * queue: the cycle of completion counted from tick 0, and the completion
  status (R116, R227). -/
  done : NMap (Option (Nat × Nat))
  prob : NMap Prob
  /-- Service positions of lanes that left the scheduling on a fault (R202, R203), by physical lane, plus one. -/
  vacant : NMap Nat
  /-- Lanes that leave the scheduling at the next tick edge (R202). -/
  faulted : List Nat
  /-- Corrected store errors of the present period (R205). -/
  perCor : Nat
deriving DecidableEq, Repr

def SolvS.init : SolvS :=
  { seqLong := 0, seqShort := 0, held := [], done := [], prob := [], vacant := [], faulted := [], perCor := 0 }

/-! ## The loop engine (10_loop_engine) -/

/-- A coefficient entry: value c × 2^−sh (R294). -/
structure Coef where
  c : Int
  sh : Nat
deriving DecidableEq, Repr

/-- A bank of a loop: 24 entries, the limits and the rate limit (R300). -/
structure LoopBank where
  e : List Coef
  umin : Int
  umax : Int
  rmax : Int
deriving DecidableEq, Repr

def LoopBank.zero : LoopBank := { e := List.replicate 24 ⟨0, 0⟩, umin := 0, umax := 0, rmax := 0 }

/-- Readings of an ADC accumulator kept by the loop engine: SUM and COUNT at the loop's previous evaluation (R290). -/
structure AccRead where
  sum : Nat
  count : Nat
deriving DecidableEq, Repr

/-- The shadow bank before a set load wrote it, and the cycle of that write counted from tick 0 (R301). -/
structure SetBefore where
  t : Nat
  shd : LoopBank
  dirty : List Nat
deriving DecidableEq, Repr

structure LoopS where
  /-- The engine's copy of the sealed descriptor, 15 data words (R287). -/
  desc : List Nat
  act : LoopBank
  shd : LoopBank
  /-- Shadow entries written since the last swap (R300). -/
  dirty : List Nat
  /-- Cycle of a write of RACK that waits for the next evaluation (R307), counted from tick 0. -/
  rack : Option Nat
  /-- The bank a set load has overwritten, with the cycle of its write (R301). -/
  before : Option SetBefore
  /-- The setpoint last in use, without injection (R292). -/
  sp : Int
  /-- Feedback comes from the alternate source (R307). -/
  alt : Bool
  /-- The next evaluation is the first after the start (R295). -/
  first : Bool
  /-- The model is to be set afresh (R305). -/
  minit : Bool
  /-- PID integrator and derivative, lead-lag state, section states: Q32 (R294). -/
  i : Int
  d : Int
  x : Int
  s1 : List Int
  s2 : List Int
  eprev : Int
  yprev : Int
  outprev : Int
  /-- Model state (R305), and the last 256 outputs, newest first. -/
  yhat : Int
  bias : Int
  hist : List Int
  /-- TAU, DEAD, GAIN and SAFEPOS as last read from the active generation, and the round of that read plus one (R285). -/
  mtau : Nat
  mdead : Nat
  mgain : Int
  msafe : Int
  mround : Nat
  /-- Outside count (R307). -/
  outside : Nat
  /-- Accumulator readings of the setpoint, the feedback and the alternate feedback. -/
  accS : AccRead
  accF : AccRead
  accA : AccRead
  /-- The duty last delivered, and the one that governs the present window (R293). -/
  duty : Option Nat
  gov : Option Nat
  /-- Latest value of each capture node (R304). -/
  nodes : NMap Int
deriving DecidableEq, Repr

def LoopS.init : LoopS :=
  { desc := [], act := LoopBank.zero, shd := LoopBank.zero, dirty := [], rack := none, before := none, sp := 0, alt := false, first := false,
    minit := false, i := 0, d := 0, x := 0, s1 := [0, 0, 0, 0], s2 := [0, 0, 0, 0], eprev := 0, yprev := 0, outprev := 0,
    yhat := 0, bias := 0, hist := List.replicate 256 0, mtau := 0, mdead := 0, mgain := 0, msafe := 0, mround := 0,
    outside := 0, accS := ⟨0, 0⟩, accF := ⟨0, 0⟩, accA := ⟨0, 0⟩, duty := none, gov := none, nodes := [] }

/-- A queued console entry (R302), with the core that wrote it. -/
structure ConsoleEntry where
  loop : Nat
  idx : Nat
  sh : Nat
  val : Int
  core : Nat
  /-- The cycle it was queued in, counted from tick 0. -/
  wrote : Nat
deriving DecidableEq, Repr

/-- A queued set load (R301). -/
structure SetLoad where
  loop : Nat
  commit : Bool
  addr : Nat
  core : Nat
deriving DecidableEq, Repr

/-- An injector (R303). -/
structure InjS where
  isSealed : Bool
  /-- The cycle of a write of START that waits for the loop's next evaluation, counted from tick 0. -/
  starting : Option Nat
  core : Nat
  phase : Nat
  prbs : Nat
deriving DecidableEq, Repr

def InjS.init : InjS := { isSealed := false, starting := none, core := 0, phase := 0, prbs := 0 }

structure LoopsS where
  loops : NMap LoopS
  /-- The core that wrote GO for a seal in progress, and the address it is to read (R7, R287). -/
  sealBy : NMap (Option (Nat × Nat))
  console : List ConsoleEntry
  loads : List SetLoad
  /-- Values of the output slots (R286). -/
  slots : NMap Int
  inj : NMap InjS
  /-- The core that started the capture, none for an injector's start (R304). -/
  capCore : Option Nat
deriving DecidableEq, Repr

def LoopsS.init : LoopsS :=
  { loops := [], sealBy := [], console := [], loads := [], slots := [], inj := [], capCore := none }

/-! ## Valve axes (11_valve_axes) -/

/-- The part of a phase's chopper cycle (R317): current driven, or the slow or fast part of the off time. -/
inductive ChopPhase where | drive | slow | fast
deriving DecidableEq, Repr

/-- A phase's chopper (R317, R318): its part of the cycle, the 10 ns steps spent in the on or off time, and the on phases in a
row that TONMAX has ended. -/
structure ChopS where
  phase : ChopPhase
  t : Nat
  run : Nat
deriving DecidableEq, Repr

def ChopS.init : ChopS := ⟨.drive, 0, 0⟩

/-- A bridge leg (R310): which of its gates is on (true: the high side), and the 10 ns steps of dead time left. -/
structure LegS where
  on : Option Bool
  dead : Nat
deriving DecidableEq, Repr

def LegS.off : LegS := ⟨none, 0⟩

/-- The motion of an axis between updates (R314 to R323). -/
structure AxisS where
  frac : Int
  vel : Int
  /-- The target under TSRC 1, as last delivered, and under TSRC 2. -/
  loopTgt : Option Int
  stepTgt : Int
  /-- Ticks between the last two step edges and since the last one (R314). -/
  tstep : Nat
  since : Nat
  /-- Step edges of the pulse input at the last update (R315). -/
  tally : Nat
  /-- Consecutive updates at rest, and updates that met the stall conditions (R321, R322). -/
  rest : Nat
  stalls : Nat
  /-- Cycles, counted from tick 0, of the writes of CLR, SETP and COMMIT that wait for an update (R323, R327), newest first. -/
  clr : List Nat
  setp : List (Nat × Int)
  commit : List Nat
  /-- CFG, CHOP and SAFETGT have been sealed (R327). -/
  isSealed : Bool
  /-- Phase references in 1/256 of full scale (R316). -/
  refA : Int
  refB : Int
  /-- The choppers of both phases, the four legs, two of each phase, and the 10 ns steps for which the bridge-fault input has
  been low, 100 at most (R310, R317, R318). -/
  chopA : ChopS
  chopB : ChopS
  legs : List LegS
  low : Nat
deriving DecidableEq, Repr

def AxisS.init : AxisS :=
  { frac := 0, vel := 0, loopTgt := none, stepTgt := 0, tstep := 65535, since := 65535, tally := 0, rest := 0, stalls := 0,
    clr := [], setp := [], commit := [], isSealed := false, refA := 0, refB := 0, chopA := ChopS.init,
    chopB := ChopS.init, legs := List.replicate 4 LegS.off, low := 0 }

/-! ## Starts, restarts and releases of partitions (12_cyclic_programs, 21_kickoff_and_images) -/

structure RstS where
  /-- The pending restart (R333): partition, kind and the round boundary Q. -/
  req : Option (Nat × Nat × Nat)
  /-- The tick from whose cycle 1,536 an accepted release may take effect (R335). -/
  rel : Option Nat
  /-- First tick in which jobs of a partition are released again (R334, R563), by partition. -/
  holds : NMap Nat
  /-- Physical cores that start at cycle 1,536 of the present tick at their restart address (R334). -/
  starts : List Nat
  /-- The tick H of a requested kick-off (R566). -/
  kick : Option Nat
  /-- The image in force has kind 2 sections to load once setup ends: core, offset and bytes (R556). -/
  late : List (Nat × Nat × List Nat)
  /-- The loader core while setup runs (R559). -/
  loader : Option Nat
deriving DecidableEq, Repr

def RstS.init : RstS :=
  { req := none, rel := none, holds := [], starts := [], kick := none, late := [], loader := none }

/-! ## Substation bus (13_substation_bus) -/

/-- State of a CAN object beside its bytes (R356, R362). -/
structure ObjS where
  seq : Nat
  nd : Bool
  lost : Bool
deriving DecidableEq, Repr

def ObjS.init : ObjS := { seq := 0, nd := false, lost := false }

/-- A pending transmit request (R360 to R363): the object, its table entry, the cycle of its acceptance counted from tick 0,
a cancel that waits for the end of the attempt, and the cycle in which the attempt in progress started. -/
structure CanReq where
  obj : Nat
  ent : Nat
  acc : Nat
  cancel : Bool
  attempt : Option Nat
deriving DecidableEq, Repr

/-- One channel (R354 to R372). -/
structure CanCh where
  /-- The duty that wrote GO for the seal in progress. -/
  sealBy : Option Nat
  /-- The channel's copy of its object table (R357). -/
  table : List Nat
  reqs : List CanReq
  tec : Nat
  rcv : Nat
  /-- Bus integration is complete (R372). -/
  integrated : Bool
  /-- EN was sampled 0 in a frame; the channel goes off when it ends (R372). -/
  stopping : Bool
  /-- Tick of the bus-off, recessive sequences counted in it, and RECOV written since (R366). -/
  boffAt : Nat
  count : Nat
  recov : Bool
  /-- The first frame after a recovery has not yet been sent (R366). -/
  firstDue : Bool
  /-- The tick at which the channel started running, and by station the tick, plus one, of the last store into its watch object and
  of the last store in an earlier tick than that (R367). -/
  runAt : Nat
  last : NMap Nat
  older : NMap Nat
  /-- The tick, plus one, of the first store into each station's watch object since the station entered dropout. -/
  seen : NMap Nat
  /-- The cycle, counted from tick 0, in which EN was sampled 0 by a channel that then went off (R372). -/
  offAt : Nat
deriving DecidableEq, Repr

def CanCh.init : CanCh :=
  { sealBy := none, table := [], reqs := [], tec := 0, rcv := 0, integrated := false, stopping := false, boffAt := 0,
    count := 0, recov := false, firstDue := false, runAt := 0, last := [], older := [],
    seen := [], offAt := 0 }

/-- An object as it was before a store or a completion of cycle t (R358, R362): its ten words, its state, the state it is left in
where OBJSEQ clears ND and LOST in that cycle, and the channel whose LOSTC the store advanced. -/
structure ObjOld where
  t : Nat
  obj : Nat
  words : List Nat
  was : ObjS
  clr : ObjS
  lostc : Option Nat
deriving DecidableEq, Repr

structure CanS where
  ch : NMap CanCh
  obj : NMap ObjS
  /-- Objects changed by their channel in the cycle changed last. -/
  old : List ObjOld
  /-- Error marks of 64-bit object words (R356), by word index in the object RAM. -/
  err : NMap ErrMark
deriving DecidableEq, Repr

def CanS.init : CanS := { ch := [], obj := [], old := [], err := [] }

/-! ## Metering (14_metering) -/

/-- Results of one phase at the last update (R381): P, Q, S in 2^-44 W, Vrms in 2^-28 V, Irms in 2^-28 A. -/
structure PhaseRes where
  p : Int
  q : Int
  s : Int
  v : Nat
  i : Nat
deriving DecidableEq, Repr

/-- An electrical group (R379 to R382). -/
structure GrpS where
  /-- Corrected samples of the seven channels, newest tick first, as far back as the Hilbert transformer reaches. -/
  hist : List (List Int)
  /-- Products of each tick, newest first, as far back as NWIN reaches: p, q, v², i² of each phase, and the neutral's i². -/
  prods : List (List Int)
  /-- Voltage of phase A, newest first, over 1,000 ticks (R382). -/
  va : List Int
  ph : List PhaseRes
  tot : PhaseRes
  /-- Neutral Irms in 2^-28 A and the frequency in 0.001 Hz. -/
  neutral : Nat
  freq : Nat
deriving DecidableEq, Repr

def GrpS.init : GrpS :=
  { hist := [], prods := [], va := [], ph := [], tot := ⟨0, 0, 0, 0, 0⟩, neutral := 0, freq := 0 }

/-- A heat/cold calculator (R387 to R391). Temperatures in 2^-32 °C. -/
structure TcS where
  ts : Int
  tr : Int
  /-- A frame has given temperatures since the start. -/
  tvalid : Bool
  /-- Sum and number of the conversions of RS and RR in the present frame. -/
  sumS : Int
  nS : Nat
  sumR : Int
  nR : Nat
  missT : Nat
  /-- Latest conversion of ACH, and one since the last update. -/
  m : Int
  fresh : Bool
  missF : Nat
  /-- ΔV of the present frame in 2^-24 × 10^-7 litres, and its energy balance in register LSBs (R401). -/
  fv : Int
  fe : Int
deriving DecidableEq, Repr

def TcS.init : TcS :=
  { ts := 0, tr := 0, tvalid := false, sumS := 0, nS := 0, sumR := 0, nR := 0, missT := 0, m := 0, fresh := false,
    missF := 0, fv := 0, fe := 0 }

/-- A pulse output (R398 to R400). Times in 10 ns from tick 0. -/
structure PoS where
  r : Nat
  owed : Nat
  due : Nat
  /-- Start of the previous pulse, plus one. -/
  start : Nat
  width : Nat
  inc : Int
  on : Bool
  /-- A pulse was deferred since STAT was last read. -/
  deferred : Bool
deriving DecidableEq, Repr

def PoS.init : PoS :=
  { r := 0, owed := 0, due := 0, start := 0, width := 0, inc := 0, on := false, deferred := false }

structure MetrS where
  grp : NMap GrpS
  tc : NMap TcS
  po : NMap PoS
  /-- The 192 registers of 96 bits, the remainders below their LSB, and the acknowledged values (R392, R385, R395). -/
  reg : NMap Nat
  rem : NMap Nat
  ack : NMap Nat
  /-- Increments of the present update, by register. -/
  inc : NMap Int
  /-- Stretches in which a modulator input was in fault, as first and last clock from tick 0, newest first (R378): as the block
  counts them, and as the module's own inputs had them. They differ on a standby in step alone (R402). -/
  fault : NMap (List (Nat × Option Nat))
  ownFault : NMap (List (Nat × Option Nat))
  /-- The levels of each modulator input in the 60,000 core cycles from cycle 60 of one tick to cycle 59 of the next, bit c for the
  c-th, newest tick first, as far back as the filter reaches (R376, R377). -/
  stream : NMap (List Nat)
  /-- Counts of the pulse inputs at the last tick edge and the one before, and the digital inputs of the tick between
  (R390). -/
  cnt1 : NMap Nat
  cnt0 : NMap Nat
  din : Nat
  /-- A restore (1) or zero (2) in progress, with the duty that wrote it (R397). -/
  op : Option (Nat × Nat)
  /-- The save area as it was when a restore or zeroing began (R397). -/
  opArea : Nat
  /-- A restore has succeeded since kick-off (R401). -/
  restored : Bool
  /-- A save in progress: the device address of its copy, its GEN and its data words (R396). -/
  save : Option (Nat × Nat × List Nat)
deriving DecidableEq, Repr

def MetrS.init : MetrS :=
  { grp := [], tc := [], po := [], reg := [], rem := [], ack := [], inc := [], fault := [], ownFault := [],
    stream := [], cnt1 := [], cnt0 := [], din := 0, op := none, opArea := 0, restored := false, save := none }

/-! ## Analogue inputs (15_analogue_inputs) -/

/-- A capture in progress (R415): channel, range, operation, NLOG, conversions still to come, the sum of codes, the true
value and the duty. -/
structure CapRun where
  ch : Nat
  range : Nat
  op : Nat
  nlog : Nat
  left : Nat
  sum : Int
  ref : Int
  duty : Nat
deriving DecidableEq, Repr

/-- The point pair held (R415): its channel and range, and the points as (true value, mean in 1/256 code). -/
structure CalPts where
  ch : Nat
  range : Nat
  zero : Option (Int × Int)
  full : Option (Int × Int)
deriving DecidableEq, Repr

structure AdcsS where
  /-- Posting enabled as sampled at the tick edge (R418, R421). -/
  pen : Bool
  /-- List conversions ended in the present tick, by converter (R408). -/
  done : NMap Nat
  /-- The urgent conversion in progress on each converter: channel, duty and the cycle in which it ends (R411). -/
  urg : NMap (Option (Nat × Nat × Nat))
  /-- Window state of each channel: 0 inside, 1 below, 2 above (R414). -/
  win : NMap Nat
  /-- The cycle, counted from tick 0 and plus one, of a commit that waits for the channel's next conversion (R417). -/
  commit : NMap Nat
  cap : Option CapRun
  pts : Option CalPts
  /-- A store (1) or load (2) in progress, with its duty (R417). -/
  op : Option (Nat × Nat)
  /-- Calibrated flag, and backup-clock seconds of the last compute, of each entry (R417). -/
  calFlag : NMap Nat
  calSec : NMap Nat
  /-- Tick of each channel's last conversion, plus one. -/
  last : NMap Nat
  /-- The calibration area of the store or load in progress (R417). -/
  opArea : Nat
  /-- Window limits before the writes of the last 600 cycles, newest first: cycle counted from tick 0, channel, LO and HI
  (R6, R414). -/
  winOld : List (Nat × Nat × Int × Int)
  /-- A result of converter 1 that waits for converter 0's of the same cycle: channel, result and the duty of its urgent request
  (R410). -/
  held : Option (Nat × Int × Option Nat)
deriving DecidableEq, Repr

def AdcsS.init : AdcsS :=
  { pen := false, done := [], urg := [], win := [], commit := [], cap := none, pts := none, op := none, calFlag := [],
    calSec := [], last := [], opArea := 0, winOld := [], held := none }

/-! ## Safety channel (16_safety_channel) -/

/-- An open pairing window of a Bextis connection (R439): the first valid copy's sequence number and network, bytes 2 to
19 + LEN of its message, its safety data, and the tick at which the window ends. -/
structure PairWin where
  seq : Nat
  net : Bool
  body : List Nat
  data : List Nat
  last : Nat
deriving DecidableEq, Repr

/-- One Bextis connection (R436 to R440). Ticks are kept plus one; 0 stands for none since kick-off. -/
structure ConS where
  win : Option PairWin
  /-- Tick of the last acceptance, of the last two-copy acceptance, and from which the timeout counts. -/
  acc : Nat
  acc2 : Nat
  tmo : Nat
  /-- The next message is the first after an arm (check 8). -/
  fresh : Bool
  /-- The HMAC key as transferred at the seal (R437, R518). -/
  key : Nat
  /-- Tick of the last safe-state message sent (R438). -/
  txAt : Nat
deriving DecidableEq, Repr

def ConS.init : ConS := { win := none, acc := 0, acc2 := 0, tmo := 0, fresh := false, key := 0, txAt := 0 }

structure SafeS where
  /-- Raw input levels of the last sample, filtered values, and consecutive samples that differed (R425). -/
  rawPrev : Nat
  val : Nat
  filt : NMap Nat
  /-- Raw levels at the sample before each source's pulse and at the last sample of it (R427). -/
  before : NMap Nat
  atLast : NMap Nat
  /-- Consecutive passed tests of each input's own source (R427). -/
  passes : NMap Nat
  /-- Inputs that passed a test since the channel entered SAFE (R434 code 8), one bit each. -/
  passed : Nat
  /-- Outputs commanded on, and the tick of the last change of each command plus one (R429). -/
  cmd : Nat
  changed : NMap Nat
  /-- Dark tests made of each output, which alternate between its switches, and consecutive passes of each switch, by
  2 * output + switch. -/
  tests : NMap Nat
  swPass : NMap Nat
  /-- The tick of a write of the first arm word (R434). -/
  armFirst : Option Nat
  /-- An accepted arm takes effect at the next tick edge. -/
  arming : Bool
  /-- The channel has been armed since kick-off (R440). -/
  armed : Bool
  /-- The tick at which the grace time runs out (R433). -/
  graceEnd : Nat
  /-- The safety core has started since the channel entered SAFE (R434 code 3). -/
  started : Bool
  /-- F3, F4 and F5 as detected now (R434 code 5), one bit each. -/
  detected : Nat
  /-- Degraded causes as they stood at the end of the previous tick (R433). -/
  prevD : Nat
  /-- Internal channels out of band (D11) or stalled (D12), one bit each (R431). -/
  oob : Nat
  stall : Nat
  con : NMap ConS
deriving DecidableEq, Repr

def SafeS.init : SafeS :=
  { rawPrev := 0, val := 0, filt := [], before := [], atLast := [], passes := [], passed := 0, cmd := 0, changed := [],
    tests := [], swPass := [], armFirst := none, arming := false, armed := false, graceEnd := 0, started := false,
    detected := 0, prevD := 0, oob := 0, stall := 0, con := [] }

/-! ## Ethernet, network time and the backup clock (17_network_time_and_clock) -/

/-- An entry of a PRP pair's duplicate table (R448): source address, sequence number, tick of entry. -/
structure DupEnt where
  src : Nat
  seq : Nat
  tick : Nat
deriving DecidableEq, Repr

/-- One interface (R446 to R454). Ticks are kept plus one; 0 stands for none. -/
structure EthS where
  isSealed : Bool
  /-- A KICK is being processed (R452). -/
  busy : Bool
  /-- The next PRP sequence number (R453). -/
  seq : Nat
  /-- The duplicate table, oldest first (R448). -/
  dup : List DupEnt
  /-- Tick of the last frame with a valid RCT from LAN A and from LAN B (R448). -/
  lanA : Nat
  lanB : Nat
  /-- Tick of the last supervision frame, and its sequence number. -/
  supAt : Nat
  supSeq : Nat
deriving DecidableEq, Repr

def EthS.init : EthS :=
  { isSealed := false, busy := false, seq := 0, dup := [], lanA := 0, lanB := 0, supAt := 0, supSeq := 0 }

/-- The network time counter (R455): its value in units of 2^-32 ns at a counter clock of the present tick, and that clock's
number within the tick; the clock at which the last step takes effect (R458), 0 once past, with its nanoseconds; and how far past a
counter clock the tick began, as a fraction of a clock. -/
structure PtptS where
  base : Nat
  clk : Nat
  stepAt : Nat
  step : Int
  phNum : Nat
  phDen : Nat
deriving DecidableEq, Repr

def PtptS.init : PtptS := { base := 0, clk := 0, stepAt := 0, step := 0, phNum := 0, phDen := 1 }

structure RtcbS where
  /-- The write that crosses into the domain (R467), by words: register address and value; empty with none. -/
  crossing : List (Nat × Nat)
  /-- An adjustment due at the next second boundary: a set or a summer-time change. -/
  setTo : Option Nat
  dst : Bool
  /-- Trim in use, the second within the trim window, and the oscillator pulses counted in this second (R465, R466). -/
  trim : Int
  second : Nat
  osc : Nat
  /-- Alarms armed with their second already reached (R468). -/
  past : List Nat
  /-- The domain runs on VBAK (R463). -/
  onVbak : Bool
deriving DecidableEq, Repr

def RtcbS.init : RtcbS :=
  { crossing := [], setTo := none, dst := false, trim := 0, second := 0, osc := 0, past := [], onVbak := false }

/-! ## Pair and referee (18_pair_and_referee) -/

/-- An item of the snapshot, sent or held by a standby (R484): the low 32 bits of its tick, kind, unit and cycle. -/
structure SnapItem where
  tick : Nat
  kind : Nat
  unit : Nat
  cyc : Nat
deriving DecidableEq, Repr

/-- A local input of a standby (R486): the tick count it is tagged with, its cycle, and what was taken. -/
structure LocalIn where
  tag : Nat
  cyc : Nat
  data : LocalData
deriving DecidableEq, Repr

/-- What a referee knows of a member (R490 to R492). Ticks are kept plus one; 0 stands for none. -/
structure RefMember where
  /-- SEQ and tick of the last message accepted, its health word, and whether it answered the latest poll. -/
  seq : Nat
  seen : Nat
  health : Nat
  answered : Bool
  /-- Consecutive missed polls, and consecutive evaluations with HWF. -/
  missed : Nat
  hwf : Nat
deriving DecidableEq, Repr

def RefMember.init : RefMember := { seq := 0, seen := 0, health := 0, answered := false, missed := 0, hwf := 0 }

structure PairS where
  /-- Both seal groups as accepted, and the keys transferred: Rioft and referee (R506). -/
  sealedP : Bool
  sealedR : Bool
  keyL : Nat
  keyR : Nat
  /-- The lanes are trained, the stream is broken, the nonces of training, and the next BSEQ sent and expected (R481, R483). -/
  trained : Bool
  broken : Bool
  nonceOwn : Nat
  noncePeer : Nat
  txSeq : Nat
  rxSeq : Nat
  /-- Frames, plus one, of the last two authenticated STATUS blocks, and the health word of the last (R481). -/
  stat1 : Nat
  stat2 : Nat
  peer : Nat
  /-- The snapshot held: items in order, tick and CYCHI of the last block, and the tick of the last block with LAST (R486,
  R487, R495). Ticks are the low 32 bits; the first is kept plus one. -/
  items : List SnapItem
  hiTick : Nat
  hiCyc : Nat
  lastK : Nat
  /-- Values for loads of PTPT and RTCB registers, by duty, modulator samples, by input, and load angles, by axis, from the
  snapshot (R484). -/
  loads : NMap (List Nat)
  mods : NMap Nat
  angles : NMap Nat
  /-- What a standby's own receivers took, oldest first, for its tick `tag` (R486, R487). -/
  locals : List LocalIn
  /-- The active: the inputs that have taken effect in this tick and that no snapshot block has carried yet, and the CYCHI of the
  last block with the tick it left in, plus one (R484, R485). -/
  taken : List SnapItem
  sentHi : Nat
  sentAt : Nat
  /-- A standby's own network time counter with its WRAPC, in 2^-32 ns, at the present tick's edge (R481). -/
  clock : Option Nat
  /-- The level of the role straps now (R477). -/
  strapIn : Nat
  /-- The frame of the last STATUS sent and the tick in which the hash was sent, each plus one (R482, R489). -/
  statAt : Nat
  hashAt : Nat
  /-- Output hashes received, by tick, newest first, and the module's own of the tick just ended (R489). -/
  hashes : List (Nat × Nat)
  own : Option (Nat × Nat)
  /-- The tick of starvation (R487). -/
  localAt : Nat
  /-- H of a HANDOVER received (R499), and H and the duty of one written. -/
  handAt : Option Nat
  handReq : Option (Nat × Nat)
  /-- The role command accepted, by its code, and an entry into SYNC, at the next tick edge (R491, R489). -/
  role : Option Nat
  sync : Bool
  /-- J of a JOIN received (R501). -/
  join : Option Nat
  /-- Resync: full passes completed by the active (R501). -/
  passDone : Bool
  /-- Referee link: SEQ of the last message sent, SEQ and tick of the last accepted from the referee, tick of the last POLL
  accepted (of a referee, of the last POLL sent), the first tick with REFPRES = 0, and the SEQ of the last HEART sent (R490, R491). Ticks are kept plus one. -/
  msgSeq : Nat
  refSeq : Nat
  refSeen : Nat
  pollAt : Nat
  noRef : Nat
  heart : Nat
  /-- Referee: SEQ of the latest POLL, the tick of the last evaluation, plus one, and the two members (0 for A, 1 for B). -/
  poll : Nat
  evalAt : Nat
  memA : RefMember
  memB : RefMember
  /-- The hardware fault code of a kick-off that stopped (R562). -/
  hwc : Nat
deriving DecidableEq, Repr

def PairS.init : PairS :=
  { sealedP := false, sealedR := false, keyL := 0, keyR := 0, trained := false, broken := true, nonceOwn := 0,
    noncePeer := 0, txSeq := 0, rxSeq := 0, stat1 := 0, stat2 := 0, peer := 0, items := [], hiTick := 0, hiCyc := 0,
    lastK := 0, loads := [], mods := [], angles := [], locals := [], taken := [], sentHi := 0,
    sentAt := 0, clock := none, strapIn := 0, statAt := 0, hashAt := 0, hashes := [], own := none, localAt := 0, handAt := none, handReq := none,
    role := none, sync := false, join := none, passDone := false, msgSeq := 0, refSeq := 0, refSeen := 0, pollAt := 0,
    noRef := 0, heart := 0, poll := 0, evalAt := 0, memA := RefMember.init, memB := RefMember.init, hwc := 0 }

/-! ## Keys and trust (19_keys_and_trust) -/

/-- A request the trust core holds (R117, R528, R530): code, block address, requesting duty, ticket, and once its work is
done the status, the bytes written and the LOADID a load returns. -/
structure TrReq where
  code : Nat
  addr : Nat
  duty : Nat
  ticket : Nat
  fin : Option (Nat × Nat × Option Nat)
deriving DecidableEq, Repr

/-- A copy of a key slot (R514), with the key in place of its ciphertext and the wrapping key it was encrypted under; torn:
GCHK does not fit. -/
structure SlotCopy where
  typ : Nat
  klen : Nat
  bind : Nat
  use : Nat
  gen : Nat
  key : Nat
  wrap : Nat
  torn : Bool
deriving DecidableEq, Repr

def SlotCopy.zero : SlotCopy := { typ := 0, klen := 0, bind := 0, use := 0, gen := 0, key := 0, wrap := 0, torn := false }

/-- The working key (R512); slot 255 for a derived key, whose every use is permitted. -/
structure WorkKey where
  key : Nat
  typ : Nat
  slot : Nat
  use : Nat
  loadid : Nat
  duty : Nat
deriving DecidableEq, Repr

structure TrstS where
  queue : List TrReq
  ticket : Nat
  /-- Slot copies, A of slot s at 2s and B at 2s + 1. -/
  slots : NMap SlotCopy
  /-- MR0 to MR7 as 512-bit numbers (R510). -/
  mr : NMap Nat
  work : Option WorkKey
  /-- The owner's public key, empty while unenrolled; ECNT, ENONCE, the last CSEQ and the SVN minimum as stored in MRAM. -/
  owner : List Nat
  ecnt : Nat
  enonce : Nat
  cseq : Nat
  svnMin : Nat
  /-- Events of kick-off that tick 0 raises: at its edge (R508, R520) with the duty or none for the supervisor, and event 230
  (R515). -/
  owed : List (Nat × Option Nat)
  owed230 : Bool
deriving DecidableEq, Repr

def TrstS.init : TrstS :=
  { queue := [], ticket := 0, slots := [], mr := [], work := none, owner := [], ecnt := 0, enonce := 0, cseq := 0,
    svnMin := 0, owed := [], owed230 := false }

/-! ## Recorder, monitors and bench (20_recorder_monitors_bench) -/

/-- A record waiting to be written, by the fields of R534; its sequence number is taken when it is written. -/
structure Rec where
  code : Nat
  source : Nat
  cls : Nat
  time : Nat
  tick : Nat
  p0 : Nat
  p1 : Nat
deriving DecidableEq, Repr

structure RecdS where
  /-- The write queue, oldest first (R540). -/
  queue : List Rec
  /-- Records refused since the last records-lost record (R539, R540). -/
  lost : Nat
  /-- A cycle, counted from tick 0, and how many of the last records entered in it (R540). -/
  since : Nat
  fresh : Nat
deriving DecidableEq, Repr

/-- A substitution scheduled for a round boundary (R545, R548): the kind, the unit (of kind 1 the duty), the tick B, and
what this member does then: 0 nothing, 1 the substitution, 2 the pause alone. -/
structure BnchSub where
  kind : Nat
  unit : Nat
  tick : Nat
  mode : Nat
deriving DecidableEq, Repr

/-- One copy of the bench state in MRAM (R547, R591): its GEN, the register bits it holds, the retired parts, the rows switched
to bench rows and the service positions that faulted lanes left vacant. -/
structure BenchCopy where
  gen : Nat
  regs : NMap Word
  worn : NMap Nat
  rowSub : NMap Nat
  vacant : NMap Nat
deriving DecidableEq, Repr

structure BnchS where
  /-- Scheduled substitutions, nearest boundary first; at most one at each boundary (R545). -/
  subs : List BnchSub
  /-- Worn resources (1) and retired ones (2), by kind * 2^16 + unit (R544, R545). -/
  worn : NMap Nat
  /-- Duties whose core stopped before its substitution: they move at their partition's restart (R547), one bit each. -/
  moveAtRestart : Nat
  /-- The physical core that pauses in this tick, plus one, and the cycle in which it resumes (R545). -/
  pauseCore : Nat
  pauseUntil : Nat
  /-- `BNCH_CFG` as sampled at the last period boundary (R552). -/
  cfg : Word
  /-- The bench state in MRAM, copies A and B; none for a copy that is not valid (R547, R591). -/
  copyA : Option BenchCopy
  copyB : Option BenchCopy
deriving DecidableEq, Repr

def BnchS.init : BnchS :=
  { subs := [], worn := [], moveAtRestart := 0, pauseCore := 0, pauseUntil := 0, cfg := 0x44101E01, copyA := none, copyB := none }

/-! ## Inputs and outputs of the module (22_module_connectors_electrical) -/

structure DiopS where
  /-- Consecutive samples in which a digital input's raw level differed from its value (R578). -/
  diff : NMap Nat
  /-- Timestamps of rising edges of each pulse input, newest first, in 10 ns from tick 0 (R579). -/
  edges : NMap (List Nat)
  /-- Outputs switched off by overload, with the tick of the trip plus one (R578). -/
  trip : NMap Nat
  /-- Words of the input registers as they read before cycle 64, where the sample of this tick changes them (R425, R578,
  R579). -/
  early : NMap (Option Word)
  /-- Writes of `DIOP_DOUT` on their way to the drivers, newest first: the cycle, counted from tick 0, and the value before (R576). -/
  dout : List (Nat × Word)
deriving DecidableEq, Repr

def DiopS.init : DiopS := { diff := [], edges := [], trip := [], early := [], dout := [] }

/-- The FEED block (R570, R571), with feeds 0 for A and 1 for B. -/
structure FeedS where
  /-- The tick, plus one, from which a present feed has been outside 18 to 32 V. -/
  outSince : NMap Nat
  /-- Feeds whose present excursion has raised event 250, one bit each. -/
  told : Nat
  /-- The second feed has been lost: the module powers down at the next tick edge. -/
  dying : Bool
deriving DecidableEq, Repr

def FeedS.init : FeedS := { outSince := [], told := 0, dying := false }

/-! ## The machine -/

/-- The phases of the module's life (R558, R559, R562, R571). -/
inductive Phase where
  /-- Unpowered, or powered down. -/
  | off
  /-- Kick-off runs the setup program on the loader core (R559). -/
  | setup
  /-- Kick-off is complete up to tick 0 (R563). -/
  | ready
  | running
  /-- Kick-off failed, or the module stopped until power is removed (R562). -/
  | halted
deriving DecidableEq, Repr

/-- An event on its way to a duty (R74): the cycle it arrives in, counted from tick 0, the duty, and the event; numbers above
255 stand for the stop that follows a stop-class event, 256 plus the stop reason (R79). -/
structure EvIn where
  arr : Nat
  duty : Nat
  ev : Nat
deriving DecidableEq, Repr

/-- The last instruction a core began (R79, R84): the cycle of its issue counted from tick 0, its cycles, and the core before
it. -/
structure Began where
  t : Nat
  cost : Nat
  core : CoreS
  /-- The core's vectors before it, and the job whose instance it took (R29, R70). -/
  vec : Word
  took : Option Nat
deriving DecidableEq, Repr

def Began.none : Began := ⟨0, 0, CoreS.off, 0, Option.none⟩

/-- A program's write of live or banked fields in a cycle (R6, R10): the cycle counted from tick 0, the address of the word, the
live and the banked bits written, the values of the word and of its shadow before, and the value written. -/
structure Wrote where
  t : Nat
  addr : Nat
  live : Word
  bank : Word
  oldLive : Word
  oldBank : Word
  val : Word
deriving DecidableEq, Repr

/-- A field's update by hardware in a cycle (R13): the cycle counted from tick 0, the field's address and place, its value
before, and what the hardware did to it: added a number, or (peak) raised it to one. -/
structure HwUpd where
  t : Nat
  addr : Nat
  hi : Nat
  lo : Nat
  old : Nat
  d : Nat
  peak : Bool
deriving DecidableEq, Repr

/-- The state of the module but for its queue of commands. -/
structure Body where
  phase : Phase
  /-- The 64-bit tick count (R19) and the cycle within the tick (R18). -/
  tick : DWord
  cycle : Nat
  /-- The model's own counter that free values are drawn with (notes/assumptions/3). -/
  free : Nat
  /-- The value the last block-register read command returned (the model's own; notes/assumptions/4). -/
  readData : DWord
  /-- Block registers in effect, by device address of each 32-bit word; unlisted is the cold value (R14). -/
  regs : NMap Word
  /-- Shadow banks of banked fields (R10). -/
  shadow : NMap Word
  /-- Collected writes of sealed fields (R7); unlisted is not collected. -/
  coll : NMap Word
  /-- Collected writes of the seals in progress, as they stood when GO was written (R7). -/
  sealing : NMap Word
  /-- Programs' writes of live and banked fields in the cycle written last, newest first (R6, R10). -/
  wrote : List Wrote
  /-- Updates of fields by hardware in the cycle updated last, newest first (R13). -/
  hw : List HwUpd
  /-- Commons, MRAM and CAN object RAM by device address (R64). -/
  mem : NMap Byte
  cores : NMap CoreS
  /-- Events raised and not yet latched, with the stops that follow (R74, R79). -/
  evIn : List EvIn
  /-- The last arrival of an event at a duty, by 256 * duty + event: twice its cycle counted from tick 0, plus the overflow bit
  before it (R74). -/
  evAt : NMap Nat
  /-- The instructions begun last, by physical core (R79). -/
  began : NMap Began
  tier : TierS
  cmns : CmnsS
  recd : RecdS
  /-- Bins of the monitors in the present period, by 32 * monitor + bin (R542). -/
  moniBins : NMap Nat
  bnch : BnchS
  ptpt : PtptS
  rtcb : RtcbS
  safe : SafeS
  qm : QmS
  fusa : FusaS
  solv : SolvS
  diop : DiopS
  feed : FeedS
  loops : LoopsS
  axes : NMap AxisS
  rst : RstS
  can : CanS
  metr : MetrS
  adcs : AdcsS
  trst : TrstS
  /-- Frames and messages the module has sent on its links in the present tick, in order: link number (0 to 4 Ethernet port,
  5 Rioft, 6 referee port) and bytes (the model's own record of what leaves the module; notes/assumptions/5). -/
  sent : List (Nat × List Nat)
  eth : NMap EthS
  /-- Records of the output image issued in the present tick (R488): kind, unit, data. -/
  outs : List (Nat × Nat × List Nat)
  pair : PairS
deriving DecidableEq, Repr

/-- The module before kick-off, but for its queue: every register at its cold value, no memory listed, no core started. -/
def Body.reset : Body :=
  { phase := .off, tick := 0, cycle := 0, free := 0, readData := 0, regs := [], shadow := [], coll := [], sealing := [],
    wrote := [], hw := [],
    mem := [], cores := [], evIn := [], evAt := [], began := [], tier := TierS.init, cmns := CmnsS.init,
    recd := { queue := [], lost := 0, since := 0, fresh := 0 }, moniBins := [], bnch := BnchS.init,
    ptpt := PtptS.init, rtcb := RtcbS.init, safe := SafeS.init, qm := QmS.init, fusa := FusaS.init, solv := SolvS.init, diop := DiopS.init, feed := FeedS.init, loops := LoopsS.init, axes := [], rst := RstS.init, can := CanS.init, metr := MetrS.init, adcs := AdcsS.init, trst := TrstS.init, sent := [], eth := [], outs := [], pair := PairS.init }

end Sys2Proof.Machine
end

