-- ==== Sys2Proof/Syntax.lean ====
section
/-! DEFINITION. The commands the LP9120 takes: one constructor per row of spec/opcode_table.json, with the operands the
rules need (the table gives none; notes/assumptions/1). Instruction commands carry the fields of the instruction word
(R82) and the Issue: which core executes it, in which cycle of the tick, and what the world beside it does meanwhile. -/

namespace Sys2Proof

/-- How an instruction is issued: the physical core, the cycle within the tick (R84), the arbitration wait of its memory
access (R85), and whether the shadow checker of a checked core disagrees with its write (R49). -/
structure Issue where
  core : Fin 16
  cyc : Nat
  wait : Nat
  chk : Bool
deriving DecidableEq, Repr

/-- An access to a block window that reached the block: the core it came from and the cycle within the tick. -/
structure Port where
  core : Fin 16
  cyc : Nat
deriving DecidableEq, Repr

/-- Access sizes (R65). -/
inductive Size where | byte | half | word | dword
deriving DecidableEq, Repr

def Size.bytes : Size → Nat
  | .byte => 1
  | .half => 2
  | .word => 4
  | .dword => 8

/-- What a running solver command meets in its store and lane (R202, R205): corrected store errors, an uncorrectable store
error, and a residue mismatch in a physical lane. -/
structure SolvUpset where
  corrected : Nat
  uncorrectable : Bool
  lane : Option (Fin 5)
deriving DecidableEq, Repr

/-- What a metering seal word seals (R404): the block, a group, a calculator or a pulse output. -/
inductive MeterUnit where
  | block
  | group (g : Fin 4)
  | calc (c : Fin 8)
  | output (o : Fin 16)
deriving DecidableEq, Repr

/-- How the trust core's writes to its MRAM end (R515 to R517, R530): done, failed, or cut short by loss of supply after
the first or the second of R516's steps. -/
inductive TrustWrite where | done | failed | cut1 | cut2
deriving DecidableEq, Repr

/-- A block the active sends (R485, R489): a snapshot body, or the output hash. -/
inductive RioftOut where
  | snapshot (body : List Byte) (cychi : Nat) (last : Bool)
  | hash
deriving DecidableEq, Repr

/-- Power good as the kick-off meets it: the feed voltages in 10 mV (R558 step 1), the role straps (R2, R477), the outcome of
the PUF (R508: the helper copies whose CRC fails, the check value, the bits corrected), the rows that fail the march test
(a commons row, or a row of the solver store, R561), and another memory that fails it. -/
structure KickIn where
  va : Nat
  vb : Nat
  strap : Fin 4
  pufBadA : Bool
  pufBadB : Bool
  pufOk : Bool
  pufCorr : Fin 4096
  rows : List (Bool × BitVec 14)
  memBad : Bool
deriving DecidableEq, Repr

/-- The logic self-tests of kick-off (R561). -/
inductive SelfTest where | checker | lane | pll | supply | reference | readback | pulse
deriving DecidableEq, Repr

/-- A soft error: one flipped bit, or an uncorrectable error, in a word of the commons, of a local memory of a core, or of
the object RAM (R63, R131, R132, R356). Where the word becomes uncorrectable, `flip` tells in which data bits the stored word
then differs from what was written. -/
inductive Upset where
  | commons (w : BitVec 20) (flip : DWord) (double : Bool)
  | imem (core : Fin 16) (w : BitVec 14) (double : Bool)
  | dmem (core : Fin 16) (w : BitVec 14) (double : Bool)
  | object (w : Fin 81920) (flip : DWord) (double : Bool)
deriving DecidableEq, Repr

/-- What a tick edge meets outside the module: raw digital and safety input levels (R578, R425), output contacts above half
of L+, the feed voltages in 10 mV, oscillator pulses of the backup domain since the last edge (R465), soft errors since the
last edge, and at the edge of tick 0 the parts that failed a self-test (R561). -/
structure TickIn where
  di : BitVec 48
  si : BitVec 16
  dorb : BitVec 24
  va : Nat
  vb : Nat
  rtc : Nat
  upsets : List Upset
  failed : List (SelfTest × BitVec 16)
  marker : Option DWord
deriving DecidableEq, Repr

/-- The commands of the block: one constructor per row of the table of operations and events. -/
inductive Instr where
  /-- POWER_GOOD_KICK_OFF (R558): Power good or a kick-off request starts the kick-off sequence: feed check, boot ROM, PUF, memory test, image install and verification, loading, setup and self-tests. -/
  | powerGoodKickOff (k : KickIn)
  /-- SETUP_TIMEOUT (R559): A setup program that runs 1,200,000,000 cycles without its tier-form WTK stops kick-off with code 7. -/
  | setupTimeout
  /-- CORE_START_TICK_ZERO (R55): At cycle 1,536 of tick 0 every bound core in service starts at its ENTRY with no current job. -/
  | coreStartTickZero
  /-- TICK_EDGE (R18): Cycle 0 of a tick: the tick count advances, and the boundary work of the TIER, FUSA, PTPT and other blocks at cycle 0 takes place. -/
  | tickEdge (e : TickIn)
  /-- CHANGEOVER_PUBLICATION (R20): At cycle 1,536 the collector's new scoreboard image becomes visible, with late-post events and counts. -/
  | changeoverPublication
  /-- CLASS_W_DEADLINE_MISS (R34): A class W instance misses its deadline: OVR counts, stop-class event 6 stops the partition and outputs go to safe values. -/
  | classWDeadlineMiss (n : Fin 128)
  /-- CLASS_R_DEADLINE_MISS (R35): A class R instance misses its deadline: OVR counts, event 5 is raised and the region is marked STALE at the changeover. -/
  | classRDeadlineMiss (n : Fin 128)
  /-- FOLLOW_LOST (R41): A standby that loses the active's tick marker keeps its frequency and raises the follow-lost event. -/
  | followLost
  /-- TICK_COUNT_READ (R44): A read of TIER_TICKLO latches the high word of the tick count for the reading core. -/
  | tickCountRead (p : Port)
  /-- TIER_JOB_SEAL (R45): A write of GO to TIER_JOBn_SEAL checks the collected job fields and applies them or records ERR. -/
  | tierJobSeal (p : Port) (n : Fin 128)
  /-- CORE_BIND_SEAL (R54): A write of GO to CORE_nSEAL checks and applies the binding and entry, or records ERR. -/
  | coreBindSeal (p : Port) (n : Fin 16)
  /-- REGISTER_WRITE (R6): A store to a block register without a row of its own sets the field by its class and access code, or is refused under R8 for a running seal group. -/
  | registerWrite (p : Port) (addr : BitVec 32) (size : Size) (v : DWord)
  /-- RC_FIELD_READ (R12): A load that covers a whole RC field returns it and clears it. -/
  | rcFieldRead (p : Port) (addr : BitVec 32) (size : Size)
  /-- ADD (R91): rd = ra + rb with flags. -/
  | add (i : Issue) (rd ra rb : BitVec 6)
  /-- ADDC (R91): rd = ra + rb + C. -/
  | addc (i : Issue) (rd ra rb : BitVec 6)
  /-- ADDS (R91): Saturating 32-bit add. -/
  | adds (i : Issue) (rd ra rb : BitVec 6)
  /-- SUB (R91): rd = ra − rb with flags. -/
  | sub (i : Issue) (rd ra rb : BitVec 6)
  /-- SUBC (R91): rd = ra − rb − (1 − C). -/
  | subc (i : Issue) (rd ra rb : BitVec 6)
  /-- SUBS (R91): Saturating 32-bit subtract. -/
  | subs (i : Issue) (rd ra rb : BitVec 6)
  /-- AND (R91): Bitwise AND of two registers. -/
  | and (i : Issue) (rd ra rb : BitVec 6)
  /-- OR (R91): Bitwise OR of two registers. -/
  | or (i : Issue) (rd ra rb : BitVec 6)
  /-- XOR (R91): Bitwise XOR of two registers. -/
  | xor (i : Issue) (rd ra rb : BitVec 6)
  /-- SHL (R92): Shift left, zero fill. -/
  | shl (i : Issue) (rd ra rb : BitVec 6) (fn : BitVec 8)
  /-- SHR (R92): Logical shift right. -/
  | shr (i : Issue) (rd ra rb : BitVec 6) (fn : BitVec 8)
  /-- SRA (R92): Arithmetic shift right. -/
  | sra (i : Issue) (rd ra rb : BitVec 6) (fn : BitVec 8)
  /-- ROR (R92): Rotate right. -/
  | ror (i : Issue) (rd ra rb : BitVec 6) (fn : BitVec 8)
  /-- MUL (R91): Low 32 bits of the product. -/
  | mul (i : Issue) (rd ra rb : BitVec 6)
  /-- MULH (R91): High 32 bits of the signed product. -/
  | mulh (i : Issue) (rd ra rb : BitVec 6)
  /-- MULHU (R91): High 32 bits of the unsigned product. -/
  | mulhu (i : Issue) (rd ra rb : BitVec 6)
  /-- MULW (R91): Signed 64-bit product into a pair. -/
  | mulw (i : Issue) (rd ra rb : BitVec 6)
  /-- CMP (R91): Flags of ra − rb. -/
  | cmp (i : Issue) (rd ra rb : BitVec 6)
  /-- MIN (R91): Signed minimum. -/
  | min (i : Issue) (rd ra rb : BitVec 6)
  /-- MAX (R91): Signed maximum. -/
  | max (i : Issue) (rd ra rb : BitVec 6)
  /-- MINU (R91): Unsigned minimum. -/
  | minu (i : Issue) (rd ra rb : BitVec 6)
  /-- MAXU (R91): Unsigned maximum. -/
  | maxu (i : Issue) (rd ra rb : BitVec 6)
  /-- SEL (R91): Select ra or rb by a condition. -/
  | sel (i : Issue) (rd ra rb : BitVec 6) (fn : BitVec 8)
  /-- NEG (R91): rd = 0 − ra. -/
  | neg (i : Issue) (rd ra rb : BitVec 6)
  /-- ABS (R91): Saturating absolute value. -/
  | abs (i : Issue) (rd ra rb : BitVec 6)
  /-- CLZ (R91): Count leading zeros. -/
  | clz (i : Issue) (rd ra rb : BitVec 6)
  /-- SEXB (R91): Sign-extend a byte. -/
  | sexb (i : Issue) (rd ra rb : BitVec 6)
  /-- SEXH (R91): Sign-extend a half-word. -/
  | sexh (i : Issue) (rd ra rb : BitVec 6)
  /-- ADDD (R91): 64-bit pair add. -/
  | addd (i : Issue) (rd ra rb : BitVec 6)
  /-- SUBD (R91): 64-bit pair subtract. -/
  | subd (i : Issue) (rd ra rb : BitVec 6)
  /-- ADDDS (R91): Saturating 64-bit pair add. -/
  | addds (i : Issue) (rd ra rb : BitVec 6)
  /-- SUBDS (R91): Saturating 64-bit pair subtract. -/
  | subds (i : Issue) (rd ra rb : BitVec 6)
  /-- PUSH (R96): Push a word onto the data stack. -/
  | push (i : Issue) (rd ra rb : BitVec 6)
  /-- POP (R96): Pop a word from the data stack. -/
  | pop (i : Issue) (rd ra rb : BitVec 6)
  /-- PUSHD (R96): Push a pair onto the data stack. -/
  | pushd (i : Issue) (rd ra rb : BitVec 6)
  /-- POPD (R96): Pop a pair from the data stack. -/
  | popd (i : Issue) (rd ra rb : BitVec 6)
  /-- ADDI (R94): Add a sign-extended immediate. -/
  | addi (i : Issue) (rd ra : BitVec 6) (imm : BitVec 14)
  /-- ANDI (R94): AND with a zero-extended immediate. -/
  | andi (i : Issue) (rd ra : BitVec 6) (imm : BitVec 14)
  /-- ORI (R94): OR with a zero-extended immediate. -/
  | ori (i : Issue) (rd ra : BitVec 6) (imm : BitVec 14)
  /-- XORI (R94): XOR with a zero-extended immediate. -/
  | xori (i : Issue) (rd ra : BitVec 6) (imm : BitVec 14)
  /-- SHI (R94): Shift or rotate by an immediate amount. -/
  | shi (i : Issue) (rd ra : BitVec 6) (imm : BitVec 14)
  /-- CMPI (R94): Flags of ra − immediate. -/
  | cmpi (i : Issue) (rd ra : BitVec 6) (imm : BitVec 14)
  /-- LUI (R94): Load an upper immediate. -/
  | lui (i : Issue) (rd : BitVec 6) (imm : BitVec 20)
  /-- LI (R94): Load a sign-extended immediate. -/
  | li (i : Issue) (rd : BitVec 6) (imm : BitVec 20)
  /-- LB (R95): Load a sign-extended byte. -/
  | lb (i : Issue) (rd ra : BitVec 6) (imm : BitVec 14)
  /-- LH (R95): Load a sign-extended half-word. -/
  | lh (i : Issue) (rd ra : BitVec 6) (imm : BitVec 14)
  /-- LW (R95): Load a word. -/
  | lw (i : Issue) (rd ra : BitVec 6) (imm : BitVec 14)
  /-- LDD (R95): Load 64 bits into a pair. -/
  | ldd (i : Issue) (rd ra : BitVec 6) (imm : BitVec 14)
  /-- SB (R95): Store a byte. -/
  | sb (i : Issue) (rd ra : BitVec 6) (imm : BitVec 14)
  /-- SH (R95): Store a half-word. -/
  | sh (i : Issue) (rd ra : BitVec 6) (imm : BitVec 14)
  /-- SW (R95): Store a word. -/
  | sw (i : Issue) (rd ra : BitVec 6) (imm : BitVec 14)
  /-- SDD (R95): Store 64 bits from a pair. -/
  | sdd (i : Issue) (rd ra : BitVec 6) (imm : BitVec 14)
  /-- MULQ (R98): Rounded, saturating fixed-point product extraction. -/
  | mulq (i : Issue) (rd ra rb : BitVec 6) (fn : BitVec 8)
  /-- MAC (R99): Accumulate, subtract or set a product in an accumulator. -/
  | mac (i : Issue) (rd ra rb : BitVec 6) (fn : BitVec 8)
  /-- CLRA (R100): Clear an accumulator. -/
  | clra (i : Issue) (rd ra rb : BitVec 6)
  /-- LDA (R100): Load an accumulator from a pair. -/
  | lda (i : Issue) (rd ra rb : BitVec 6)
  /-- ADDA (R100): Add two accumulators. -/
  | adda (i : Issue) (rd ra rb : BitVec 6)
  /-- SUBA (R100): Subtract two accumulators. -/
  | suba (i : Issue) (rd ra rb : BitVec 6)
  /-- EXT (R101): Extract an accumulator with rounding and saturation, optionally clearing it. -/
  | ext (i : Issue) (rd ra rb : BitVec 6) (fn : BitVec 8)
  /-- B (R102): Conditional branch, subject to the backward and loop rules. -/
  | b (i : Issue) (cond : BitVec 4) (ra : BitVec 6) (off : BitVec 16)
  /-- CALL (R103): Call an absolute address. -/
  | call (i : Issue) (rd : BitVec 6) (imm : BitVec 20)
  /-- JR (R103): Jump to a register address. -/
  | jr (i : Issue) (rd ra rb : BitVec 6)
  /-- CALLR (R103): Call a register address. -/
  | callr (i : Issue) (rd ra rb : BitVec 6)
  /-- RET (R103): Return, closing loops of the current depth. -/
  | ret (i : Issue) (rd ra rb : BitVec 6)
  /-- LOOP (R104): Open a hardware loop. -/
  | loop (i : Issue) (r : BitVec 1) (mid : BitVec 15) (len : BitVec 10)
  /-- WTK (R107): Complete the current job and return a waiting release, or wait for it. -/
  | wtk (i : Issue) (rd ra : BitVec 6) (sel : BitVec 14)
  /-- WTK_RESUME (R107): A waiting WTK returns at cycle 1,538 of the release or boundary tick, restarting from RESTART in its restart form. -/
  | wtkResume (core : Fin 16)
  /-- SLACK (R108): Return cycles to the current job's deadline. -/
  | slack (i : Issue) (rd ra : BitVec 6) (sel : BitVec 14)
  /-- PUB (R109): Post a header and data words to the staging buffer, accepted or refused. -/
  | pub (i : Issue) (rd ra : BitVec 6) (sel : BitVec 14)
  /-- PUB_DEFERRED_LEAVE (R109): A post that could not leave in its tick leaves and is checked in cycle 0 of the next tick. -/
  | pubDeferredLeave (core : Fin 16)
  /-- TAKE (R110): Read a scoreboard word with its stamp. -/
  | take (i : Issue) (rd ra : BitVec 6) (sel : BitVec 14)
  /-- OBJSEQ (R111): Read and optionally clear a CAN object's SEQ, ND and LOST. -/
  | objseq (i : Issue) (rd ra : BitVec 6) (sel : BitVec 14)
  /-- EVT (R112): Raise a software event to the cores named. -/
  | evt (i : Issue) (rd ra : BitVec 6) (sel : BitVec 14)
  /-- EVWAIT (R113): Return the lowest masked pending event, or wait for one. -/
  | evwait (i : Issue) (rd ra : BitVec 6) (sel : BitVec 14)
  /-- EVWAIT_RESUME (R113): A waiting EVWAIT returns in the cycle after a masked pending bit is set. -/
  | evwaitResume (core : Fin 16) (cyc : Nat)
  /-- EVWAIT_TIMEOUT (R113): A waiting EVWAIT whose limit runs out returns 0x100. -/
  | evwaitTimeout (core : Fin 16) (cyc : Nat)
  /-- EVGET (R114): Return and clear one pending event without waiting. -/
  | evget (i : Issue) (rd ra : BitVec 6) (sel : BitVec 14)
  /-- SQPOST (R115): Submit a solver descriptor to a queue and return a ticket or refusal. -/
  | sqpost (i : Issue) (rd ra : BitVec 6) (sel : BitVec 14)
  /-- SQWAIT (R116): Report a ticket's completion, waiting if asked. -/
  | sqwait (i : Issue) (rd ra : BitVec 6) (sel : BitVec 14)
  /-- SQWAIT_RESUME (R116): A waiting SQWAIT returns in the cycle after the command completes. -/
  | sqwaitResume (core : Fin 16) (cyc : Nat)
  /-- SQWAIT_TIMEOUT (R116): A waiting SQWAIT whose limit runs out returns with rd[31] = 1. -/
  | sqwaitTimeout (core : Fin 16) (cyc : Nat)
  /-- TRUST (R117): Send a request to the trust core, accepted with a ticket or refused. -/
  | trust (i : Issue) (rd ra : BitVec 6) (sel : BitVec 14)
  /-- TRAP (R119): Raise the program trap. -/
  | trap (i : Issue) (rd ra : BitVec 6) (sel : BitVec 14)
  /-- NOP (R120): No operation. -/
  | nop (i : Issue) (rd ra : BitVec 6)
  /-- RDSR (R120): Read the status word. -/
  | rdsr (i : Issue) (rd ra : BitVec 6)
  /-- WRSR (R120): Write Z, N, C, V and S. -/
  | wrsr (i : Issue) (rd ra : BitVec 6)
  /-- RDID (R120): Return duty number, physical core, partition and checked bit. -/
  | rdid (i : Issue) (rd ra : BitVec 6)
  /-- COMMONS_SCRUB (R133): A bank without a request reads and checks its next word, correcting or poisoning it. -/
  | commonsScrub (bank : Fin 32)
  /-- COMMONS_ROW_SWITCH (R135): After a row copy ends, the bank switches the row to its bench copy at the round boundary and raises event 54. -/
  | commonsRowSwitch (bank : Fin 32)
  /-- CK_SEAL (R141): Check-unit SEAL computes and writes a check word over LEN words. -/
  | ckSeal (p : Port) (k : Fin 4)
  /-- CK_VERIFY (R141): Check-unit VERIFY reads a buffer and its check word and compares them. -/
  | ckVerify (p : Port) (k : Fin 4)
  /-- CK_COPY (R141): Check-unit COPY copies a buffer, verifies the source and writes the destination check word last. -/
  | ckCopy (p : Port) (k : Fin 4)
  /-- CHECK_UNIT_COMPLETE (R142): A check-unit command ends, records ERR and raises event 52 or 53. -/
  | checkUnitComplete (k : Fin 4)
  /-- QM_SEAL (R159): A write of GO to FUSA_QMg_SEAL clears SEALED and starts reading and checking the generation. -/
  | qmSeal (p : Port) (g : Fin 2)
  /-- QM_SEAL_COMPLETE (R159): The generation seal ends, sets SEALED or records ERR and EREC, and raises event 88. -/
  | qmSealComplete (g : Fin 2)
  /-- QM_HOLD_END (R162): A retired generation's hold runs out; FREEg is set and event 94 raised. -/
  | qmHoldEnd (g : Fin 2)
  /-- QM_SCAN (R164): The per-round scan verifies every sealed generation and handles failures and automatic switches. -/
  | qmScan
  /-- FUSA_SAMPLE_WRITE (R168): A 64-bit store to FUSA_SMP calibrates a sample and enters it in its buffer or late list, or refuses it. -/
  | fusaSampleWrite (p : Port) (size : Size) (v : DWord) (served : Nat)
  /-- FUSA_SBASE_SEAL (R196): A write of GO to FUSA_SEAL checks and applies the slot area address. -/
  | fusaSbaseSeal (p : Port)
  /-- ALIGNMENT_LIMIT_EXPIRY (R173): At T(k) + LIMIT the buffer closes by limit, with BYLIM and event 86. -/
  | alignmentLimitExpiry
  /-- GATE (R181): The assist GATE command votes every reference of a closed buffer and writes quality words. -/
  | gate (p : Port) (k : Fin 2)
  /-- CUPD (R188): The assist CUPD command performs scalar filter updates record by record. -/
  | cupd (p : Port) (k : Fin 2)
  /-- ASSIST_COMPLETE (R198): An assist command ends, records ERR and raises event 83 or 85. -/
  | assistComplete (k : Fin 2)
  /-- CALIBRATION_WRITE (R189): A write to FUSA_REFr_OFF or GAIN is clamped to its rate and budget limits. -/
  | calibrationWrite (p : Port) (r : Fin 4096) (gain : Bool) (v : Word)
  /-- PDEF (R215): Define a problem's dimensions and thresholds. -/
  | pdef (short : Bool) (seq : BitVec 16) (u : SolvUpset)
  /-- PATT (R216): Append part of K's pattern. -/
  | patt (short : Bool) (seq : BitVec 16) (u : SolvUpset)
  /-- SYMB (R217): Symbolic factorisation and storage allocation. -/
  | symb (short : Bool) (seq : BitVec 16) (u : SolvUpset)
  /-- PDEL (R210): Free a problem's storage. -/
  | pdel (short : Bool) (seq : BitVec 16) (u : SolvUpset)
  /-- KDELTA (R218): Apply a delta list to K. -/
  | kdelta (short : Bool) (seq : BitVec 16) (u : SolvUpset)
  /-- VDELTA (R218): Apply a delta list to a vector. -/
  | vdelta (short : Bool) (seq : BitVec 16) (u : SolvUpset)
  /-- VREAD (R221): Read vector cells into the commons. -/
  | vread (short : Bool) (seq : BitVec 16) (u : SolvUpset)
  /-- REFAC (R229): Numeric factorisation with pivot regularisation. -/
  | refac (short : Bool) (seq : BitVec 16) (u : SolvUpset)
  /-- SOLVE (R221): Solve with the factor in the selected form. -/
  | solve (short : Bool) (seq : BitVec 16) (u : SolvUpset)
  /-- SPMV (R221): Sparse matrix-vector product. -/
  | spmv (short : Bool) (seq : BitVec 16) (u : SolvUpset)
  /-- VOP_COPY (R221): VOP FN 0: DST = A. -/
  | vopCopy (short : Bool) (seq : BitVec 16) (u : SolvUpset)
  /-- VOP_AXPBY (R221): VOP FN 1: DST = ALPHA × A + BETA × B. -/
  | vopAxpby (short : Bool) (seq : BitVec 16) (u : SolvUpset)
  /-- VOP_CLAMP (R221): VOP FN 2: clamp dual rows between DQ and DU. -/
  | vopClamp (short : Bool) (seq : BitVec 16) (u : SolvUpset)
  /-- VOP_FILL (R221): VOP FN 3: DST = ALPHA in every row. -/
  | vopFill (short : Bool) (seq : BitVec 16) (u : SolvUpset)
  /-- VOP_NORM (R221): VOP FN 4: largest |A| into NORM. -/
  | vopNorm (short : Bool) (seq : BitVec 16) (u : SolvUpset)
  /-- REFINE (R231): Iterative refinement steps against stored K. -/
  | refine (short : Bool) (seq : BitVec 16) (u : SolvUpset)
  /-- ITER (R232): First-order iteration on a factored problem. -/
  | iter (short : Bool) (seq : BitVec 16) (u : SolvUpset) (n : Nat)
  /-- DQP (R234): Dense active-set QP on one lane. -/
  | dqp (short : Bool) (seq : BitVec 16) (u : SolvUpset)
  /-- ENC (R235): Quantised encoder on one lane. -/
  | enc (short : Bool) (seq : BitVec 16) (u : SolvUpset)
  /-- SOLVER_COMMAND_COMPLETE (R227): A command writes results, STATUS and STEPS, posts its completion word and raises event 56 or 57. -/
  | solverCommandComplete (short : Bool) (seq : BitVec 16) (cyc steps : Nat)
  /-- SOLV_CANCEL (R228): A write to SOLV_CANCEL removes a pending command or stops a running one at the next edge. -/
  | solvCancel (p : Port) (seq : BitVec 16) (short : Bool)
  /-- LOOP_EVALUATION (R285): A due loop applies console writes and commits, reads inputs, computes or tracks, supervises and writes its destination. -/
  | loopEvaluation (n : Fin 512)
  /-- LOOP_OUTPUT_POST (R286): At cycle 52,800 the engine posts every output slot. -/
  | loopOutputPost
  /-- LOOP_SEAL (R287): A write of GO to LOOP_nSEAL starts reading and checking the descriptor. -/
  | loopSeal (p : Port) (n : Fin 512)
  /-- LOOP_SEAL_COMPLETE (R289): The loop seal ends, sets SEALED or ERR and raises event 98. -/
  | loopSealComplete (n : Fin 512)
  /-- LOOP_OUTPUT_SEAL (R309): A write of GO to LOOP_OSEAL checks and applies OBASE and ONUM. -/
  | loopOutputSeal (p : Port)
  /-- LOOP_COMMIT (R300): A write of COMMIT marks the loop's banks to swap at its next evaluation. -/
  | loopCommit (p : Port) (n : Fin 512)
  /-- SET_LOAD_QUEUE (R301): A write to LOOP_BLDADDR queues a coefficient set load, or refuses it. -/
  | setLoadQueue (p : Port) (addr : BitVec 23)
  /-- SET_LOAD_COMPLETE (R301): The loader reads and checks a set, writes the shadow bank and raises event 102 or 103. -/
  | setLoadComplete
  /-- CONSOLE_ENTRY_QUEUE (R302): A write to LOOP_CWRV queues a console coefficient entry, or refuses it. -/
  | consoleEntryQueue (p : Port) (v : Word)
  /-- REACTION_ACKNOWLEDGE (R307): A write of RACK ends the reaction at the next evaluation with bumpless return. -/
  | reactionAcknowledge (p : Port) (n : Fin 512)
  /-- INJECTOR_SEAL (R303): A write of GO to LOOP_INJk_SEAL checks and applies the injector group. -/
  | injectorSeal (p : Port) (k : Fin 8)
  /-- INJECTOR_START (R303): START begins injection at the loop's next evaluation, optionally starting capture. -/
  | injectorStart (p : Port) (k : Fin 8)
  /-- INJECTOR_STOP (R303): STOP ends the injection. -/
  | injectorStop (p : Port) (k : Fin 8)
  /-- CAPTURE_SEAL (R304): A write of GO to LOOP_CAPSEAL checks and applies the capture group. -/
  | captureSeal (p : Port)
  /-- CAPTURE_START (R304): START begins recording capture nodes. -/
  | captureStart (p : Port)
  /-- CAPTURE_STOP (R304): STOP ends a capture. -/
  | captureStop (p : Port)
  /-- AXIS_UPDATE (R314): At cycle 53,000 each axis forms its target, moves along its trajectory, updates current and checks stalls. -/
  | axisUpdate (la : BitVec 64)
  /-- CHOPPER_FAULT (R318): Overcurrent, open coil or bridge fault turns every gate off and sets FAULT. -/
  | chopperFault (a : Fin 8) (w : List ChopSense) (cyc : Nat)
  /-- AXIS_CLR (R323): A write of CLR clears STALL, FAULT and velocity at the next update. -/
  | axisClr (p : Port) (a : Fin 8)
  /-- AXIS_SETP (R323): A write to AXIS_aSETP sets the position and HOMED at the next update. -/
  | axisSetp (p : Port) (a : Fin 8) (v : Word)
  /-- AXIS_COMMIT (R327): A write of COMMIT swaps the axis banks at the next update. -/
  | axisCommit (p : Port) (a : Fin 8)
  /-- AXIS_SEAL (R327): A write of GO to AXIS_aSEAL checks and applies CFG, CHOP and SAFETGT. -/
  | axisSeal (p : Port) (a : Fin 8)
  /-- ENCODER_EDGE (R319): An A or B edge changes the quadrature count, or a double change counts QERR. -/
  | encoderEdge (e : Fin 4) (k : EncEdge)
  /-- PULSE_INPUT_EDGE (R579): A rising edge on a pulse input is counted and timestamped. -/
  | pulseInputEdge (p : Fin 32) (ten : Fin 10000)
  /-- RESTART_REQUEST (R333): A write of GO to DIOP_RST requests a partition restart at the next round boundary, or is refused. -/
  | restartRequest (p : Port) (part : BitVec 4) (kind : BitVec 2)
  /-- PARTITION_RESTART (R334): At tick Q the partition's instances end, outputs go safe, cores reset and restart at RESTART. -/
  | partitionRestart
  /-- OUTPUT_RELEASE_REQUEST (R335): A write of REL to DIOP_RST requests release of the outputs, or is refused. -/
  | outputReleaseRequest (p : Port)
  /-- OUTPUT_RELEASE (R335): At cycle 1,536 after REL and its conditions, WHOLD clears and outputs leave their safe values. -/
  | outputRelease
  /-- KICK_OFF_REQUEST (R566): A write to DIOP_KREQ sets COLD or schedules a kick-off at the next round boundary, or records ERR. -/
  | kickOffRequest (p : Port) (key : BitVec 16) (cold kick : Bool)
  /-- REQUESTED_KICK_OFF (R566): At round boundary H the module enters kick-off, handing over first if active in a pair. -/
  | requestedKickOff
  /-- CAN_FRAME_RECEIVE (R358): A received frame passing its CRC is stored whole into its object, advancing SEQ and setting ND and LOST. -/
  | canFrameReceive (c : Fin 16) (f : CanFrame)
  /-- CAN_TX_REQUEST (R360): A write to CANB_cTXREQ checks and accepts or refuses a transmit request. -/
  | canTxRequest (p : Port) (c : Fin 16) (obj : BitVec 13) (sealed : Bool)
  /-- CAN_TX_CANCEL (R363): A write to CANB_cTXCAN cancels the request on an object. -/
  | canTxCancel (p : Port) (c : Fin 16) (obj : BitVec 13)
  /-- CAN_TX_ATTEMPT (R361): At an opportunity to start a frame the channel reads and checks the highest-priority pending object and starts an attempt. -/
  | canTxAttempt (c : Fin 16) (cyc : Nat)
  /-- CAN_TX_COMPLETE (R362): A transmission succeeds, setting ND and advancing SEQ, or ends with LOST. -/
  | canTxComplete (c : Fin 16) (ok : Bool)
  /-- CAN_BUS_ERROR (R365): A bus error updates TEC and REC and may enter error passive or bus-off. -/
  | canBusError (c : Fin 16) (e : CanErr)
  /-- BUS_OFF_RECOVERY (R366): After 128 recessive sequences the channel recovers, records BODUR and resumes sending. -/
  | busOffRecovery (c : Fin 16) (n : Nat)
  /-- CAN_RECOV (R366): A write of RECOV permits recovery counting during bus-off. -/
  | canRecov (p : Port) (c : Fin 16)
  /-- STATION_DROPOUT (R367): A station's watch timeout expires: DROP set, DCNT advanced, pending requests ended, event raised. -/
  | stationDropout (c : Fin 16) (s : Fin 64)
  /-- STATION_RETURN (R367): A store into a dropped station's watch object makes it return at the next evaluation. -/
  | stationReturn (c : Fin 16) (s : Fin 64)
  /-- CAN_CHANNEL_SEAL (R372): A write of GO to CANB_cSEAL starts reading the object table and checking the channel group. -/
  | canChannelSeal (p : Port) (c : Fin 16)
  /-- CAN_CHANNEL_SEAL_COMPLETE (R372): The channel seal ends with SEALED or ERR and raises the channel event with SEALD. -/
  | canChannelSealComplete (c : Fin 16)
  /-- MODULATOR_FAULT (R378): A modulator stream held for 128 clocks is in fault, sets MODF and raises the group event. -/
  | modulatorFault (k : Fin 32) (clk : Fin 1000)
  /-- METERING_UPDATE (R383): The group update from cycle 2,000 forms quantities and accumulates energy registers. -/
  | meteringUpdate (x : List Nat)
  /-- GROUP_COMMIT (R383): A write of COMMIT swaps a group's banks at the next update. -/
  | groupCommit (p : Port) (g : Fin 4)
  /-- METERING_SEAL (R405): A write of GO to a metering seal word checks and applies the block, group, calculator or pulse-output group. -/
  | meteringSeal (p : Port) (u : MeterUnit)
  /-- ENERGY_REGISTER_READ (R393): A 64-bit load of METR_Ei latches the fraction into METR_EFRAC. -/
  | energyRegisterRead (p : Port) (n : Fin 192)
  /-- SUMMARY_READ (R395): A 64-bit load of METR_SUMi returns SUM, WCNT and DW and acknowledges the register. -/
  | summaryRead (p : Port) (n : Fin 192)
  /-- METERING_SAVE (R396): At a round boundary the block snapshots registers and starts writing the save copy, or skips. -/
  | meteringSave
  /-- METERING_SAVE_COMPLETE (R396): The save's check word is written and event 165 raised. -/
  | meteringSaveComplete (ok : Bool)
  /-- METERING_RESTORE (R397): RESTORE loads registers from the chosen save copy. -/
  | meteringRestore (p : Port)
  /-- METERING_ZERO (R397): ZERO sets every register, residue and OWED to 0. -/
  | meteringZero (p : Port)
  /-- PULSE_OUTPUT_START (R399): An owed pulse starts when due and spaced, decreasing OWED. -/
  | pulseOutputStart (o : Fin 16) (ten : Fin 10000)
  /-- PULSE_OUTPUT_END (R399): A pulse ends after its width. -/
  | pulseOutputEnd (o : Fin 16)
  /-- METERING_POST (R401): At cycle 56,000 of ticks ending in 9 the block posts its region. -/
  | meteringPost
  /-- ADC_CONVERSION_END (R410): A conversion takes effect, updating accumulator, tracker, window and calculators. -/
  | adcConversionEnd (k : Fin 2) (urgent : Bool) (code : BitVec 18)
  /-- URGENT_REQUEST (R411): A write to ADCS_URG starts an urgent conversion or drops it. -/
  | urgentRequest (p : Port) (ch : BitVec 6) (conv : Fin 2)
  /-- TRACKER_RESET (R413): A write to ADCS_MMRSTL or MMRSTH empties trackers. -/
  | trackerReset (p : Port) (high : Bool) (v : Word)
  /-- CAL_CAPTURE_ZERO (R415): CALCMD OP 1 starts averaging the zero point. -/
  | calCaptureZero (p : Port) (ch : BitVec 6) (range : BitVec 1) (nlog : BitVec 5)
  /-- CAL_CAPTURE_FULL_SCALE (R415): CALCMD OP 2 starts averaging the full-scale point. -/
  | calCaptureFullScale (p : Port) (ch : BitVec 6) (range : BitVec 1) (nlog : BitVec 5)
  /-- CAL_CAPTURE_COMPLETE (R415): A capture's 2^NLOG conversions are averaged and event 172 raised. -/
  | calCaptureComplete
  /-- CAL_COMPUTE (R415): CALCMD OP 3 computes GAIN and ZOFF into the shadow bank. -/
  | calCompute (p : Port) (ch : BitVec 6) (range : BitVec 1)
  /-- CAL_COMMIT (R417): A write to ADCS_CALCOMMIT swaps a channel's coefficient banks at its next conversion. -/
  | calCommit (p : Port) (ch : BitVec 6)
  /-- CAL_STORE (R417): STORE starts writing the calibration copy to MRAM. -/
  | calStore (p : Port)
  /-- CAL_LOAD (R417): LOAD starts reading both calibration copies. -/
  | calLoad (p : Port)
  /-- CAL_STORE_LOAD_COMPLETE (R417): A store or load finishes, LBUSY clears and event 174 or 173 is raised. -/
  | calStoreLoadComplete (ok : Bool)
  /-- ADC_SEAL (R421): A write of GO to ADCS_SEAL checks and applies the sequencer group. -/
  | adcSeal (p : Port)
  /-- ADC_POST (R418): At cycle 57,000 of ticks ending in 9 the sequencer posts its region. -/
  | adcPost
  /-- OUTPUT_READBACK (R429): At cycle 54,500 readback is compared with the command and faults recorded. -/
  | outputReadback (rb : BitVec 16)
  /-- DARK_TEST (R429): An energised output's switch opens for 50 µs and its de-energising is checked. -/
  | darkTest (o : Fin 8) (off : Bool)
  /-- CLOCK_MONITOR_FAULT (R431): The clock monitor detects a clock deviation, fault F3. -/
  | clockMonitorFault (on : Bool)
  /-- SUPPLY_WINDOW_FAULT (R431): A supply window comparator trips, fault F4. -/
  | supplyWindowFault (on : Bool)
  /-- GRACE_EXPIRY (R433): The grace time runs out with a cause present, bringing fault F8. -/
  | graceExpiry
  /-- SAFETY_TRIP (R431): A write of TRIP to SAFE_CTRL brings fault F7. -/
  | safetyTrip (p : Port)
  /-- ARM_SEQUENCE (R434): ARMK writes of 0x5AFE then 0xA501 are checked, and an accepted arm moves the channel to RUN at the next tick. -/
  | armSequence (p : Port) (k : BitVec 16)
  /-- SAFE_SEAL (R445): A write of GO to SAFE_SEAL checks the group and requests connection keys. -/
  | safeSeal (p : Port)
  /-- BEXTIS_SEND (R438): A TXGO bit sends a transmit connection's message on both networks. -/
  | bextisSend (p : Port) (c : Fin 8)
  /-- BEXTIS_SAFE_STATE_SEND (R438): In SAFE each transmit connection sends its fail-safe data every TXPER ticks. -/
  | bextisSafeStateSend (c : Fin 8)
  /-- BEXTIS_COPY_RECEIVE (R439): A received copy is checked, paired or accepted, or discarded. -/
  | bextisCopyReceive (c : Fin 8) (b : Bool) (dest : BitVec 48) (msg : List Byte)
  /-- PAIRING_WINDOW_END (R439): A pairing window ends without the other copy, accepting one copy and setting Dc. -/
  | pairingWindowEnd (c : Fin 8)
  /-- BEXTIS_TIMEOUT (R440): A receive connection without acceptance for TMO ticks brings fault F6. -/
  | bextisTimeout (c : Fin 8)
  /-- ETHERNET_FRAME_RECEIVE (R451): A frame passing FCS and PRP handling is written to the next receive descriptor, or dropped. -/
  | ethernetFrameReceive (p : Fin 5) (cyc : Nat) (fcsOk fifo : Bool) (frame : List Byte)
  /-- TRANSMIT_KICK (R452): A write of KICK makes the block process the transmit ring. -/
  | transmitKick (p : Port) (i : Fin 3)
  /-- TRANSMIT_DESCRIPTOR (R453): The block checks and sends one transmit descriptor and writes its status. -/
  | transmitDescriptor (i : Fin 3) (cyc : Nat)
  /-- PRP_SUPERVISION_SEND (R448): Every LCI ms a PRP supervision frame is sent on both LANs. -/
  | prpSupervisionSend (i : Fin 2)
  /-- PRP_LAN_SILENT (R448): One LAN silent for 3 × LCI sets LANAS or LANBS and raises event 200. -/
  | prpLanSilent (i : Fin 2) (lanB : Bool)
  /-- LINK_CHANGE (R471): A port's link goes up or down and event 199 is raised. -/
  | linkChange (p : Fin 5) (up : Bool) (spd : Fin 3) (fdx : Bool)
  /-- ETHN_SEAL (R473): A write of GO to ETHN_iSEAL checks and applies the interface group. -/
  | ethnSeal (p : Port) (i : Fin 3)
  /-- NETWORK_TIME_WRAP (R455): NS carries past 2^32 − 1; WRAPC advances and event 198 is raised. -/
  | networkTimeWrap (cyc : Nat)
  /-- PTPT_STEP (R458): A write to PTPT_STEP adds nanoseconds at the next counter clock, or is refused. -/
  | ptptStep (p : Port) (v : Word)
  /-- RTC_SECOND_BOUNDARY (R468): At a second boundary adjustments apply and armed alarms fire. -/
  | rtcSecondBoundary (osc : Nat)
  /-- RTCB_SET (R467): A write to RTCB_SET sets the seconds count at the next second boundary. -/
  | rtcbSet (p : Port) (v : BitVec 48)
  /-- DST (R467): A write of DST adds or subtracts 3,600 s at the next second boundary. -/
  | dst (p : Port)
  /-- BACKUP_SUPPLY_SWITCH (R463): The backup domain switches between VMAIN and VBAK. -/
  | backupSupplySwitch (vmain vbak : Nat)
  /-- BACKUP_DOMAIN_RESET (R464): The domain node fell below 1.6 V, so the domain resets at its next power-up. -/
  | backupDomainReset
  /-- STRAP_CHANGE (R477): A role strap changes while running and event 217 is raised. -/
  | strapChange (strap : Fin 4)
  /-- RIOFT_TRAINING (R481): The link trains or is lost, exchanging nonces and changing RLINK. -/
  | rioftTraining (up : Bool) (own peer : Nat)
  /-- RIOFT_BLOCK_SEND (R485): The active sends a block when full, after 4,096 cycles, or at cycle 59,999 with LAST. -/
  | rioftBlockSend (b : RioftOut)
  /-- RIOFT_BLOCK_RECEIVE (R483): A received block is checked by CRC, TAG and BSEQ and used, or breaks the stream. -/
  | rioftBlockReceive (block : List Byte)
  /-- SNAPSHOT_ITEM_APPLY (R486): The standby applies each snapshot item of its tick in cycle CYC. -/
  | snapshotItemApply (x : SnapData)
  /-- STARVATION (R487): The standby lacks snapshot data for a cycle and switches to local inputs. -/
  | starvation (cyc : Nat)
  /-- LOCALMAX_EXPIRY (R487): After LOCALMAX frames on local inputs without takeover the standby enters DIVERGED. -/
  | localmaxExpiry
  /-- STATUS_BLOCK_SEND (R482): Each side sends a STATUS control block with its health word once per frame. -/
  | statusBlockSend
  /-- POLL (R491): The referee sends POLL on both ports at cycle 1,536 of tick 0 of its frame. -/
  | poll
  /-- HEART (R491): A member's PAIR block answers an accepted POLL with a HEART. -/
  | heart (msg : List Byte)
  /-- HEART_RECEIVE (R490): The referee checks and accepts a member's HEART. -/
  | heartReceive (b : Bool) (msg : List Byte)
  /-- REFEREE_EVALUATION (R492): At cycle 0 of tick 5 the referee applies start, record and failover rules and sends commands or fences. -/
  | refereeEvaluation (fbA fbB : Bool)
  /-- ASSIGN_ACTIVE (R497): A member in START accepting ASSIGN ACTIVE becomes ACTIVE at its next tick edge. -/
  | assignActive (msg : List Byte)
  /-- ASSIGN_STANDBY (R497): A member accepting ASSIGN STANDBY enters SYNC. -/
  | assignStandby (msg : List Byte)
  /-- TAKEOVER (R495): A standby accepting TAKEOVER becomes ACTIVE at its next edge, ends gating and records KLAST and TKTICK, or ignores it. -/
  | takeover (msg : List Byte)
  /-- FENCE_INPUT (R494): FENCE_IN asserted for 2 µs gates the member, enters FENCED and raises stop-class event 216. -/
  | fenceInput (on : Bool)
  /-- FENCE_RELEASE (R493): A write of RELA or RELB releases a FENCE line. -/
  | fenceRelease (p : Port) (relA relB : Bool)
  /-- REFEREE_ABSENT_START (R498): Member A in START becomes ACTIVE after 30 frames without referee. -/
  | refereeAbsentStart
  /-- SOLO (R498): A write of SOLO makes a member in START ACTIVE, or is refused. -/
  | solo (p : Port)
  /-- HANDOVER (R499): A write of HANDOVER schedules a planned handover at tick H, or is refused. -/
  | handover (p : Port)
  /-- HANDOVER_AT_H (R499): At tick H the active checks the standby and hands over or refuses. -/
  | handoverAtH
  /-- HANDOVER_RECEIVE (R499): The standby receiving HANDOVER becomes ACTIVE at its own tick H. -/
  | handoverReceive
  /-- RESYNC (R489): A write of RESYNC moves a DIVERGED member to SYNC. -/
  | resync (p : Port)
  /-- RESYNC_COPY_PASS (R501): The active sends mirrored lines and dirty lines in passes. -/
  | resyncCopyPass (lines : List Byte) (endOfPass : Bool) (dirty : BitVec 21)
  /-- FREEZE_JOIN (R501): At a round boundary with few dirty lines the active freezes and sends JOIN, frozen lines and core states. -/
  | freezeJoin (dirty mram : Nat)
  /-- JOIN_APPLY (R501): The member applies the join and starts its tick J in STANDBY, or abandons the join. -/
  | joinApply (ok : Bool) (x : Machine.Body)
  /-- PAIR_SEAL (R506): A write of GO to PAIR_SEAL or PAIR_RSEAL checks its group and requests its key. -/
  | pairSeal (p : Port) (r : Bool)
  /-- IDENT (R529): Trust request: identity public key to OUT. -/
  | ident
  /-- MEASURE (R510): Trust request: extend a measurement register. -/
  | measure
  /-- READMR (R529): Trust request: MR0 to MR7 to OUT. -/
  | readmr
  /-- TRUST_VERIFY (R524): Trust request: check a signed command envelope and return its payload. -/
  | trustVerify (w : TrustWrite)
  /-- ATTEST (R527): Trust request: write a signed attestation statement. -/
  | attest
  /-- KEYLOAD (R512): Trust request: load a slot into the working key register. -/
  | keyload
  /-- DERIVE (R511): Trust request: derive a key into the working key register. -/
  | derive
  /-- TRUST_MAC (R529): Trust request: HMAC-SHA-512 with the working key. -/
  | trustMac
  /-- SEALA (R529): Trust request: AES-256-GCM encrypt. -/
  | seala
  /-- OPENA (R529): Trust request: AES-256-GCM decrypt. -/
  | opena
  /-- SIGN (R529): Trust request: ECDSA signature with the working key. -/
  | sign
  /-- IMPORT (R525): Trust request: decrypt an imported key into a slot. -/
  | importKey (w : TrustWrite)
  /-- DESTROY (R517): Trust request: tombstone a slot. -/
  | destroy (w : TrustWrite)
  /-- CLEAR (R512): Trust request: empty the working key register. -/
  | clear
  /-- CODELOAD (R526): Trust request: verify a package and write code into cyclic cores. -/
  | codeload (w : TrustWrite)
  /-- OWNER (R522): Trust request: replace the owner key. -/
  | owner (w : TrustWrite)
  /-- RELEASE (R522): Trust request: destroy every slot and unenrol. -/
  | release (w : TrustWrite)
  /-- TRUST_REQUEST_COMPLETE (R530): A request writes its status and raises event 228 and possibly 229. -/
  | trustRequestComplete
  /-- PROGRAM_RECORD (R539): A write to RECD_WGO queues a program record, or refuses it. -/
  | programRecord (p : Port)
  /-- RECORD_WRITE (R536): The recorder writes the next queued record with its five MRAM stores. -/
  | recordWrite (fail : Option (Fin 5))
  /-- MONITOR_PUT (R541): A write to MONI_mPUT supplies a program sample. -/
  | monitorPut (p : Port) (m : Fin 64) (v : Word)
  /-- MONITOR_SEAL (R551): A write of GO to a monitor's SEAL checks and applies CFG and LO. -/
  | monitorSeal (p : Port) (m : Fin 64)
  /-- WEAR_DECISION (R544): A wear threshold is reached, WEAR set and event 244 raised. -/
  | wearDecision (kind : Fin 8) (unit : BitVec 16) (v errs : Nat) (hard : Bool)
  /-- BNCH_REQ (R544): A write of GO to BNCH_REQ requests a substitution, or is refused. -/
  | bnchReq (p : Port) (kind : BitVec 4) (unit : BitVec 16)
  /-- SUBST (R548): A SUBST control block is exchanged between pair members to schedule a substitution. -/
  | subst (arg : Word)
  /-- BENCH_SUBSTITUTION (R545): At round boundary B a spare takes over a worn resource. -/
  | benchSubstitution
  /-- FEED_PRESENT (R570): A feed at 17.5 V or above for 20 ms becomes present. -/
  | feedPresent (b : Bool)
  /-- FEED_LOST (R570): A feed below 16.0 V for 100 µs is lost. -/
  | feedLost (b : Bool)
  /-- FEED_OUT_OF_BAND (R570): A present feed outside 18–32 V for one round raises event 250. -/
  | feedOutOfBand (b : Bool)
  /-- POWER_DOWN (R571): After the second feed is lost, outputs become undriven, MRAM completes its write and the cores stop. -/
  | powerDown
  /-- OUTPUT_OVERLOAD (R578): An output 1 ms in current limit switches off and sets OVL. -/
  | outputOverload (o : Fin 24)
  /-- OVERLOAD_RETRY (R578): A tripped output still commanded on is retried every 100 ms. -/
  | overloadRetry (o : Fin 24)
  /-- MODULATOR_FAULT_END (R378): A modulator input in fault leaves fault at the first change of its stream, clearing INF. -/
  | modulatorFaultEnd (k : Fin 32) (clk : Fin 1000)
  /-- RESTORE_OR_ZERO_COMPLETE (R397): A metering restore or zero finishes, RBUSY clears, RSTAT is set and event 166 is raised. -/
  | restoreOrZeroComplete
  /-- BUFFER_CLOSED_AND_SEALED (R177): The close of an alignment buffer finishes writing the slot header and check word, raises event 80 and goes on to clear the retired slot. -/
  | bufferClosedAndSealed
  /-- DOMAIN_WRITE_CROSSING (R467): A write to an RTCB register crosses into the backup domain within 3 oscillator pulses and takes effect, clearing BUSY. -/
  | domainWriteCrossing
  /-- BUS_INTEGRATION_COMPLETE (R372): A CAN channel that began bus integration after EN finishes it and becomes error active. -/
  | busIntegrationComplete (c : Fin 16)
deriving DecidableEq, Repr

end Sys2Proof
end

