-- ==== Sys2Proof/Decode.lean ====
section
/-! DEFINITION. The commands that words spell. The table of operations and events gives its rows no bits, so no table word
spells a command. The instruction commands of the DW cores have an encoding of their own (R82, R88 to R120), which is
decoded here: `decodeDwenan` is the command a core issues for an instruction word, and `encodeDwenan` the word of an
instruction. -/

namespace Sys2Proof

/-- The command a table word spells: the table gives no row any bits, so none. -/
def decodeTableWord (_nbits _w : Nat) : Option Instr := none

/-! ## The fields of an instruction word (R82) -/

def fieldRd (w : BitVec 32) : BitVec 6 := w.extractLsb' 20 6
def fieldRa (w : BitVec 32) : BitVec 6 := w.extractLsb' 14 6
def fieldRb (w : BitVec 32) : BitVec 6 := w.extractLsb' 8 6
def fieldFn (w : BitVec 32) : BitVec 8 := w.extractLsb' 0 8
def fieldImm14 (w : BitVec 32) : BitVec 14 := w.extractLsb' 0 14
def fieldImm20 (w : BitVec 32) : BitVec 20 := w.extractLsb' 0 20

/-- Opcodes 0x00 to 0x0F (R88, R91, R96); none for a reserved function. -/
def decodeAlu (i : Issue) (op : Nat) (w : BitVec 32) : Option Instr :=
  let rd := fieldRd w
  let ra := fieldRa w
  let rb := fieldRb w
  let fn := fieldFn w
  match op, fn.toNat with
  | 0x00, 0 => some (.add i rd ra rb)
  | 0x00, 1 => some (.addc i rd ra rb)
  | 0x00, 2 => some (.adds i rd ra rb)
  | 0x01, 0 => some (.sub i rd ra rb)
  | 0x01, 1 => some (.subc i rd ra rb)
  | 0x01, 2 => some (.subs i rd ra rb)
  | 0x02, 0 => some (.and i rd ra rb)
  | 0x03, 0 => some (.or i rd ra rb)
  | 0x04, 0 => some (.xor i rd ra rb)
  | 0x05, _ => some (.shl i rd ra rb fn)
  | 0x06, _ => some (.shr i rd ra rb fn)
  | 0x07, _ => some (.sra i rd ra rb fn)
  | 0x08, _ => some (.ror i rd ra rb fn)
  | 0x09, 0 => some (.mul i rd ra rb)
  | 0x09, 1 => some (.mulh i rd ra rb)
  | 0x09, 2 => some (.mulhu i rd ra rb)
  | 0x09, 3 => some (.mulw i rd ra rb)
  | 0x0A, 0 => some (.cmp i rd ra rb)
  | 0x0B, 0 => some (.min i rd ra rb)
  | 0x0B, 1 => some (.max i rd ra rb)
  | 0x0B, 2 => some (.minu i rd ra rb)
  | 0x0B, 3 => some (.maxu i rd ra rb)
  | 0x0C, _ => some (.sel i rd ra rb fn)
  | 0x0D, 0 => some (.neg i rd ra rb)
  | 0x0D, 1 => some (.abs i rd ra rb)
  | 0x0D, 2 => some (.clz i rd ra rb)
  | 0x0D, 3 => some (.sexb i rd ra rb)
  | 0x0D, 4 => some (.sexh i rd ra rb)
  | 0x0E, 0 => some (.addd i rd ra rb)
  | 0x0E, 1 => some (.subd i rd ra rb)
  | 0x0E, 2 => some (.addds i rd ra rb)
  | 0x0E, 3 => some (.subds i rd ra rb)
  | 0x0F, 0 => some (.push i rd ra rb)
  | 0x0F, 1 => some (.pop i rd ra rb)
  | 0x0F, 2 => some (.pushd i rd ra rb)
  | 0x0F, 3 => some (.popd i rd ra rb)
  | _, _ => none

/-- Opcodes 0x10 to 0x27 (R94, R95). -/
def decodeImm (i : Issue) (op : Nat) (w : BitVec 32) : Option Instr :=
  let rd := fieldRd w
  let ra := fieldRa w
  let imm := fieldImm14 w
  match op with
  | 0x10 => some (.addi i rd ra imm)
  | 0x11 => some (.andi i rd ra imm)
  | 0x12 => some (.ori i rd ra imm)
  | 0x13 => some (.xori i rd ra imm)
  | 0x14 => some (.shi i rd ra imm)
  | 0x15 => some (.cmpi i rd ra imm)
  | 0x16 => some (.lui i rd (fieldImm20 w))
  | 0x17 => some (.li i rd (fieldImm20 w))
  | 0x20 => some (.lb i rd ra imm)
  | 0x21 => some (.lh i rd ra imm)
  | 0x22 => some (.lw i rd ra imm)
  | 0x23 => some (.ldd i rd ra imm)
  | 0x24 => some (.sb i rd ra imm)
  | 0x25 => some (.sh i rd ra imm)
  | 0x26 => some (.sw i rd ra imm)
  | 0x27 => some (.sdd i rd ra imm)
  | _ => none

/-- Opcodes 0x28 to 0x2F (R98 to R105). -/
def decodeMacXfer (i : Issue) (op : Nat) (w : BitVec 32) : Option Instr :=
  let rd := fieldRd w
  let ra := fieldRa w
  let rb := fieldRb w
  let fn := fieldFn w
  match op, fn.toNat with
  | 0x28, _ => some (.mulq i rd ra rb fn)
  | 0x29, _ => some (.mac i rd ra rb fn)
  | 0x2A, 0 => some (.clra i rd ra rb)
  | 0x2A, 1 => some (.lda i rd ra rb)
  | 0x2A, 2 => some (.adda i rd ra rb)
  | 0x2A, 3 => some (.suba i rd ra rb)
  | 0x2B, _ => some (.ext i rd ra rb fn)
  | 0x2C, _ => some (.b i (w.extractLsb' 22 4) (w.extractLsb' 16 6) (w.extractLsb' 0 16))
  | 0x2D, _ => some (.call i rd (fieldImm20 w))
  | 0x2E, 0 => some (.jr i rd ra rb)
  | 0x2E, 1 => some (.callr i rd ra rb)
  | 0x2E, 2 => some (.ret i rd ra rb)
  | 0x2F, _ => some (.loop i (w.extractLsb' 25 1) (w.extractLsb' 10 15) (w.extractLsb' 0 10))
  | _, _ => none

/-- Opcodes 0x30 to 0x3D (R107 to R120). -/
def decodeBlock (i : Issue) (op : Nat) (w : BitVec 32) : Option Instr :=
  let rd := fieldRd w
  let ra := fieldRa w
  let sel := fieldImm14 w
  match op, sel.toNat with
  | 0x30, _ => some (.wtk i rd ra sel)
  | 0x31, _ => some (.slack i rd ra sel)
  | 0x32, _ => some (.pub i rd ra sel)
  | 0x33, _ => some (.take i rd ra sel)
  | 0x34, _ => some (.objseq i rd ra sel)
  | 0x35, _ => some (.evt i rd ra sel)
  | 0x36, _ => some (.evwait i rd ra sel)
  | 0x37, _ => some (.evget i rd ra sel)
  | 0x38, _ => some (.sqpost i rd ra sel)
  | 0x39, _ => some (.sqwait i rd ra sel)
  | 0x3A, _ => some (.trust i rd ra sel)
  | 0x3C, _ => some (.trap i rd ra sel)
  | 0x3D, 0 => some (.nop i rd ra)
  | 0x3D, 1 => some (.rdsr i rd ra)
  | 0x3D, 2 => some (.wrsr i rd ra)
  | 0x3D, 3 => some (.rdid i rd ra)
  | _, _ => none

/-- The command a core issues for an instruction word; none where the opcode or the function is reserved (R83, R88). -/
def decodeDwenan (i : Issue) (w : BitVec 32) : Option Instr :=
  let op := (w.extractLsb' 26 6).toNat
  if op < 0x10 then decodeAlu i op w
  else if op < 0x28 then decodeImm i op w
  else if op < 0x30 then decodeMacXfer i op w
  else decodeBlock i op w

/-! ## The words of the instructions -/

/-- A word of the form [31:26] opcode, [25:20] rd, [19:14] ra, [13:8] rb, [7:0] fn (R82). -/
def wordR (op rd ra rb : BitVec 6) (fn : BitVec 8) : BitVec 32 := op ++ rd ++ ra ++ rb ++ fn

/-- A word of the form [31:26] opcode, [25:20] rd, [19:14] ra, [13:0] imm14 or sel14 (R82). -/
def wordI (op rd ra : BitVec 6) (imm : BitVec 14) : BitVec 32 := op ++ rd ++ ra ++ imm

/-- The word of an instruction command; none for the commands that no word spells (R82, R88 to R120). -/
def encodeDwenan : Instr → Option (BitVec 32)
  | .add _ rd ra rb => some (wordR 0x00 rd ra rb 0)
  | .addc _ rd ra rb => some (wordR 0x00 rd ra rb 1)
  | .adds _ rd ra rb => some (wordR 0x00 rd ra rb 2)
  | .sub _ rd ra rb => some (wordR 0x01 rd ra rb 0)
  | .subc _ rd ra rb => some (wordR 0x01 rd ra rb 1)
  | .subs _ rd ra rb => some (wordR 0x01 rd ra rb 2)
  | .and _ rd ra rb => some (wordR 0x02 rd ra rb 0)
  | .or _ rd ra rb => some (wordR 0x03 rd ra rb 0)
  | .xor _ rd ra rb => some (wordR 0x04 rd ra rb 0)
  | .shl _ rd ra rb fn => some (wordR 0x05 rd ra rb fn)
  | .shr _ rd ra rb fn => some (wordR 0x06 rd ra rb fn)
  | .sra _ rd ra rb fn => some (wordR 0x07 rd ra rb fn)
  | .ror _ rd ra rb fn => some (wordR 0x08 rd ra rb fn)
  | .mul _ rd ra rb => some (wordR 0x09 rd ra rb 0)
  | .mulh _ rd ra rb => some (wordR 0x09 rd ra rb 1)
  | .mulhu _ rd ra rb => some (wordR 0x09 rd ra rb 2)
  | .mulw _ rd ra rb => some (wordR 0x09 rd ra rb 3)
  | .cmp _ rd ra rb => some (wordR 0x0A rd ra rb 0)
  | .min _ rd ra rb => some (wordR 0x0B rd ra rb 0)
  | .max _ rd ra rb => some (wordR 0x0B rd ra rb 1)
  | .minu _ rd ra rb => some (wordR 0x0B rd ra rb 2)
  | .maxu _ rd ra rb => some (wordR 0x0B rd ra rb 3)
  | .sel _ rd ra rb fn => some (wordR 0x0C rd ra rb fn)
  | .neg _ rd ra rb => some (wordR 0x0D rd ra rb 0)
  | .abs _ rd ra rb => some (wordR 0x0D rd ra rb 1)
  | .clz _ rd ra rb => some (wordR 0x0D rd ra rb 2)
  | .sexb _ rd ra rb => some (wordR 0x0D rd ra rb 3)
  | .sexh _ rd ra rb => some (wordR 0x0D rd ra rb 4)
  | .addd _ rd ra rb => some (wordR 0x0E rd ra rb 0)
  | .subd _ rd ra rb => some (wordR 0x0E rd ra rb 1)
  | .addds _ rd ra rb => some (wordR 0x0E rd ra rb 2)
  | .subds _ rd ra rb => some (wordR 0x0E rd ra rb 3)
  | .push _ rd ra rb => some (wordR 0x0F rd ra rb 0)
  | .pop _ rd ra rb => some (wordR 0x0F rd ra rb 1)
  | .pushd _ rd ra rb => some (wordR 0x0F rd ra rb 2)
  | .popd _ rd ra rb => some (wordR 0x0F rd ra rb 3)
  | .addi _ rd ra imm => some (wordI 0x10 rd ra imm)
  | .andi _ rd ra imm => some (wordI 0x11 rd ra imm)
  | .ori _ rd ra imm => some (wordI 0x12 rd ra imm)
  | .xori _ rd ra imm => some (wordI 0x13 rd ra imm)
  | .shi _ rd ra imm => some (wordI 0x14 rd ra imm)
  | .cmpi _ rd ra imm => some (wordI 0x15 rd ra imm)
  | .lui _ rd imm => some (0x16#6 ++ rd ++ imm)
  | .li _ rd imm => some (0x17#6 ++ rd ++ imm)
  | .lb _ rd ra imm => some (wordI 0x20 rd ra imm)
  | .lh _ rd ra imm => some (wordI 0x21 rd ra imm)
  | .lw _ rd ra imm => some (wordI 0x22 rd ra imm)
  | .ldd _ rd ra imm => some (wordI 0x23 rd ra imm)
  | .sb _ rd ra imm => some (wordI 0x24 rd ra imm)
  | .sh _ rd ra imm => some (wordI 0x25 rd ra imm)
  | .sw _ rd ra imm => some (wordI 0x26 rd ra imm)
  | .sdd _ rd ra imm => some (wordI 0x27 rd ra imm)
  | .mulq _ rd ra rb fn => some (wordR 0x28 rd ra rb fn)
  | .mac _ rd ra rb fn => some (wordR 0x29 rd ra rb fn)
  | .clra _ rd ra rb => some (wordR 0x2A rd ra rb 0)
  | .lda _ rd ra rb => some (wordR 0x2A rd ra rb 1)
  | .adda _ rd ra rb => some (wordR 0x2A rd ra rb 2)
  | .suba _ rd ra rb => some (wordR 0x2A rd ra rb 3)
  | .ext _ rd ra rb fn => some (wordR 0x2B rd ra rb fn)
  | .b _ cond ra off => some (0x2C#6 ++ cond ++ ra ++ off)
  | .call _ rd imm => some (0x2D#6 ++ rd ++ imm)
  | .jr _ rd ra rb => some (wordR 0x2E rd ra rb 0)
  | .callr _ rd ra rb => some (wordR 0x2E rd ra rb 1)
  | .ret _ rd ra rb => some (wordR 0x2E rd ra rb 2)
  | .loop _ r mid len => some (0x2F#6 ++ r ++ mid ++ len)
  | .wtk _ rd ra sel => some (wordI 0x30 rd ra sel)
  | .slack _ rd ra sel => some (wordI 0x31 rd ra sel)
  | .pub _ rd ra sel => some (wordI 0x32 rd ra sel)
  | .take _ rd ra sel => some (wordI 0x33 rd ra sel)
  | .objseq _ rd ra sel => some (wordI 0x34 rd ra sel)
  | .evt _ rd ra sel => some (wordI 0x35 rd ra sel)
  | .evwait _ rd ra sel => some (wordI 0x36 rd ra sel)
  | .evget _ rd ra sel => some (wordI 0x37 rd ra sel)
  | .sqpost _ rd ra sel => some (wordI 0x38 rd ra sel)
  | .sqwait _ rd ra sel => some (wordI 0x39 rd ra sel)
  | .trust _ rd ra sel => some (wordI 0x3A rd ra sel)
  | .trap _ rd ra sel => some (wordI 0x3C rd ra sel)
  | .nop _ rd ra => some (wordI 0x3D rd ra 0)
  | .rdsr _ rd ra => some (wordI 0x3D rd ra 1)
  | .wrsr _ rd ra => some (wordI 0x3D rd ra 2)
  | .rdid _ rd ra => some (wordI 0x3D rd ra 3)
  | _ => none

/-- The issue of an instruction command; none for the commands that no word spells. -/
def issueOf : Instr → Option Issue
  | .add i _ _ _ | .addc i _ _ _ | .adds i _ _ _ | .sub i _ _ _
  | .subc i _ _ _ | .subs i _ _ _ | .and i _ _ _ | .or i _ _ _
  | .xor i _ _ _ | .shl i _ _ _ _ | .shr i _ _ _ _ | .sra i _ _ _ _
  | .ror i _ _ _ _ | .mul i _ _ _ | .mulh i _ _ _ | .mulhu i _ _ _
  | .mulw i _ _ _ | .cmp i _ _ _ | .min i _ _ _ | .max i _ _ _
  | .minu i _ _ _ | .maxu i _ _ _ | .sel i _ _ _ _ | .neg i _ _ _
  | .abs i _ _ _ | .clz i _ _ _ | .sexb i _ _ _ | .sexh i _ _ _
  | .addd i _ _ _ | .subd i _ _ _ | .addds i _ _ _ | .subds i _ _ _
  | .push i _ _ _ | .pop i _ _ _ | .pushd i _ _ _ | .popd i _ _ _
  | .addi i _ _ _ | .andi i _ _ _ | .ori i _ _ _ | .xori i _ _ _
  | .shi i _ _ _ | .cmpi i _ _ _ | .lui i _ _ | .li i _ _
  | .lb i _ _ _ | .lh i _ _ _ | .lw i _ _ _ | .ldd i _ _ _
  | .sb i _ _ _ | .sh i _ _ _ | .sw i _ _ _ | .sdd i _ _ _
  | .mulq i _ _ _ _ | .mac i _ _ _ _ | .clra i _ _ _ | .lda i _ _ _
  | .adda i _ _ _ | .suba i _ _ _ | .ext i _ _ _ _ | .b i _ _ _
  | .call i _ _ | .jr i _ _ _ | .callr i _ _ _ | .ret i _ _ _
  | .loop i _ _ _ | .wtk i _ _ _ | .slack i _ _ _ | .pub i _ _ _
  | .take i _ _ _ | .objseq i _ _ _ | .evt i _ _ _ | .evwait i _ _ _
  | .evget i _ _ _ | .sqpost i _ _ _ | .sqwait i _ _ _ | .trust i _ _ _
  | .trap i _ _ _ | .nop i _ _ | .rdsr i _ _ | .wrsr i _ _
  | .rdid i _ _ => some i
  | _ => none

end Sys2Proof
end

