-- ==== Sys2Proof/Config.lean ====
section
/-! DEFINITION. What is fixed for every LP9120, and the free values: functions with no body, of which no proof can see a
value, for what the manual leaves open or takes from other standards without stating it. -/

namespace Sys2Proof.Config

/-- DW-core cycles of a tick (R18). -/
def cyclesPerTick : Nat := 60000

/-- Cycles of the changeover (R20). -/
def changeover : Nat := 1536

/-- Scoreboard words (R26). -/
def sbWords : Nat := 262144

/-! ## Free values

Each is a function with no body: nothing can be proved of its values. The Nat arguments tell apart what the value belongs
to; `draw` counts the free values a run has taken. -/

/-- A value the manual does not state, for the use named by `what`, at a draw. -/
opaque freeNat (what : Nat) (draw : Nat) : Nat

/-- A Bool the manual does not state. -/
opaque freeBool (what : Nat) (draw : Nat) : Bool

/-- A result the manual does not state, as a function of what it is computed from: equal arguments, equal results. -/
opaque freeFun (what : Nat) (args : List Nat) : Nat

end Sys2Proof.Config
end

