-- ==== Sys2Proof/Machine/Regs.lean ====
section
/-! DEFINITION. The addresses of the block registers and references to their fields, one definition each, named
BLOCK_REGISTER and BLOCK_REGISTER_FIELD as the register tables of spec/ name them (R43, R80, R81, R144, R167, R196, R239,
R309, R327, R353, R374, R404, R421, R444, R472, R474, R475, R506, R533, R550, R551, R552, R571, R578). -/

namespace Sys2Proof.Machine

/-- Where a field lives: its register's device address and its bits; a wide register has 64. -/
structure FieldRef where
  addr : Nat
  hi : Nat
  lo : Nat
deriving DecidableEq, Repr

end Sys2Proof.Machine

namespace Sys2Proof.Machine.R

/-! TIER, spec/01_tiers_and_changeover.md R43. -/

abbrev TIER_TICKLO : Nat := 0x40000000
def TIER_TICKLO_TICK : FieldRef := ⟨0x40000000, 31, 0⟩
abbrev TIER_TICKHI : Nat := 0x40000004
def TIER_TICKHI_TICKH : FieldRef := ⟨0x40000004, 31, 0⟩
abbrev TIER_PHASE : Nat := 0x40000008
def TIER_PHASE_TIF : FieldRef := ⟨0x40000008, 3, 0⟩
def TIER_PHASE_FIR : FieldRef := ⟨0x40000008, 10, 4⟩
def TIER_PHASE_RIP : FieldRef := ⟨0x40000008, 17, 11⟩
abbrev TIER_CYCLE : Nat := 0x4000000C
def TIER_CYCLE_CYC : FieldRef := ⟨0x4000000C, 15, 0⟩
def TIER_CYCLE_CHG : FieldRef := ⟨0x4000000C, 16, 16⟩
abbrev TIER_DISC_CFG : Nat := 0x40000010
def TIER_DISC_CFG_MODE : FieldRef := ⟨0x40000010, 1, 0⟩
def TIER_DISC_CFG_BW : FieldRef := ⟨0x40000010, 3, 2⟩
abbrev TIER_DISC_ANCH : Nat := 0x40000014
def TIER_DISC_ANCH_ANCH : FieldRef := ⟨0x40000014, 16, 0⟩
abbrev TIER_DISC_ERR : Nat := 0x40000018
def TIER_DISC_ERR_ERR : FieldRef := ⟨0x40000018, 31, 0⟩
abbrev TIER_DISC_STAT : Nat := 0x4000001C
def TIER_DISC_STAT_LOCK : FieldRef := ⟨0x4000001C, 0, 0⟩
def TIER_DISC_STAT_HOLD : FieldRef := ⟨0x4000001C, 1, 1⟩
def TIER_DISC_STAT_FOLLOW : FieldRef := ⟨0x4000001C, 2, 2⟩
def TIER_DISC_STAT_FCORR : FieldRef := ⟨0x4000001C, 31, 16⟩
abbrev TIER_SRCs_STAT (i : Nat) : Nat := 0x40000100 + 4 * i
def TIER_SRCs_STAT_USED (i : Nat) : FieldRef := ⟨0x40000100 + 4 * i, 12, 0⟩
def TIER_SRCs_STAT_REFUSED (i : Nat) : FieldRef := ⟨0x40000100 + 4 * i, 20, 13⟩
def TIER_SRCs_STAT_LATE (i : Nat) : FieldRef := ⟨0x40000100 + 4 * i, 28, 21⟩
def TIER_SRCs_STAT_BADADDR (i : Nat) : FieldRef := ⟨0x40000100 + 4 * i, 29, 29⟩
abbrev TIER_JOBn_CFG (i : Nat) : Nat := 0x40001000 + 32 * i
def TIER_JOBn_CFG_TIER (i : Nat) : FieldRef := ⟨0x40001000 + 32 * i, 1, 0⟩
def TIER_JOBn_CFG_DIV (i : Nat) : FieldRef := ⟨0x40001000 + 32 * i, 11, 2⟩
def TIER_JOBn_CFG_PHASE (i : Nat) : FieldRef := ⟨0x40001000 + 32 * i, 21, 12⟩
def TIER_JOBn_CFG_CLASS (i : Nat) : FieldRef := ⟨0x40001000 + 32 * i, 23, 22⟩
def TIER_JOBn_CFG_CORE (i : Nat) : FieldRef := ⟨0x40001000 + 32 * i, 27, 24⟩
abbrev TIER_JOBn_BASE (i : Nat) : Nat := 0x40001004 + 32 * i
def TIER_JOBn_BASE_BASE (i : Nat) : FieldRef := ⟨0x40001004 + 32 * i, 17, 0⟩
abbrev TIER_JOBn_LEN (i : Nat) : Nat := 0x40001008 + 32 * i
def TIER_JOBn_LEN_LEN (i : Nat) : FieldRef := ⟨0x40001008 + 32 * i, 18, 0⟩
abbrev TIER_JOBn_SEAL (i : Nat) : Nat := 0x4000100C + 32 * i
def TIER_JOBn_SEAL_GO (i : Nat) : FieldRef := ⟨0x4000100C + 32 * i, 0, 0⟩
def TIER_JOBn_SEAL_ERR (i : Nat) : FieldRef := ⟨0x4000100C + 32 * i, 7, 4⟩
abbrev TIER_JOBn_CTRL (i : Nat) : Nat := 0x40001010 + 32 * i
def TIER_JOBn_CTRL_EN (i : Nat) : FieldRef := ⟨0x40001010 + 32 * i, 0, 0⟩
abbrev TIER_JOBn_STAT (i : Nat) : Nat := 0x40001014 + 32 * i
def TIER_JOBn_STAT_RUN (i : Nat) : FieldRef := ⟨0x40001014 + 32 * i, 0, 0⟩
def TIER_JOBn_STAT_ACTIVE (i : Nat) : FieldRef := ⟨0x40001014 + 32 * i, 1, 1⟩
def TIER_JOBn_STAT_STALE (i : Nat) : FieldRef := ⟨0x40001014 + 32 * i, 2, 2⟩
def TIER_JOBn_STAT_LASTLATE (i : Nat) : FieldRef := ⟨0x40001014 + 32 * i, 3, 3⟩
abbrev TIER_JOBn_CNT (i : Nat) : Nat := 0x40001018 + 32 * i
def TIER_JOBn_CNT_OVR (i : Nat) : FieldRef := ⟨0x40001018 + 32 * i, 15, 0⟩
def TIER_JOBn_CNT_SKIP (i : Nat) : FieldRef := ⟨0x40001018 + 32 * i, 31, 16⟩
/-! CORE, spec/02_programmers_model.md R80. -/

abbrev CORE_SVC : Nat := 0x40010000
def CORE_SVC_INSVC : FieldRef := ⟨0x40010000, 15, 0⟩
def CORE_SVC_BENCH : FieldRef := ⟨0x40010000, 31, 16⟩
abbrev CORE_nBIND (i : Nat) : Nat := 0x40011000 + 256 * i
def CORE_nBIND_PART (i : Nat) : FieldRef := ⟨0x40011000 + 256 * i, 3, 0⟩
abbrev CORE_nENTRY (i : Nat) : Nat := 0x40011004 + 256 * i
def CORE_nENTRY_ENTRY (i : Nat) : FieldRef := ⟨0x40011004 + 256 * i, 13, 0⟩
abbrev CORE_nSEAL (i : Nat) : Nat := 0x40011008 + 256 * i
def CORE_nSEAL_GO (i : Nat) : FieldRef := ⟨0x40011008 + 256 * i, 0, 0⟩
def CORE_nSEAL_ERR (i : Nat) : FieldRef := ⟨0x40011008 + 256 * i, 7, 4⟩
abbrev CORE_nVEC (i : Nat) : Nat := 0x4001100C + 256 * i
def CORE_nVEC_RESTART (i : Nat) : FieldRef := ⟨0x4001100C + 256 * i, 13, 0⟩
def CORE_nVEC_TRAPV (i : Nat) : FieldRef := ⟨0x4001100C + 256 * i, 29, 16⟩
abbrev CORE_nSTAT (i : Nat) : Nat := 0x40011010 + 256 * i
def CORE_nSTAT_STATE (i : Nat) : FieldRef := ⟨0x40011010 + 256 * i, 2, 0⟩
def CORE_nSTAT_INSVC (i : Nat) : FieldRef := ⟨0x40011010 + 256 * i, 3, 3⟩
def CORE_nSTAT_CHECKED (i : Nat) : FieldRef := ⟨0x40011010 + 256 * i, 4, 4⟩
def CORE_nSTAT_RSD (i : Nat) : FieldRef := ⟨0x40011010 + 256 * i, 12, 8⟩
def CORE_nSTAT_LSD (i : Nat) : FieldRef := ⟨0x40011010 + 256 * i, 15, 13⟩
abbrev CORE_nTRAP (i : Nat) : Nat := 0x40011014 + 256 * i
def CORE_nTRAP_CAUSE (i : Nat) : FieldRef := ⟨0x40011014 + 256 * i, 3, 0⟩
def CORE_nTRAP_DOUBLE (i : Nat) : FieldRef := ⟨0x40011014 + 256 * i, 4, 4⟩
def CORE_nTRAP_STOP (i : Nat) : FieldRef := ⟨0x40011014 + 256 * i, 10, 8⟩
abbrev CORE_nTRAPPC (i : Nat) : Nat := 0x40011018 + 256 * i
def CORE_nTRAPPC_PC (i : Nat) : FieldRef := ⟨0x40011018 + 256 * i, 15, 0⟩
abbrev CORE_nFADDR (i : Nat) : Nat := 0x4001101C + 256 * i
def CORE_nFADDR_ADDR (i : Nat) : FieldRef := ⟨0x4001101C + 256 * i, 31, 0⟩
abbrev CORE_nCNT (i : Nat) : Nat := 0x40011020 + 256 * i
def CORE_nCNT_TRAPS (i : Nat) : FieldRef := ⟨0x40011020 + 256 * i, 15, 0⟩
def CORE_nCNT_CHKMIS (i : Nat) : FieldRef := ⟨0x40011020 + 256 * i, 23, 16⟩
def CORE_nCNT_ECCCOR (i : Nat) : FieldRef := ⟨0x40011020 + 256 * i, 31, 24⟩
/-! CMNS, spec/04_commons_and_checks.md R144. -/

abbrev CMNS_CFG : Nat := 0x40020000
def CMNS_CFG_SCRUB : FieldRef := ⟨0x40020000, 0, 0⟩
def CMNS_CFG_CORTHR : FieldRef := ⟨0x40020000, 15, 8⟩
abbrev CMNS_ECCCNT : Nat := 0x40020004
def CMNS_ECCCNT_COR : FieldRef := ⟨0x40020004, 15, 0⟩
def CMNS_ECCCNT_UNC : FieldRef := ⟨0x40020004, 31, 16⟩
abbrev CMNS_WMAX : Nat := 0x40020008
def CMNS_WMAX_WMAX : FieldRef := ⟨0x40020008, 4, 0⟩
abbrev CMNS_UEADDR : Nat := 0x4002000C
def CMNS_UEADDR_ADDR : FieldRef := ⟨0x4002000C, 22, 0⟩
abbrev CMNS_UEINFO : Nat := 0x40020010
def CMNS_UEINFO_PORT : FieldRef := ⟨0x40020010, 4, 0⟩
def CMNS_UEINFO_WRITE : FieldRef := ⟨0x40020010, 8, 8⟩
abbrev CMNS_CKFADDR : Nat := 0x40020014
def CMNS_CKFADDR_ADDR : FieldRef := ⟨0x40020014, 22, 0⟩
abbrev CMNS_CKFINFO : Nat := 0x40020018
def CMNS_CKFINFO_DETECT : FieldRef := ⟨0x40020018, 4, 0⟩
def CMNS_CKFINFO_EXIT : FieldRef := ⟨0x40020018, 8, 8⟩
abbrev CMNS_BANKb (i : Nat) : Nat := 0x40020100 + 4 * i
def CMNS_BANKb_BROWS (i : Nat) : FieldRef := ⟨0x40020100 + 4 * i, 5, 0⟩
def CMNS_BANKb_COR (i : Nat) : FieldRef := ⟨0x40020100 + 4 * i, 31, 16⟩
abbrev CMNS_CKkSRC (i : Nat) : Nat := 0x40020200 + 16 * i
def CMNS_CKkSRC_SRC (i : Nat) : FieldRef := ⟨0x40020200 + 16 * i, 22, 0⟩
abbrev CMNS_CKkDST (i : Nat) : Nat := 0x40020204 + 16 * i
def CMNS_CKkDST_DST (i : Nat) : FieldRef := ⟨0x40020204 + 16 * i, 22, 0⟩
abbrev CMNS_CKkLEN (i : Nat) : Nat := 0x40020208 + 16 * i
def CMNS_CKkLEN_LEN (i : Nat) : FieldRef := ⟨0x40020208 + 16 * i, 15, 0⟩
abbrev CMNS_CKkCMD (i : Nat) : Nat := 0x4002020C + 16 * i
def CMNS_CKkCMD_OP (i : Nat) : FieldRef := ⟨0x4002020C + 16 * i, 1, 0⟩
def CMNS_CKkCMD_BUSY (i : Nat) : FieldRef := ⟨0x4002020C + 16 * i, 4, 4⟩
def CMNS_CKkCMD_ERR (i : Nat) : FieldRef := ⟨0x4002020C + 16 * i, 11, 8⟩
/-! SOLV, spec/07_solver_engine.md R239. -/

abbrev SOLV_CFG : Nat := 0x40030000
def SOLV_CFG_SHORTL : FieldRef := ⟨0x40030000, 1, 0⟩
def SOLV_CFG_CORTHR : FieldRef := ⟨0x40030000, 15, 8⟩
abbrev SOLV_STAT : Nat := 0x40030004
def SOLV_STAT_LQ : FieldRef := ⟨0x40030004, 4, 0⟩
def SOLV_STAT_SQ : FieldRef := ⟨0x40030004, 9, 5⟩
def SOLV_STAT_LRUN : FieldRef := ⟨0x40030004, 10, 10⟩
def SOLV_STAT_LLANES : FieldRef := ⟨0x40030004, 13, 11⟩
def SOLV_STAT_SLANES : FieldRef := ⟨0x40030004, 16, 14⟩
def SOLV_STAT_NLANES : FieldRef := ⟨0x40030004, 19, 17⟩
abbrev SOLV_CANCEL : Nat := 0x40030008
def SOLV_CANCEL_SEQ : FieldRef := ⟨0x40030008, 15, 0⟩
def SOLV_CANCEL_Q : FieldRef := ⟨0x40030008, 16, 16⟩
def SOLV_CANCEL_GO : FieldRef := ⟨0x40030008, 17, 17⟩
abbrev SOLV_STATUS : Nat := 0x4003000C
def SOLV_STATUS_PROB : FieldRef := ⟨0x4003000C, 2, 0⟩
def SOLV_STATUS_REG : FieldRef := ⟨0x4003000C, 3, 3⟩
def SOLV_STATUS_SIGNF : FieldRef := ⟨0x4003000C, 4, 4⟩
def SOLV_STATUS_OVF : FieldRef := ⟨0x4003000C, 5, 5⟩
def SOLV_STATUS_FLAGCNT : FieldRef := ⟨0x4003000C, 31, 8⟩
abbrev SOLV_ECC : Nat := 0x40030010
def SOLV_ECC_COR : FieldRef := ⟨0x40030010, 15, 0⟩
def SOLV_ECC_UNC : FieldRef := ⟨0x40030010, 31, 16⟩
abbrev SOLV_FREEC : Nat := 0x40030014
def SOLV_FREEC_CELLS : FieldRef := ⟨0x40030014, 23, 0⟩
abbrev SOLV_FREES : Nat := 0x40030018
def SOLV_FREES_WORDS : FieldRef := ⟨0x40030018, 21, 0⟩
abbrev SOLV_LANEk (i : Nat) : Nat := 0x40030020 + 4 * i
def SOLV_LANEk_STATE (i : Nat) : FieldRef := ⟨0x40030020 + 4 * i, 1, 0⟩
def SOLV_LANEk_POS (i : Nat) : FieldRef := ⟨0x40030020 + 4 * i, 4, 2⟩
def SOLV_LANEk_FAULT (i : Nat) : FieldRef := ⟨0x40030020 + 4 * i, 5, 5⟩
def SOLV_LANEk_RESID (i : Nat) : FieldRef := ⟨0x40030020 + 4 * i, 15, 8⟩
abbrev SOLV_Pp_STAT (i : Nat) : Nat := 0x40030100 + 64 * i
def SOLV_Pp_STAT_STATE (i : Nat) : FieldRef := ⟨0x40030100 + 64 * i, 2, 0⟩
def SOLV_Pp_STAT_FSTALE (i : Nat) : FieldRef := ⟨0x40030100 + 64 * i, 3, 3⟩
def SOLV_Pp_STAT_REG (i : Nat) : FieldRef := ⟨0x40030100 + 64 * i, 4, 4⟩
def SOLV_Pp_STAT_NW (i : Nat) : FieldRef := ⟨0x40030100 + 64 * i, 6, 5⟩
def SOLV_Pp_STAT_SIGNF (i : Nat) : FieldRef := ⟨0x40030100 + 64 * i, 7, 7⟩
abbrev SOLV_Pp_DIM (i : Nat) : Nat := 0x40030104 + 64 * i
def SOLV_Pp_DIM_NROWS (i : Nat) : FieldRef := ⟨0x40030104 + 64 * i, 18, 0⟩
abbrev SOLV_Pp_CELLS (i : Nat) : Nat := 0x40030108 + 64 * i
def SOLV_Pp_CELLS_CELLS (i : Nat) : FieldRef := ⟨0x40030108 + 64 * i, 23, 0⟩
abbrev SOLV_Pp_SWORDS (i : Nat) : Nat := 0x4003010C + 64 * i
def SOLV_Pp_SWORDS_WORDS (i : Nat) : FieldRef := ⟨0x4003010C + 64 * i, 21, 0⟩
abbrev SOLV_Pp_WREF (i : Nat) : Nat := 0x40030110 + 64 * i
def SOLV_Pp_WREF_W (i : Nat) : FieldRef := ⟨0x40030110 + 64 * i, 31, 0⟩
abbrev SOLV_Pp_DREF (i : Nat) : Nat := 0x40030114 + 64 * i
def SOLV_Pp_DREF_D (i : Nat) : FieldRef := ⟨0x40030114 + 64 * i, 31, 0⟩
abbrev SOLV_Pp_WSOL (i : Nat) : Nat := 0x40030118 + 64 * i
def SOLV_Pp_WSOL_W (i : Nat) : FieldRef := ⟨0x40030118 + 64 * i, 31, 0⟩
abbrev SOLV_Pp_DSOL (i : Nat) : Nat := 0x4003011C + 64 * i
def SOLV_Pp_DSOL_D (i : Nat) : FieldRef := ⟨0x4003011C + 64 * i, 31, 0⟩
abbrev SOLV_Pp_WSPM (i : Nat) : Nat := 0x40030120 + 64 * i
def SOLV_Pp_WSPM_W (i : Nat) : FieldRef := ⟨0x40030120 + 64 * i, 31, 0⟩
abbrev SOLV_Pp_DSPM (i : Nat) : Nat := 0x40030124 + 64 * i
def SOLV_Pp_DSPM_D (i : Nat) : FieldRef := ⟨0x40030124 + 64 * i, 31, 0⟩
abbrev SOLV_Pp_OVF (i : Nat) : Nat := 0x40030128 + 64 * i
def SOLV_Pp_OVF_FIRST (i : Nat) : FieldRef := ⟨0x40030128 + 64 * i, 17, 0⟩
def SOLV_Pp_OVF_CNT (i : Nat) : FieldRef := ⟨0x40030128 + 64 * i, 31, 18⟩
/-! FUSA, spec/06_state_fusion.md R196. -/

abbrev FUSA_CFG : Nat := 0x40040000
def FUSA_CFG_EN : FieldRef := ⟨0x40040000, 0, 0⟩
def FUSA_CFG_LIMIT : FieldRef := ⟨0x40040000, 10, 1⟩
abbrev FUSA_SBASE : Nat := 0x40040004
def FUSA_SBASE_SBASE : FieldRef := ⟨0x40040004, 22, 0⟩
abbrev FUSA_SEAL : Nat := 0x40040008
def FUSA_SEAL_GO : FieldRef := ⟨0x40040008, 0, 0⟩
def FUSA_SEAL_ERR : FieldRef := ⟨0x40040008, 7, 4⟩
abbrev FUSA_GATEA : Nat := 0x4004000C
def FUSA_GATEA_G3 : FieldRef := ⟨0x4004000C, 15, 0⟩
def FUSA_GATEA_G2 : FieldRef := ⟨0x4004000C, 31, 16⟩
abbrev FUSA_GATEB : Nat := 0x40040010
def FUSA_GATEB_G1 : FieldRef := ⟨0x40040010, 15, 0⟩
def FUSA_GATEB_WIDEN : FieldRef := ⟨0x40040010, 23, 16⟩
def FUSA_GATEB_REHAB : FieldRef := ⟨0x40040010, 31, 24⟩
abbrev FUSA_CALR : Nat := 0x40040014
def FUSA_CALR_ORATE : FieldRef := ⟨0x40040014, 7, 0⟩
def FUSA_CALR_GRATE : FieldRef := ⟨0x40040014, 15, 8⟩
abbrev FUSA_STAT : Nat := 0x40040018
def FUSA_STAT_RUN : FieldRef := ⟨0x40040018, 0, 0⟩
def FUSA_STAT_ALIGN : FieldRef := ⟨0x40040018, 1, 1⟩
def FUSA_STAT_RREASON : FieldRef := ⟨0x40040018, 7, 4⟩
def FUSA_STAT_QLEN : FieldRef := ⟨0x40040018, 16, 8⟩
def FUSA_STAT_CTICK : FieldRef := ⟨0x40040018, 26, 17⟩
def FUSA_STAT_BYLIM : FieldRef := ⟨0x40040018, 27, 27⟩
abbrev FUSA_CNTA : Nat := 0x4004001C
def FUSA_CNTA_LATEAPP : FieldRef := ⟨0x4004001C, 15, 0⟩
def FUSA_CNTA_DISC : FieldRef := ⟨0x4004001C, 31, 16⟩
abbrev FUSA_CNTB : Nat := 0x40040020
def FUSA_CNTB_REFUSED : FieldRef := ⟨0x40040020, 15, 0⟩
def FUSA_CNTB_LOVF : FieldRef := ⟨0x40040020, 31, 16⟩
abbrev FUSA_CNTC : Nat := 0x40040024
def FUSA_CNTC_DISPUTES : FieldRef := ⟨0x40040024, 15, 0⟩
def FUSA_CNTC_FALLBACK : FieldRef := ⟨0x40040024, 31, 16⟩
abbrev FUSA_CBUF : Nat := 0x40040028
def FUSA_CBUF_CBUF : FieldRef := ⟨0x40040028, 31, 0⟩
abbrev FUSA_SMP : Nat := 0x40040030
def FUSA_SMP_SAMPLE : FieldRef := ⟨0x40040030, 63, 0⟩
abbrev FUSA_AkDESC (i : Nat) : Nat := 0x40040100 + 16 * i
def FUSA_AkDESC_DESC (i : Nat) : FieldRef := ⟨0x40040100 + 16 * i, 22, 0⟩
abbrev FUSA_AkCMD (i : Nat) : Nat := 0x40040104 + 16 * i
def FUSA_AkCMD_OP (i : Nat) : FieldRef := ⟨0x40040104 + 16 * i, 1, 0⟩
def FUSA_AkCMD_BUSY (i : Nat) : FieldRef := ⟨0x40040104 + 16 * i, 4, 4⟩
def FUSA_AkCMD_ERR (i : Nat) : FieldRef := ⟨0x40040104 + 16 * i, 11, 8⟩
abbrev FUSA_REFr_OFF (i : Nat) : Nat := 0x40044000 + 8 * i
def FUSA_REFr_OFF_OFF (i : Nat) : FieldRef := ⟨0x40044000 + 8 * i, 31, 0⟩
abbrev FUSA_REFr_GAIN (i : Nat) : Nat := 0x40044004 + 8 * i
def FUSA_REFr_GAIN_GAIN (i : Nat) : FieldRef := ⟨0x40044004 + 8 * i, 31, 0⟩
abbrev FUSA_QMg_BASE (i : Nat) : Nat := 0x4004C000 + 16 * i
def FUSA_QMg_BASE_BASE (i : Nat) : FieldRef := ⟨0x4004C000 + 16 * i, 22, 0⟩
abbrev FUSA_QMg_SEAL (i : Nat) : Nat := 0x4004C004 + 16 * i
def FUSA_QMg_SEAL_GO (i : Nat) : FieldRef := ⟨0x4004C004 + 16 * i, 0, 0⟩
def FUSA_QMg_SEAL_BUSY (i : Nat) : FieldRef := ⟨0x4004C004 + 16 * i, 1, 1⟩
def FUSA_QMg_SEAL_SEALED (i : Nat) : FieldRef := ⟨0x4004C004 + 16 * i, 2, 2⟩
def FUSA_QMg_SEAL_ERR (i : Nat) : FieldRef := ⟨0x4004C004 + 16 * i, 7, 4⟩
abbrev FUSA_QMg_EREC (i : Nat) : Nat := 0x4004C008 + 16 * i
def FUSA_QMg_EREC_SECT (i : Nat) : FieldRef := ⟨0x4004C008 + 16 * i, 2, 0⟩
def FUSA_QMg_EREC_REC (i : Nat) : FieldRef := ⟨0x4004C008 + 16 * i, 15, 4⟩
abbrev FUSA_QM_SEL : Nat := 0x4004C020
def FUSA_QM_SEL_ACT : FieldRef := ⟨0x4004C020, 0, 0⟩
def FUSA_QM_SEL_AUTO : FieldRef := ⟨0x4004C020, 1, 1⟩
def FUSA_QM_SEL_SCAN : FieldRef := ⟨0x4004C020, 2, 2⟩
abbrev FUSA_QM_STAT : Nat := 0x4004C024
def FUSA_QM_STAT_ACTG : FieldRef := ⟨0x4004C024, 0, 0⟩
def FUSA_QM_STAT_AVALID : FieldRef := ⟨0x4004C024, 1, 1⟩
def FUSA_QM_STAT_CORRUPT : FieldRef := ⟨0x4004C024, 2, 2⟩
def FUSA_QM_STAT_FREE0 : FieldRef := ⟨0x4004C024, 3, 3⟩
def FUSA_QM_STAT_FREE1 : FieldRef := ⟨0x4004C024, 4, 4⟩
def FUSA_QM_STAT_SWITCHES : FieldRef := ⟨0x4004C024, 31, 16⟩
abbrev FUSA_QM_HOLD : Nat := 0x4004C028
def FUSA_QM_HOLD_HOLD : FieldRef := ⟨0x4004C028, 15, 0⟩
abbrev FUSA_QM_SWTICK : Nat := 0x4004C02C
def FUSA_QM_SWTICK_TICK : FieldRef := ⟨0x4004C02C, 31, 0⟩
/-! LOOP, spec/10_loop_engine.md R309. -/

abbrev LOOP_STAT : Nat := 0x40050000
def LOOP_STAT_NRUN : FieldRef := ⟨0x40050000, 9, 0⟩
def LOOP_STAT_NQ : FieldRef := ⟨0x40050000, 14, 10⟩
def LOOP_STAT_NB : FieldRef := ⟨0x40050000, 18, 15⟩
abbrev LOOP_OREG : Nat := 0x40050004
def LOOP_OREG_OBASE : FieldRef := ⟨0x40050004, 17, 0⟩
def LOOP_OREG_ONUM : FieldRef := ⟨0x40050004, 26, 18⟩
abbrev LOOP_OSEAL : Nat := 0x40050008
def LOOP_OSEAL_GO : FieldRef := ⟨0x40050008, 0, 0⟩
def LOOP_OSEAL_ERR : FieldRef := ⟨0x40050008, 7, 4⟩
abbrev LOOP_CWRA : Nat := 0x4005000C
def LOOP_CWRA_LOOP : FieldRef := ⟨0x4005000C, 8, 0⟩
def LOOP_CWRA_IDX : FieldRef := ⟨0x4005000C, 13, 9⟩
def LOOP_CWRA_SH : FieldRef := ⟨0x4005000C, 18, 14⟩
abbrev LOOP_CWRV : Nat := 0x40050010
def LOOP_CWRV_VALUE : FieldRef := ⟨0x40050010, 31, 0⟩
abbrev LOOP_CWST : Nat := 0x40050014
def LOOP_CWST_REFUSED : FieldRef := ⟨0x40050014, 7, 0⟩
def LOOP_CWST_APPLIED : FieldRef := ⟨0x40050014, 23, 8⟩
abbrev LOOP_BLDA : Nat := 0x40050018
def LOOP_BLDA_LOOP : FieldRef := ⟨0x40050018, 8, 0⟩
def LOOP_BLDA_COMMIT : FieldRef := ⟨0x40050018, 9, 9⟩
abbrev LOOP_BLDADDR : Nat := 0x4005001C
def LOOP_BLDADDR_ADDR : FieldRef := ⟨0x4005001C, 22, 0⟩
abbrev LOOP_BLST : Nat := 0x40050020
def LOOP_BLST_ERR : FieldRef := ⟨0x40050020, 3, 0⟩
def LOOP_BLST_LOOP : FieldRef := ⟨0x40050020, 12, 4⟩
def LOOP_BLST_REFUSED : FieldRef := ⟨0x40050020, 23, 16⟩
abbrev LOOP_RPENDw (i : Nat) : Nat := 0x40050040 + 4 * i
def LOOP_RPENDw_RPEND (i : Nat) : FieldRef := ⟨0x40050040 + 4 * i, 31, 0⟩
abbrev LOOP_INJk_CFG (i : Nat) : Nat := 0x40050400 + 32 * i
def LOOP_INJk_CFG_LOOP (i : Nat) : FieldRef := ⟨0x40050400 + 32 * i, 8, 0⟩
def LOOP_INJk_CFG_POINT (i : Nat) : FieldRef := ⟨0x40050400 + 32 * i, 9, 9⟩
def LOOP_INJk_CFG_WAVE (i : Nat) : FieldRef := ⟨0x40050400 + 32 * i, 11, 10⟩
def LOOP_INJk_CFG_PRBSN (i : Nat) : FieldRef := ⟨0x40050400 + 32 * i, 13, 12⟩
def LOOP_INJk_CFG_HOLD (i : Nat) : FieldRef := ⟨0x40050400 + 32 * i, 21, 14⟩
def LOOP_INJk_CFG_NHM1 (i : Nat) : FieldRef := ⟨0x40050400 + 32 * i, 24, 22⟩
def LOOP_INJk_CFG_TRIGCAP (i : Nat) : FieldRef := ⟨0x40050400 + 32 * i, 25, 25⟩
abbrev LOOP_INJk_AMP (i : Nat) : Nat := 0x40050404 + 32 * i
def LOOP_INJk_AMP_AMP (i : Nat) : FieldRef := ⟨0x40050404 + 32 * i, 31, 0⟩
abbrev LOOP_INJk_F0 (i : Nat) : Nat := 0x40050408 + 32 * i
def LOOP_INJk_F0_F0 (i : Nat) : FieldRef := ⟨0x40050408 + 32 * i, 31, 0⟩
abbrev LOOP_INJk_F1 (i : Nat) : Nat := 0x4005040C + 32 * i
def LOOP_INJk_F1_F1 (i : Nat) : FieldRef := ⟨0x4005040C + 32 * i, 31, 0⟩
abbrev LOOP_INJk_LEN (i : Nat) : Nat := 0x40050410 + 32 * i
def LOOP_INJk_LEN_LEN (i : Nat) : FieldRef := ⟨0x40050410 + 32 * i, 23, 0⟩
abbrev LOOP_INJk_SEAL (i : Nat) : Nat := 0x40050414 + 32 * i
def LOOP_INJk_SEAL_GO (i : Nat) : FieldRef := ⟨0x40050414 + 32 * i, 0, 0⟩
def LOOP_INJk_SEAL_ERR (i : Nat) : FieldRef := ⟨0x40050414 + 32 * i, 7, 4⟩
abbrev LOOP_INJk_CTRL (i : Nat) : Nat := 0x40050418 + 32 * i
def LOOP_INJk_CTRL_START (i : Nat) : FieldRef := ⟨0x40050418 + 32 * i, 0, 0⟩
def LOOP_INJk_CTRL_STOP (i : Nat) : FieldRef := ⟨0x40050418 + 32 * i, 1, 1⟩
abbrev LOOP_INJk_STAT (i : Nat) : Nat := 0x4005041C + 32 * i
def LOOP_INJk_STAT_ACT (i : Nat) : FieldRef := ⟨0x4005041C + 32 * i, 0, 0⟩
def LOOP_INJk_STAT_END (i : Nat) : FieldRef := ⟨0x4005041C + 32 * i, 2, 1⟩
def LOOP_INJk_STAT_J (i : Nat) : FieldRef := ⟨0x4005041C + 32 * i, 31, 8⟩
abbrev LOOP_CAPBASE : Nat := 0x40050600
def LOOP_CAPBASE_BASE : FieldRef := ⟨0x40050600, 22, 0⟩
abbrev LOOP_CAPCFG : Nat := 0x40050604
def LOOP_CAPCFG_NSAMP : FieldRef := ⟨0x40050604, 16, 0⟩
def LOOP_CAPCFG_NN : FieldRef := ⟨0x40050604, 18, 17⟩
def LOOP_CAPCFG_RING : FieldRef := ⟨0x40050604, 19, 19⟩
def LOOP_CAPCFG_PACE : FieldRef := ⟨0x40050604, 28, 20⟩
abbrev LOOP_CAPNODEi (i : Nat) : Nat := 0x40050608 + 4 * i
def LOOP_CAPNODEi_LOOP (i : Nat) : FieldRef := ⟨0x40050608 + 4 * i, 8, 0⟩
def LOOP_CAPNODEi_NODE (i : Nat) : FieldRef := ⟨0x40050608 + 4 * i, 12, 9⟩
abbrev LOOP_CAPSEAL : Nat := 0x40050618
def LOOP_CAPSEAL_GO : FieldRef := ⟨0x40050618, 0, 0⟩
def LOOP_CAPSEAL_ERR : FieldRef := ⟨0x40050618, 7, 4⟩
abbrev LOOP_CAPCTRL : Nat := 0x4005061C
def LOOP_CAPCTRL_START : FieldRef := ⟨0x4005061C, 0, 0⟩
def LOOP_CAPCTRL_STOP : FieldRef := ⟨0x4005061C, 1, 1⟩
abbrev LOOP_CAPSTAT : Nat := 0x40050620
def LOOP_CAPSTAT_ACT : FieldRef := ⟨0x40050620, 0, 0⟩
def LOOP_CAPSTAT_WRAP : FieldRef := ⟨0x40050620, 1, 1⟩
def LOOP_CAPSTAT_N : FieldRef := ⟨0x40050620, 18, 2⟩
abbrev LOOP_nDESC (i : Nat) : Nat := 0x40058000 + 64 * i
def LOOP_nDESC_ADDR (i : Nat) : FieldRef := ⟨0x40058000 + 64 * i, 22, 0⟩
abbrev LOOP_nSEAL (i : Nat) : Nat := 0x40058004 + 64 * i
def LOOP_nSEAL_GO (i : Nat) : FieldRef := ⟨0x40058004 + 64 * i, 0, 0⟩
def LOOP_nSEAL_BUSY (i : Nat) : FieldRef := ⟨0x40058004 + 64 * i, 1, 1⟩
def LOOP_nSEAL_SEALED (i : Nat) : FieldRef := ⟨0x40058004 + 64 * i, 2, 2⟩
def LOOP_nSEAL_ERR (i : Nat) : FieldRef := ⟨0x40058004 + 64 * i, 7, 4⟩
abbrev LOOP_nCTRL (i : Nat) : Nat := 0x40058008 + 64 * i
def LOOP_nCTRL_EN (i : Nat) : FieldRef := ⟨0x40058008 + 64 * i, 0, 0⟩
def LOOP_nCTRL_RACK (i : Nat) : FieldRef := ⟨0x40058008 + 64 * i, 1, 1⟩
abbrev LOOP_nMODE (i : Nat) : Nat := 0x4005800C + 64 * i
def LOOP_nMODE_MODE (i : Nat) : FieldRef := ⟨0x4005800C + 64 * i, 0, 0⟩
abbrev LOOP_nSP (i : Nat) : Nat := 0x40058010 + 64 * i
def LOOP_nSP_SP (i : Nat) : FieldRef := ⟨0x40058010 + 64 * i, 31, 0⟩
abbrev LOOP_nMANOUT (i : Nat) : Nat := 0x40058014 + 64 * i
def LOOP_nMANOUT_MANOUT (i : Nat) : FieldRef := ⟨0x40058014 + 64 * i, 31, 0⟩
abbrev LOOP_nBANK (i : Nat) : Nat := 0x40058018 + 64 * i
def LOOP_nBANK_COMMIT (i : Nat) : FieldRef := ⟨0x40058018 + 64 * i, 0, 0⟩
def LOOP_nBANK_PEND (i : Nat) : FieldRef := ⟨0x40058018 + 64 * i, 1, 1⟩
def LOOP_nBANK_DIRTY (i : Nat) : FieldRef := ⟨0x40058018 + 64 * i, 2, 2⟩
abbrev LOOP_nSTAT (i : Nat) : Nat := 0x4005801C + 64 * i
def LOOP_nSTAT_RUN (i : Nat) : FieldRef := ⟨0x4005801C + 64 * i, 0, 0⟩
def LOOP_nSTAT_TRACK (i : Nat) : FieldRef := ⟨0x4005801C + 64 * i, 1, 1⟩
def LOOP_nSTAT_CASC (i : Nat) : FieldRef := ⟨0x4005801C + 64 * i, 2, 2⟩
def LOOP_nSTAT_CASLOST (i : Nat) : FieldRef := ⟨0x4005801C + 64 * i, 3, 3⟩
def LOOP_nSTAT_REACT (i : Nat) : FieldRef := ⟨0x4005801C + 64 * i, 5, 4⟩
def LOOP_nSTAT_OUTB (i : Nat) : FieldRef := ⟨0x4005801C + 64 * i, 6, 6⟩
def LOOP_nSTAT_SUSP (i : Nat) : FieldRef := ⟨0x4005801C + 64 * i, 7, 7⟩
def LOOP_nSTAT_DCLAMP (i : Nat) : FieldRef := ⟨0x4005801C + 64 * i, 8, 8⟩
def LOOP_nSTAT_FBLOSS (i : Nat) : FieldRef := ⟨0x4005801C + 64 * i, 9, 9⟩
def LOOP_nSTAT_SAT (i : Nat) : FieldRef := ⟨0x4005801C + 64 * i, 10, 10⟩
def LOOP_nSTAT_FORCED (i : Nat) : FieldRef := ⟨0x4005801C + 64 * i, 11, 11⟩
def LOOP_nSTAT_INJ (i : Nat) : FieldRef := ⟨0x4005801C + 64 * i, 12, 12⟩
abbrev LOOP_nOUT (i : Nat) : Nat := 0x40058020 + 64 * i
def LOOP_nOUT_OUT (i : Nat) : FieldRef := ⟨0x40058020 + 64 * i, 31, 0⟩
abbrev LOOP_nYUSE (i : Nat) : Nat := 0x40058024 + 64 * i
def LOOP_nYUSE_YUSE (i : Nat) : FieldRef := ⟨0x40058024 + 64 * i, 31, 0⟩
abbrev LOOP_nRSP (i : Nat) : Nat := 0x40058028 + 64 * i
def LOOP_nRSP_RSP (i : Nat) : FieldRef := ⟨0x40058028 + 64 * i, 31, 0⟩
abbrev LOOP_nRES (i : Nat) : Nat := 0x4005802C + 64 * i
def LOOP_nRES_RES (i : Nat) : FieldRef := ⟨0x4005802C + 64 * i, 31, 0⟩
abbrev LOOP_nCNT (i : Nat) : Nat := 0x40058030 + 64 * i
def LOOP_nCNT_REACTS (i : Nat) : FieldRef := ⟨0x40058030 + 64 * i, 7, 0⟩
def LOOP_nCNT_SATS (i : Nat) : FieldRef := ⟨0x40058030 + 64 * i, 23, 8⟩
def LOOP_nCNT_FBL (i : Nat) : FieldRef := ⟨0x40058030 + 64 * i, 31, 24⟩
/-! AXIS, spec/11_valve_axes.md R327. -/

abbrev AXIS_ENCe_POS (i : Nat) : Nat := 0x40060000 + 16 * i
def AXIS_ENCe_POS_COUNT (i : Nat) : FieldRef := ⟨0x40060000 + 16 * i, 31, 0⟩
abbrev AXIS_ENCe_STAT (i : Nat) : Nat := 0x40060004 + 16 * i
def AXIS_ENCe_STAT_QERR (i : Nat) : FieldRef := ⟨0x40060004 + 16 * i, 15, 0⟩
abbrev AXIS_aCFG (i : Nat) : Nat := 0x40060100 + 128 * i
def AXIS_aCFG_TSRC (i : Nat) : FieldRef := ⟨0x40060100 + 128 * i, 1, 0⟩
def AXIS_aCFG_MRES (i : Nat) : FieldRef := ⟨0x40060100 + 128 * i, 5, 2⟩
def AXIS_aCFG_ENC (i : Nat) : FieldRef := ⟨0x40060100 + 128 * i, 7, 6⟩
def AXIS_aCFG_SAFEMODE (i : Nat) : FieldRef := ⟨0x40060100 + 128 * i, 9, 8⟩
def AXIS_aCFG_PIN (i : Nat) : FieldRef := ⟨0x40060100 + 128 * i, 14, 10⟩
def AXIS_aCFG_DIN (i : Nat) : FieldRef := ⟨0x40060100 + 128 * i, 20, 15⟩
def AXIS_aCFG_SSIZE (i : Nat) : FieldRef := ⟨0x40060100 + 128 * i, 29, 21⟩
def AXIS_aCFG_DIRINV (i : Nat) : FieldRef := ⟨0x40060100 + 128 * i, 30, 30⟩
abbrev AXIS_aCHOP (i : Nat) : Nat := 0x40060104 + 128 * i
def AXIS_aCHOP_TOFF (i : Nat) : FieldRef := ⟨0x40060104 + 128 * i, 7, 0⟩
def AXIS_aCHOP_TBLANK (i : Nat) : FieldRef := ⟨0x40060104 + 128 * i, 13, 8⟩
def AXIS_aCHOP_FASTF (i : Nat) : FieldRef := ⟨0x40060104 + 128 * i, 17, 14⟩
def AXIS_aCHOP_TONMAX (i : Nat) : FieldRef := ⟨0x40060104 + 128 * i, 25, 18⟩
abbrev AXIS_aSEAL (i : Nat) : Nat := 0x40060108 + 128 * i
def AXIS_aSEAL_GO (i : Nat) : FieldRef := ⟨0x40060108 + 128 * i, 0, 0⟩
def AXIS_aSEAL_ERR (i : Nat) : FieldRef := ⟨0x40060108 + 128 * i, 7, 4⟩
abbrev AXIS_aCTRL (i : Nat) : Nat := 0x4006010C + 128 * i
def AXIS_aCTRL_EN (i : Nat) : FieldRef := ⟨0x4006010C + 128 * i, 0, 0⟩
def AXIS_aCTRL_CLR (i : Nat) : FieldRef := ⟨0x4006010C + 128 * i, 1, 1⟩
def AXIS_aCTRL_COMMIT (i : Nat) : FieldRef := ⟨0x4006010C + 128 * i, 2, 2⟩
abbrev AXIS_aTGT (i : Nat) : Nat := 0x40060110 + 128 * i
def AXIS_aTGT_TGT (i : Nat) : FieldRef := ⟨0x40060110 + 128 * i, 31, 0⟩
abbrev AXIS_aSETP (i : Nat) : Nat := 0x40060114 + 128 * i
def AXIS_aSETP_SETP (i : Nat) : FieldRef := ⟨0x40060114 + 128 * i, 31, 0⟩
abbrev AXIS_aSAFETGT (i : Nat) : Nat := 0x40060118 + 128 * i
def AXIS_aSAFETGT_SAFETGT (i : Nat) : FieldRef := ⟨0x40060118 + 128 * i, 31, 0⟩
abbrev AXIS_aVEL (i : Nat) : Nat := 0x4006011C + 128 * i
def AXIS_aVEL_VMAX (i : Nat) : FieldRef := ⟨0x4006011C + 128 * i, 15, 0⟩
def AXIS_aVEL_AMAX (i : Nat) : FieldRef := ⟨0x4006011C + 128 * i, 31, 16⟩
abbrev AXIS_aCUR (i : Nat) : Nat := 0x40060120 + 128 * i
def AXIS_aCUR_IHOLD (i : Nat) : FieldRef := ⟨0x40060120 + 128 * i, 7, 0⟩
def AXIS_aCUR_IRUN (i : Nat) : FieldRef := ⟨0x40060120 + 128 * i, 15, 8⟩
def AXIS_aCUR_IMAX (i : Nat) : FieldRef := ⟨0x40060120 + 128 * i, 23, 16⟩
def AXIS_aCUR_ISTEP (i : Nat) : FieldRef := ⟨0x40060120 + 128 * i, 31, 24⟩
abbrev AXIS_aLOAD (i : Nat) : Nat := 0x40060124 + 128 * i
def AXIS_aLOAD_LALO (i : Nat) : FieldRef := ⟨0x40060124 + 128 * i, 7, 0⟩
def AXIS_aLOAD_LAHI (i : Nat) : FieldRef := ⟨0x40060124 + 128 * i, 15, 8⟩
def AXIS_aLOAD_STALLN (i : Nat) : FieldRef := ⟨0x40060124 + 128 * i, 23, 16⟩
def AXIS_aLOAD_HOLDDLY (i : Nat) : FieldRef := ⟨0x40060124 + 128 * i, 31, 24⟩
abbrev AXIS_aSLO (i : Nat) : Nat := 0x40060128 + 128 * i
def AXIS_aSLO_SLO (i : Nat) : FieldRef := ⟨0x40060128 + 128 * i, 31, 0⟩
abbrev AXIS_aSHI (i : Nat) : Nat := 0x4006012C + 128 * i
def AXIS_aSHI_SHI (i : Nat) : FieldRef := ⟨0x4006012C + 128 * i, 31, 0⟩
abbrev AXIS_aGR1 (i : Nat) : Nat := 0x40060130 + 128 * i
def AXIS_aGR1_GR1 (i : Nat) : FieldRef := ⟨0x40060130 + 128 * i, 31, 0⟩
abbrev AXIS_aGR2 (i : Nat) : Nat := 0x40060134 + 128 * i
def AXIS_aGR2_GR2 (i : Nat) : FieldRef := ⟨0x40060134 + 128 * i, 31, 0⟩
abbrev AXIS_aGMPOS (i : Nat) : Nat := 0x40060138 + 128 * i
def AXIS_aGMPOS_GMPOS (i : Nat) : FieldRef := ⟨0x40060138 + 128 * i, 31, 0⟩
abbrev AXIS_aGOFF (i : Nat) : Nat := 0x4006013C + 128 * i
def AXIS_aGOFF_GOFF (i : Nat) : FieldRef := ⟨0x4006013C + 128 * i, 31, 0⟩
abbrev AXIS_aPOS (i : Nat) : Nat := 0x40060140 + 128 * i
def AXIS_aPOS_POS (i : Nat) : FieldRef := ⟨0x40060140 + 128 * i, 31, 0⟩
abbrev AXIS_aSTAT (i : Nat) : Nat := 0x40060144 + 128 * i
def AXIS_aSTAT_MOVING (i : Nat) : FieldRef := ⟨0x40060144 + 128 * i, 0, 0⟩
def AXIS_aSTAT_HOMED (i : Nat) : FieldRef := ⟨0x40060144 + 128 * i, 1, 1⟩
def AXIS_aSTAT_FORCED (i : Nat) : FieldRef := ⟨0x40060144 + 128 * i, 2, 2⟩
def AXIS_aSTAT_STALL (i : Nat) : FieldRef := ⟨0x40060144 + 128 * i, 3, 3⟩
def AXIS_aSTAT_FAULT (i : Nat) : FieldRef := ⟨0x40060144 + 128 * i, 4, 4⟩
def AXIS_aSTAT_LIMLO (i : Nat) : FieldRef := ⟨0x40060144 + 128 * i, 5, 5⟩
def AXIS_aSTAT_LIMHI (i : Nat) : FieldRef := ⟨0x40060144 + 128 * i, 6, 6⟩
def AXIS_aSTAT_GATED (i : Nat) : FieldRef := ⟨0x40060144 + 128 * i, 7, 7⟩
def AXIS_aSTAT_FCODE (i : Nat) : FieldRef := ⟨0x40060144 + 128 * i, 10, 8⟩
def AXIS_aSTAT_LA (i : Nat) : FieldRef := ⟨0x40060144 + 128 * i, 23, 16⟩
def AXIS_aSTAT_ICUR (i : Nat) : FieldRef := ⟨0x40060144 + 128 * i, 31, 24⟩
abbrev AXIS_aEVC (i : Nat) : Nat := 0x40060148 + 128 * i
def AXIS_aEVC_STALLE (i : Nat) : FieldRef := ⟨0x40060148 + 128 * i, 0, 0⟩
def AXIS_aEVC_FAULTE (i : Nat) : FieldRef := ⟨0x40060148 + 128 * i, 1, 1⟩
def AXIS_aEVC_LIMLOE (i : Nat) : FieldRef := ⟨0x40060148 + 128 * i, 2, 2⟩
def AXIS_aEVC_LIMHIE (i : Nat) : FieldRef := ⟨0x40060148 + 128 * i, 3, 3⟩
def AXIS_aEVC_FORCEE (i : Nat) : FieldRef := ⟨0x40060148 + 128 * i, 4, 4⟩
def AXIS_aEVC_SEALE (i : Nat) : FieldRef := ⟨0x40060148 + 128 * i, 5, 5⟩
abbrev AXIS_aCNT (i : Nat) : Nat := 0x4006014C + 128 * i
def AXIS_aCNT_STALLS (i : Nat) : FieldRef := ⟨0x4006014C + 128 * i, 7, 0⟩
def AXIS_aCNT_FAULTS (i : Nat) : FieldRef := ⟨0x4006014C + 128 * i, 15, 8⟩
def AXIS_aCNT_LIMS (i : Nat) : FieldRef := ⟨0x4006014C + 128 * i, 23, 16⟩
/-! CANB, spec/13_substation_bus.md R374. -/

abbrev CANB_ECC : Nat := 0x40070000
def CANB_ECC_COR : FieldRef := ⟨0x40070000, 15, 0⟩
def CANB_ECC_UNC : FieldRef := ⟨0x40070000, 31, 16⟩
abbrev CANB_ECCADDR : Nat := 0x40070004
def CANB_ECCADDR_OFF : FieldRef := ⟨0x40070004, 19, 0⟩
abbrev CANB_cCFG (i : Nat) : Nat := 0x40071000 + 1024 * i
def CANB_cCFG_FD (i : Nat) : FieldRef := ⟨0x40071000 + 1024 * i, 0, 0⟩
def CANB_cCFG_LOM (i : Nat) : FieldRef := ⟨0x40071000 + 1024 * i, 1, 1⟩
def CANB_cCFG_FNUM (i : Nat) : FieldRef := ⟨0x40071000 + 1024 * i, 29, 16⟩
abbrev CANB_cNBT (i : Nat) : Nat := 0x40071004 + 1024 * i
def CANB_cNBT_NBRP (i : Nat) : FieldRef := ⟨0x40071004 + 1024 * i, 8, 0⟩
def CANB_cNBT_NTSEG1 (i : Nat) : FieldRef := ⟨0x40071004 + 1024 * i, 16, 9⟩
def CANB_cNBT_NTSEG2 (i : Nat) : FieldRef := ⟨0x40071004 + 1024 * i, 23, 17⟩
def CANB_cNBT_NSJW (i : Nat) : FieldRef := ⟨0x40071004 + 1024 * i, 30, 24⟩
abbrev CANB_cDBT (i : Nat) : Nat := 0x40071008 + 1024 * i
def CANB_cDBT_DBRP (i : Nat) : FieldRef := ⟨0x40071008 + 1024 * i, 4, 0⟩
def CANB_cDBT_DTSEG1 (i : Nat) : FieldRef := ⟨0x40071008 + 1024 * i, 9, 5⟩
def CANB_cDBT_DTSEG2 (i : Nat) : FieldRef := ⟨0x40071008 + 1024 * i, 13, 10⟩
def CANB_cDBT_DSJW (i : Nat) : FieldRef := ⟨0x40071008 + 1024 * i, 17, 14⟩
def CANB_cDBT_TDC (i : Nat) : FieldRef := ⟨0x40071008 + 1024 * i, 18, 18⟩
def CANB_cDBT_TDCO (i : Nat) : FieldRef := ⟨0x40071008 + 1024 * i, 25, 19⟩
abbrev CANB_cOBJ (i : Nat) : Nat := 0x4007100C + 1024 * i
def CANB_cOBJ_OBASE (i : Nat) : FieldRef := ⟨0x4007100C + 1024 * i, 12, 0⟩
def CANB_cOBJ_ONUM (i : Nat) : FieldRef := ⟨0x4007100C + 1024 * i, 26, 13⟩
abbrev CANB_cFTAB (i : Nat) : Nat := 0x40071010 + 1024 * i
def CANB_cFTAB_ADDR (i : Nat) : FieldRef := ⟨0x40071010 + 1024 * i, 22, 0⟩
abbrev CANB_cSEAL (i : Nat) : Nat := 0x40071014 + 1024 * i
def CANB_cSEAL_GO (i : Nat) : FieldRef := ⟨0x40071014 + 1024 * i, 0, 0⟩
def CANB_cSEAL_BUSY (i : Nat) : FieldRef := ⟨0x40071014 + 1024 * i, 1, 1⟩
def CANB_cSEAL_SEALED (i : Nat) : FieldRef := ⟨0x40071014 + 1024 * i, 2, 2⟩
def CANB_cSEAL_ERR (i : Nat) : FieldRef := ⟨0x40071014 + 1024 * i, 7, 4⟩
abbrev CANB_cCTRL (i : Nat) : Nat := 0x40071018 + 1024 * i
def CANB_cCTRL_EN (i : Nat) : FieldRef := ⟨0x40071018 + 1024 * i, 0, 0⟩
def CANB_cCTRL_HOLD (i : Nat) : FieldRef := ⟨0x40071018 + 1024 * i, 1, 1⟩
def CANB_cCTRL_RECOV (i : Nat) : FieldRef := ⟨0x40071018 + 1024 * i, 2, 2⟩
abbrev CANB_cTXREQ (i : Nat) : Nat := 0x4007101C + 1024 * i
def CANB_cTXREQ_OBJ (i : Nat) : FieldRef := ⟨0x4007101C + 1024 * i, 12, 0⟩
def CANB_cTXREQ_SEAL (i : Nat) : FieldRef := ⟨0x4007101C + 1024 * i, 13, 13⟩
abbrev CANB_cTXCAN (i : Nat) : Nat := 0x40071020 + 1024 * i
def CANB_cTXCAN_OBJ (i : Nat) : FieldRef := ⟨0x40071020 + 1024 * i, 12, 0⟩
abbrev CANB_cSTAT (i : Nat) : Nat := 0x40071024 + 1024 * i
def CANB_cSTAT_STATE (i : Nat) : FieldRef := ⟨0x40071024 + 1024 * i, 1, 0⟩
def CANB_cSTAT_HELD (i : Nat) : FieldRef := ⟨0x40071024 + 1024 * i, 2, 2⟩
def CANB_cSTAT_RUN (i : Nat) : FieldRef := ⟨0x40071024 + 1024 * i, 3, 3⟩
def CANB_cSTAT_TXERR (i : Nat) : FieldRef := ⟨0x40071024 + 1024 * i, 7, 4⟩
def CANB_cSTAT_TEC (i : Nat) : FieldRef := ⟨0x40071024 + 1024 * i, 15, 8⟩
def CANB_cSTAT_REC (i : Nat) : FieldRef := ⟨0x40071024 + 1024 * i, 22, 16⟩
def CANB_cSTAT_RP (i : Nat) : FieldRef := ⟨0x40071024 + 1024 * i, 23, 23⟩
abbrev CANB_cCNTA (i : Nat) : Nat := 0x40071028 + 1024 * i
def CANB_cCNTA_RXOK (i : Nat) : FieldRef := ⟨0x40071028 + 1024 * i, 15, 0⟩
def CANB_cCNTA_TXOK (i : Nat) : FieldRef := ⟨0x40071028 + 1024 * i, 31, 16⟩
abbrev CANB_cCNTB (i : Nat) : Nat := 0x4007102C + 1024 * i
def CANB_cCNTB_CRCERR (i : Nat) : FieldRef := ⟨0x4007102C + 1024 * i, 7, 0⟩
def CANB_cCNTB_OTHERR (i : Nat) : FieldRef := ⟨0x4007102C + 1024 * i, 15, 8⟩
def CANB_cCNTB_NOMATCH (i : Nat) : FieldRef := ⟨0x4007102C + 1024 * i, 23, 16⟩
def CANB_cCNTB_LOSTC (i : Nat) : FieldRef := ⟨0x4007102C + 1024 * i, 31, 24⟩
abbrev CANB_cBOREC (i : Nat) : Nat := 0x40071030 + 1024 * i
def CANB_cBOREC_WAIT (i : Nat) : FieldRef := ⟨0x40071030 + 1024 * i, 15, 0⟩
def CANB_cBOREC_OBJ (i : Nat) : FieldRef := ⟨0x40071030 + 1024 * i, 28, 16⟩
abbrev CANB_cBODUR (i : Nat) : Nat := 0x40071034 + 1024 * i
def CANB_cBODUR_DUR (i : Nat) : FieldRef := ⟨0x40071034 + 1024 * i, 31, 0⟩
abbrev CANB_cEVC (i : Nat) : Nat := 0x40071038 + 1024 * i
def CANB_cEVC_BOFFE (i : Nat) : FieldRef := ⟨0x40071038 + 1024 * i, 0, 0⟩
def CANB_cEVC_BRECE (i : Nat) : FieldRef := ⟨0x40071038 + 1024 * i, 1, 1⟩
def CANB_cEVC_EPASSE (i : Nat) : FieldRef := ⟨0x40071038 + 1024 * i, 2, 2⟩
def CANB_cEVC_TXREFE (i : Nat) : FieldRef := ⟨0x40071038 + 1024 * i, 3, 3⟩
def CANB_cEVC_EXITE (i : Nat) : FieldRef := ⟨0x40071038 + 1024 * i, 4, 4⟩
def CANB_cEVC_SEALD (i : Nat) : FieldRef := ⟨0x40071038 + 1024 * i, 5, 5⟩
def CANB_cEVC_ECCE (i : Nat) : FieldRef := ⟨0x40071038 + 1024 * i, 6, 6⟩
def CANB_cEVC_SEALR (i : Nat) : FieldRef := ⟨0x40071038 + 1024 * i, 7, 7⟩
def CANB_cEVC_DROPE (i : Nat) : FieldRef := ⟨0x40071038 + 1024 * i, 8, 8⟩
def CANB_cEVC_RETE (i : Nat) : FieldRef := ⟨0x40071038 + 1024 * i, 9, 9⟩
abbrev CANB_cCNTC (i : Nat) : Nat := 0x4007103C + 1024 * i
def CANB_cCNTC_TXREF (i : Nat) : FieldRef := ⟨0x4007103C + 1024 * i, 7, 0⟩
def CANB_cCNTC_EXITF (i : Nat) : FieldRef := ⟨0x4007103C + 1024 * i, 15, 8⟩
def CANB_cCNTC_BOFF (i : Nat) : FieldRef := ⟨0x4007103C + 1024 * i, 23, 16⟩
def CANB_cCNTC_REMOTE (i : Nat) : FieldRef := ⟨0x4007103C + 1024 * i, 31, 24⟩
abbrev CANB_cDROPL (i : Nat) : Nat := 0x40071040 + 1024 * i
def CANB_cDROPL_DROP (i : Nat) : FieldRef := ⟨0x40071040 + 1024 * i, 31, 0⟩
abbrev CANB_cDROPH (i : Nat) : Nat := 0x40071044 + 1024 * i
def CANB_cDROPH_DROP (i : Nat) : FieldRef := ⟨0x40071044 + 1024 * i, 31, 0⟩
abbrev CANB_cDCNTw (i j : Nat) : Nat := 0x40071080 + 1024 * i + 4 * j
def CANB_cDCNTw_DCNT (i j : Nat) : FieldRef := ⟨0x40071080 + 1024 * i + 4 * j, 31, 0⟩
abbrev CANB_cSTAs (i j : Nat) : Nat := 0x40071100 + 1024 * i + 4 * j
def CANB_cSTAs_WOBJ (i j : Nat) : FieldRef := ⟨0x40071100 + 1024 * i + 4 * j, 12, 0⟩
def CANB_cSTAs_TMO (i j : Nat) : FieldRef := ⟨0x40071100 + 1024 * i + 4 * j, 28, 13⟩
def CANB_cSTAs_CMODE (i j : Nat) : FieldRef := ⟨0x40071100 + 1024 * i + 4 * j, 29, 29⟩
def CANB_cSTAs_USED (i j : Nat) : FieldRef := ⟨0x40071100 + 1024 * i + 4 * j, 30, 30⟩
/-! METR, spec/14_metering.md R404. -/

abbrev METR_CTRL : Nat := 0x40080000
def METR_CTRL_EN : FieldRef := ⟨0x40080000, 0, 0⟩
def METR_CTRL_SAVEN : FieldRef := ⟨0x40080000, 1, 1⟩
def METR_CTRL_RESTORE : FieldRef := ⟨0x40080000, 2, 2⟩
def METR_CTRL_ZERO : FieldRef := ⟨0x40080000, 3, 3⟩
abbrev METR_STAT : Nat := 0x40080004
def METR_STAT_RUN : FieldRef := ⟨0x40080004, 0, 0⟩
def METR_STAT_RSTAT : FieldRef := ⟨0x40080004, 3, 1⟩
def METR_STAT_RBUSY : FieldRef := ⟨0x40080004, 4, 4⟩
abbrev METR_PBASE : Nat := 0x40080008
def METR_PBASE_PBASE : FieldRef := ⟨0x40080008, 17, 0⟩
abbrev METR_SBASE : Nat := 0x4008000C
def METR_SBASE_SBASE : FieldRef := ⟨0x4008000C, 23, 0⟩
abbrev METR_SEAL : Nat := 0x40080010
def METR_SEAL_GO : FieldRef := ⟨0x40080010, 0, 0⟩
def METR_SEAL_ERR : FieldRef := ⟨0x40080010, 7, 4⟩
abbrev METR_SVST : Nat := 0x40080014
def METR_SVST_SBUSY : FieldRef := ⟨0x40080014, 0, 0⟩
def METR_SVST_SFAIL : FieldRef := ⟨0x40080014, 1, 1⟩
def METR_SVST_SKIP : FieldRef := ⟨0x40080014, 15, 8⟩
abbrev METR_SVGEN : Nat := 0x40080018
def METR_SVGEN_GEN : FieldRef := ⟨0x40080018, 31, 0⟩
abbrev METR_MODF : Nat := 0x4008001C
def METR_MODF_MODF : FieldRef := ⟨0x4008001C, 31, 0⟩
abbrev METR_EFRAC : Nat := 0x40080020
def METR_EFRAC_FRAC : FieldRef := ⟨0x40080020, 31, 0⟩
abbrev METR_POEN : Nat := 0x40080024
def METR_POEN_EN : FieldRef := ⟨0x40080024, 15, 0⟩
abbrev METR_POEVC : Nat := 0x40080028
def METR_POEVC_PO : FieldRef := ⟨0x40080028, 15, 0⟩
abbrev METR_GgCFG (i : Nat) : Nat := 0x40080100 + 512 * i
def METR_GgCFG_NWIN (i : Nat) : FieldRef := ⟨0x40080100 + 512 * i, 9, 0⟩
def METR_GgCFG_ISTART (i : Nat) : FieldRef := ⟨0x40080100 + 512 * i, 16, 10⟩
def METR_GgCFG_MDLY (i : Nat) : FieldRef := ⟨0x40080100 + 512 * i, 22, 17⟩
abbrev METR_GgINOM (i : Nat) : Nat := 0x40080104 + 512 * i
def METR_GgINOM_INOM (i : Nat) : FieldRef := ⟨0x40080104 + 512 * i, 23, 0⟩
abbrev METR_GgSEAL (i : Nat) : Nat := 0x40080108 + 512 * i
def METR_GgSEAL_GO (i : Nat) : FieldRef := ⟨0x40080108 + 512 * i, 0, 0⟩
def METR_GgSEAL_ERR (i : Nat) : FieldRef := ⟨0x40080108 + 512 * i, 7, 4⟩
abbrev METR_GgCTRL (i : Nat) : Nat := 0x4008010C + 512 * i
def METR_GgCTRL_EN (i : Nat) : FieldRef := ⟨0x4008010C + 512 * i, 0, 0⟩
def METR_GgCTRL_COMMIT (i : Nat) : FieldRef := ⟨0x4008010C + 512 * i, 1, 1⟩
abbrev METR_GgSTAT (i : Nat) : Nat := 0x40080110 + 512 * i
def METR_GgSTAT_RUN (i : Nat) : FieldRef := ⟨0x40080110 + 512 * i, 0, 0⟩
def METR_GgSTAT_PEND (i : Nat) : FieldRef := ⟨0x40080110 + 512 * i, 1, 1⟩
def METR_GgSTAT_CREEP (i : Nat) : FieldRef := ⟨0x40080110 + 512 * i, 4, 2⟩
def METR_GgSTAT_INF (i : Nat) : FieldRef := ⟨0x40080110 + 512 * i, 5, 5⟩
abbrev METR_GgEVC (i : Nat) : Nat := 0x40080114 + 512 * i
def METR_GgEVC_MODFE (i : Nat) : FieldRef := ⟨0x40080114 + 512 * i, 0, 0⟩
def METR_GgEVC_CREEPE (i : Nat) : FieldRef := ⟨0x40080114 + 512 * i, 1, 1⟩
def METR_GgEVC_SEALR (i : Nat) : FieldRef := ⟨0x40080114 + 512 * i, 2, 2⟩
def METR_GgEVC_SEALE (i : Nat) : FieldRef := ⟨0x40080114 + 512 * i, 3, 3⟩
abbrev METR_GgMAP (i : Nat) : Nat := 0x40080118 + 512 * i
def METR_GgMAP_VA (i : Nat) : FieldRef := ⟨0x40080118 + 512 * i, 4, 0⟩
def METR_GgMAP_VB (i : Nat) : FieldRef := ⟨0x40080118 + 512 * i, 9, 5⟩
def METR_GgMAP_VC (i : Nat) : FieldRef := ⟨0x40080118 + 512 * i, 14, 10⟩
def METR_GgMAP_IA (i : Nat) : FieldRef := ⟨0x40080118 + 512 * i, 19, 15⟩
def METR_GgMAP_IB (i : Nat) : FieldRef := ⟨0x40080118 + 512 * i, 24, 20⟩
def METR_GgMAP_IC (i : Nat) : FieldRef := ⟨0x40080118 + 512 * i, 29, 25⟩
abbrev METR_GgMAPN (i : Nat) : Nat := 0x4008011C + 512 * i
def METR_GgMAPN_IN (i : Nat) : FieldRef := ⟨0x4008011C + 512 * i, 4, 0⟩
abbrev METR_GgCHk_GAIN (i j : Nat) : Nat := 0x40080120 + 512 * i + 8 * j
def METR_GgCHk_GAIN_GAIN (i j : Nat) : FieldRef := ⟨0x40080120 + 512 * i + 8 * j, 27, 0⟩
def METR_GgCHk_GAIN_GSH (i j : Nat) : FieldRef := ⟨0x40080120 + 512 * i + 8 * j, 31, 28⟩
abbrev METR_GgCHk_OFF (i j : Nat) : Nat := 0x40080124 + 512 * i + 8 * j
def METR_GgCHk_OFF_OFF (i j : Nat) : FieldRef := ⟨0x40080124 + 512 * i + 8 * j, 31, 0⟩
abbrev METR_GgPHx_GP (i j : Nat) : Nat := 0x40080160 + 512 * i + 64 * j
def METR_GgPHx_GP_GP (i j : Nat) : FieldRef := ⟨0x40080160 + 512 * i + 64 * j, 31, 0⟩
abbrev METR_GgPHx_OP (i j : Nat) : Nat := 0x40080164 + 512 * i + 64 * j
def METR_GgPHx_OP_OP (i j : Nat) : FieldRef := ⟨0x40080164 + 512 * i + 64 * j, 31, 0⟩
abbrev METR_GgPHx_GQ (i j : Nat) : Nat := 0x40080168 + 512 * i + 64 * j
def METR_GgPHx_GQ_GQ (i j : Nat) : FieldRef := ⟨0x40080168 + 512 * i + 64 * j, 31, 0⟩
abbrev METR_GgPHx_OQ (i j : Nat) : Nat := 0x4008016C + 512 * i + 64 * j
def METR_GgPHx_OQ_OQ (i j : Nat) : FieldRef := ⟨0x4008016C + 512 * i + 64 * j, 31, 0⟩
abbrev METR_GgPHx_GS (i j : Nat) : Nat := 0x40080170 + 512 * i + 64 * j
def METR_GgPHx_GS_GS (i j : Nat) : FieldRef := ⟨0x40080170 + 512 * i + 64 * j, 31, 0⟩
abbrev METR_GgPHx_OS (i j : Nat) : Nat := 0x40080174 + 512 * i + 64 * j
def METR_GgPHx_OS_OS (i j : Nat) : FieldRef := ⟨0x40080174 + 512 * i + 64 * j, 31, 0⟩
abbrev METR_GgPHx_GV (i j : Nat) : Nat := 0x40080178 + 512 * i + 64 * j
def METR_GgPHx_GV_GV (i j : Nat) : FieldRef := ⟨0x40080178 + 512 * i + 64 * j, 31, 0⟩
abbrev METR_GgPHx_OV (i j : Nat) : Nat := 0x4008017C + 512 * i + 64 * j
def METR_GgPHx_OV_OV (i j : Nat) : FieldRef := ⟨0x4008017C + 512 * i + 64 * j, 31, 0⟩
abbrev METR_GgPHx_GI (i j : Nat) : Nat := 0x40080180 + 512 * i + 64 * j
def METR_GgPHx_GI_GI (i j : Nat) : FieldRef := ⟨0x40080180 + 512 * i + 64 * j, 31, 0⟩
abbrev METR_GgPHx_OI (i j : Nat) : Nat := 0x40080184 + 512 * i + 64 * j
def METR_GgPHx_OI_OI (i j : Nat) : FieldRef := ⟨0x40080184 + 512 * i + 64 * j, 31, 0⟩
abbrev METR_GgPHx_XP (i j : Nat) : Nat := 0x40080188 + 512 * i + 64 * j
def METR_GgPHx_XP_XP (i j : Nat) : FieldRef := ⟨0x40080188 + 512 * i + 64 * j, 31, 0⟩
abbrev METR_GgPHx_XQ (i j : Nat) : Nat := 0x4008018C + 512 * i + 64 * j
def METR_GgPHx_XQ_XQ (i j : Nat) : FieldRef := ⟨0x4008018C + 512 * i + 64 * j, 31, 0⟩
abbrev METR_TCc_CFG (i : Nat) : Nat := 0x40081000 + 64 * i
def METR_TCc_CFG_KIND (i : Nat) : FieldRef := ⟨0x40081000 + 64 * i, 1, 0⟩
def METR_TCc_CFG_FSRC (i : Nat) : FieldRef := ⟨0x40081000 + 64 * i, 2, 2⟩
def METR_TCc_CFG_FLOC (i : Nat) : FieldRef := ⟨0x40081000 + 64 * i, 3, 3⟩
def METR_TCc_CFG_RTYPE (i : Nat) : FieldRef := ⟨0x40081000 + 64 * i, 5, 4⟩
def METR_TCc_CFG_DIRINV (i : Nat) : FieldRef := ⟨0x40081000 + 64 * i, 6, 6⟩
def METR_TCc_CFG_PBAR (i : Nat) : FieldRef := ⟨0x40081000 + 64 * i, 11, 7⟩
def METR_TCc_CFG_DTMIN (i : Nat) : FieldRef := ⟨0x40081000 + 64 * i, 19, 12⟩
abbrev METR_TCc_SRC (i : Nat) : Nat := 0x40081004 + 64 * i
def METR_TCc_SRC_PIN (i : Nat) : FieldRef := ⟨0x40081004 + 64 * i, 4, 0⟩
def METR_TCc_SRC_DIN (i : Nat) : FieldRef := ⟨0x40081004 + 64 * i, 10, 5⟩
def METR_TCc_SRC_ACH (i : Nat) : FieldRef := ⟨0x40081004 + 64 * i, 16, 11⟩
def METR_TCc_SRC_RS (i : Nat) : FieldRef := ⟨0x40081004 + 64 * i, 20, 17⟩
def METR_TCc_SRC_RR (i : Nat) : FieldRef := ⟨0x40081004 + 64 * i, 24, 21⟩
abbrev METR_TCc_KVOL (i : Nat) : Nat := 0x40081008 + 64 * i
def METR_TCc_KVOL_KVOL (i : Nat) : FieldRef := ⟨0x40081008 + 64 * i, 31, 0⟩
abbrev METR_TCc_FG (i : Nat) : Nat := 0x4008100C + 64 * i
def METR_TCc_FG_FG (i : Nat) : FieldRef := ⟨0x4008100C + 64 * i, 31, 0⟩
abbrev METR_TCc_FOFF (i : Nat) : Nat := 0x40081010 + 64 * i
def METR_TCc_FOFF_FOFF (i : Nat) : FieldRef := ⟨0x40081010 + 64 * i, 31, 0⟩
abbrev METR_TCc_SEAL (i : Nat) : Nat := 0x40081014 + 64 * i
def METR_TCc_SEAL_GO (i : Nat) : FieldRef := ⟨0x40081014 + 64 * i, 0, 0⟩
def METR_TCc_SEAL_ERR (i : Nat) : FieldRef := ⟨0x40081014 + 64 * i, 7, 4⟩
abbrev METR_TCc_CTRL (i : Nat) : Nat := 0x40081018 + 64 * i
def METR_TCc_CTRL_EN (i : Nat) : FieldRef := ⟨0x40081018 + 64 * i, 0, 0⟩
abbrev METR_TCc_STAT (i : Nat) : Nat := 0x4008101C + 64 * i
def METR_TCc_STAT_RUN (i : Nat) : FieldRef := ⟨0x4008101C + 64 * i, 0, 0⟩
def METR_TCc_STAT_REV (i : Nat) : FieldRef := ⟨0x4008101C + 64 * i, 1, 1⟩
def METR_TCc_STAT_FLOWLOST (i : Nat) : FieldRef := ⟨0x4008101C + 64 * i, 2, 2⟩
def METR_TCc_STAT_TLOST (i : Nat) : FieldRef := ⟨0x4008101C + 64 * i, 3, 3⟩
def METR_TCc_STAT_REVS (i : Nat) : FieldRef := ⟨0x4008101C + 64 * i, 15, 8⟩
def METR_TCc_STAT_FLOSTS (i : Nat) : FieldRef := ⟨0x4008101C + 64 * i, 23, 16⟩
def METR_TCc_STAT_TLOSTS (i : Nat) : FieldRef := ⟨0x4008101C + 64 * i, 31, 24⟩
abbrev METR_TCc_EVC (i : Nat) : Nat := 0x40081020 + 64 * i
def METR_TCc_EVC_FLOWE (i : Nat) : FieldRef := ⟨0x40081020 + 64 * i, 0, 0⟩
def METR_TCc_EVC_TEMPE (i : Nat) : FieldRef := ⟨0x40081020 + 64 * i, 1, 1⟩
def METR_TCc_EVC_REVE (i : Nat) : FieldRef := ⟨0x40081020 + 64 * i, 2, 2⟩
def METR_TCc_EVC_SEALR (i : Nat) : FieldRef := ⟨0x40081020 + 64 * i, 3, 3⟩
def METR_TCc_EVC_SEALE (i : Nat) : FieldRef := ⟨0x40081020 + 64 * i, 4, 4⟩
abbrev METR_POo_CFG (i : Nat) : Nat := 0x40081400 + 16 * i
def METR_POo_CFG_SRC (i : Nat) : FieldRef := ⟨0x40081400 + 16 * i, 7, 0⟩
def METR_POo_CFG_PW (i : Nat) : FieldRef := ⟨0x40081400 + 16 * i, 16, 8⟩
abbrev METR_POo_KP (i : Nat) : Nat := 0x40081404 + 16 * i
def METR_POo_KP_KP (i : Nat) : FieldRef := ⟨0x40081404 + 16 * i, 31, 0⟩
abbrev METR_POo_SEAL (i : Nat) : Nat := 0x40081408 + 16 * i
def METR_POo_SEAL_GO (i : Nat) : FieldRef := ⟨0x40081408 + 16 * i, 0, 0⟩
def METR_POo_SEAL_ERR (i : Nat) : FieldRef := ⟨0x40081408 + 16 * i, 7, 4⟩
abbrev METR_POo_STAT (i : Nat) : Nat := 0x4008140C + 16 * i
def METR_POo_STAT_OWED (i : Nat) : FieldRef := ⟨0x4008140C + 16 * i, 15, 0⟩
def METR_POo_STAT_DEFER (i : Nat) : FieldRef := ⟨0x4008140C + 16 * i, 23, 16⟩
def METR_POo_STAT_SUPP (i : Nat) : FieldRef := ⟨0x4008140C + 16 * i, 31, 24⟩
abbrev METR_Ei (i : Nat) : Nat := 0x40082000 + 8 * i
def METR_Ei_E (i : Nat) : FieldRef := ⟨0x40082000 + 8 * i, 63, 0⟩
abbrev METR_SUMi (i : Nat) : Nat := 0x40083000 + 8 * i
def METR_SUMi_SUM (i : Nat) : FieldRef := ⟨0x40083000 + 8 * i, 31, 0⟩
def METR_SUMi_WCNT (i : Nat) : FieldRef := ⟨0x40083000 + 8 * i, 39, 32⟩
def METR_SUMi_DW (i : Nat) : FieldRef := ⟨0x40083000 + 8 * i, 40, 40⟩
/-! ADCS, spec/15_analogue_inputs.md R421. -/

abbrev ADCS_CTRL : Nat := 0x40090000
def ADCS_CTRL_EN : FieldRef := ⟨0x40090000, 0, 0⟩
def ADCS_CTRL_PEN : FieldRef := ⟨0x40090000, 1, 1⟩
def ADCS_CTRL_STORE : FieldRef := ⟨0x40090000, 2, 2⟩
def ADCS_CTRL_LOAD : FieldRef := ⟨0x40090000, 3, 3⟩
abbrev ADCS_STAT : Nat := 0x40090004
def ADCS_STAT_RUN : FieldRef := ⟨0x40090004, 0, 0⟩
def ADCS_STAT_LBUSY : FieldRef := ⟨0x40090004, 1, 1⟩
abbrev ADCS_SEAL : Nat := 0x40090008
def ADCS_SEAL_GO : FieldRef := ⟨0x40090008, 0, 0⟩
def ADCS_SEAL_ERR : FieldRef := ⟨0x40090008, 7, 4⟩
abbrev ADCS_PBASE : Nat := 0x4009000C
def ADCS_PBASE_PBASE : FieldRef := ⟨0x4009000C, 17, 0⟩
abbrev ADCS_NENT : Nat := 0x40090010
def ADCS_NENT_N0 : FieldRef := ⟨0x40090010, 6, 0⟩
def ADCS_NENT_N1 : FieldRef := ⟨0x40090010, 14, 8⟩
abbrev ADCS_URG : Nat := 0x40090014
def ADCS_URG_CH : FieldRef := ⟨0x40090014, 5, 0⟩
def ADCS_URG_CONV : FieldRef := ⟨0x40090014, 6, 6⟩
abbrev ADCS_URGST : Nat := 0x40090018
def ADCS_URGST_DROP : FieldRef := ⟨0x40090018, 15, 0⟩
def ADCS_URGST_LATE : FieldRef := ⟨0x40090018, 23, 16⟩
abbrev ADCS_CALCMD : Nat := 0x4009001C
def ADCS_CALCMD_CH : FieldRef := ⟨0x4009001C, 5, 0⟩
def ADCS_CALCMD_RANGE : FieldRef := ⟨0x4009001C, 6, 6⟩
def ADCS_CALCMD_OP : FieldRef := ⟨0x4009001C, 9, 8⟩
def ADCS_CALCMD_NLOG : FieldRef := ⟨0x4009001C, 14, 10⟩
abbrev ADCS_CALREF : Nat := 0x40090020
def ADCS_CALREF_REF : FieldRef := ⟨0x40090020, 31, 0⟩
abbrev ADCS_CALST : Nat := 0x40090024
def ADCS_CALST_BUSY : FieldRef := ⟨0x40090024, 0, 0⟩
def ADCS_CALST_ZHELD : FieldRef := ⟨0x40090024, 1, 1⟩
def ADCS_CALST_FHELD : FieldRef := ⟨0x40090024, 2, 2⟩
def ADCS_CALST_ERR : FieldRef := ⟨0x40090024, 7, 4⟩
def ADCS_CALST_NOCAL : FieldRef := ⟨0x40090024, 8, 8⟩
abbrev ADCS_CBASE : Nat := 0x40090028
def ADCS_CBASE_CBASE : FieldRef := ⟨0x40090028, 23, 0⟩
abbrev ADCS_CALCOMMIT : Nat := 0x4009002C
def ADCS_CALCOMMIT_CH : FieldRef := ⟨0x4009002C, 5, 0⟩
abbrev ADCS_WINL : Nat := 0x40090030
def ADCS_WINL_LEFT : FieldRef := ⟨0x40090030, 31, 0⟩
abbrev ADCS_WINH : Nat := 0x40090034
def ADCS_WINH_LEFT : FieldRef := ⟨0x40090034, 27, 0⟩
abbrev ADCS_MMRSTL : Nat := 0x40090038
def ADCS_MMRSTL_RST : FieldRef := ⟨0x40090038, 31, 0⟩
abbrev ADCS_MMRSTH : Nat := 0x4009003C
def ADCS_MMRSTH_RST : FieldRef := ⟨0x4009003C, 31, 0⟩
abbrev ADCS_CHn_CFG (i : Nat) : Nat := 0x40090100 + 4 * i
def ADCS_CHn_CFG_EN (i : Nat) : FieldRef := ⟨0x40090100 + 4 * i, 0, 0⟩
def ADCS_CHn_CFG_RANGE (i : Nat) : FieldRef := ⟨0x40090100 + 4 * i, 1, 1⟩
abbrev ADCS_SEQk_e (i j : Nat) : Nat := 0x40090200 + 256 * i + 4 * j
def ADCS_SEQk_e_CH (i j : Nat) : FieldRef := ⟨0x40090200 + 256 * i + 4 * j, 5, 0⟩
def ADCS_SEQk_e_DIV (i j : Nat) : FieldRef := ⟨0x40090200 + 256 * i + 4 * j, 15, 6⟩
def ADCS_SEQk_e_PHASE (i j : Nat) : FieldRef := ⟨0x40090200 + 256 * i + 4 * j, 25, 16⟩
abbrev ADCS_ACCn (i : Nat) : Nat := 0x40090400 + 8 * i
def ADCS_ACCn_SUM (i : Nat) : FieldRef := ⟨0x40090400 + 8 * i, 47, 0⟩
def ADCS_ACCn_COUNT (i : Nat) : FieldRef := ⟨0x40090400 + 8 * i, 63, 48⟩
abbrev ADCS_MMn (i : Nat) : Nat := 0x40090800 + 8 * i
def ADCS_MMn_MIN (i : Nat) : FieldRef := ⟨0x40090800 + 8 * i, 31, 0⟩
def ADCS_MMn_MAX (i : Nat) : FieldRef := ⟨0x40090800 + 8 * i, 63, 32⟩
abbrev ADCS_WINn_LO (i : Nat) : Nat := 0x40090C00 + 8 * i
def ADCS_WINn_LO_LO (i : Nat) : FieldRef := ⟨0x40090C00 + 8 * i, 31, 0⟩
abbrev ADCS_WINn_HI (i : Nat) : Nat := 0x40090C04 + 8 * i
def ADCS_WINn_HI_HI (i : Nat) : FieldRef := ⟨0x40090C04 + 8 * i, 31, 0⟩
abbrev ADCS_CALe_GAIN (i : Nat) : Nat := 0x40091000 + 8 * i
def ADCS_CALe_GAIN_GAIN (i : Nat) : FieldRef := ⟨0x40091000 + 8 * i, 31, 0⟩
abbrev ADCS_CALe_ZOFF (i : Nat) : Nat := 0x40091004 + 8 * i
def ADCS_CALe_ZOFF_ZOFF (i : Nat) : FieldRef := ⟨0x40091004 + 8 * i, 31, 0⟩
/-! SAFE, spec/16_safety_channel.md R444. -/

abbrev SAFE_CTRL : Nat := 0x400A0000
def SAFE_CTRL_TRIP : FieldRef := ⟨0x400A0000, 0, 0⟩
def SAFE_CTRL_TXGO : FieldRef := ⟨0x400A0000, 15, 8⟩
def SAFE_CTRL_ARMK : FieldRef := ⟨0x400A0000, 31, 16⟩
abbrev SAFE_STAT : Nat := 0x400A0004
def SAFE_STAT_STATE : FieldRef := ⟨0x400A0004, 1, 0⟩
def SAFE_STAT_AERR : FieldRef := ⟨0x400A0004, 7, 4⟩
def SAFE_STAT_LASTF : FieldRef := ⟨0x400A0004, 12, 8⟩
def SAFE_STAT_SEALED : FieldRef := ⟨0x400A0004, 13, 13⟩
abbrev SAFE_CFG : Nat := 0x400A0008
def SAFE_CFG_GRACE : FieldRef := ⟨0x400A0008, 17, 0⟩
def SAFE_CFG_REQEN : FieldRef := ⟨0x400A0008, 18, 18⟩
abbrev SAFE_SEAL : Nat := 0x400A000C
def SAFE_SEAL_GO : FieldRef := ⟨0x400A000C, 0, 0⟩
def SAFE_SEAL_ERR : FieldRef := ⟨0x400A000C, 7, 4⟩
abbrev SAFE_FCAUSE : Nat := 0x400A0010
def SAFE_FCAUSE_F : FieldRef := ⟨0x400A0010, 8, 0⟩
abbrev SAFE_DCAUSE : Nat := 0x400A0014
def SAFE_DCAUSE_D : FieldRef := ⟨0x400A0014, 12, 0⟩
abbrev SAFE_GRLEFT : Nat := 0x400A0018
def SAFE_GRLEFT_LEFT : FieldRef := ⟨0x400A0018, 17, 0⟩
abbrev SAFE_OVMASKA : Nat := 0x400A001C
def SAFE_OVMASKA_DO : FieldRef := ⟨0x400A001C, 23, 0⟩
def SAFE_OVMASKA_AX : FieldRef := ⟨0x400A001C, 31, 24⟩
abbrev SAFE_OVMASKB : Nat := 0x400A0020
def SAFE_OVMASKB_PO : FieldRef := ⟨0x400A0020, 15, 0⟩
abbrev SAFE_OVRA : Nat := 0x400A0024
def SAFE_OVRA_DO : FieldRef := ⟨0x400A0024, 23, 0⟩
def SAFE_OVRA_AX : FieldRef := ⟨0x400A0024, 31, 24⟩
abbrev SAFE_OVRB : Nat := 0x400A0028
def SAFE_OVRB_PO : FieldRef := ⟨0x400A0028, 15, 0⟩
abbrev SAFE_IMASK : Nat := 0x400A002C
def SAFE_IMASK_CH : FieldRef := ⟨0x400A002C, 11, 0⟩
abbrev SAFE_OUT : Nat := 0x400A0030
def SAFE_OUT_EN : FieldRef := ⟨0x400A0030, 7, 0⟩
abbrev SAFE_REQ : Nat := 0x400A0034
def SAFE_REQ_REQ : FieldRef := ⟨0x400A0034, 7, 0⟩
abbrev SAFE_IN : Nat := 0x400A0038
def SAFE_IN_VAL : FieldRef := ⟨0x400A0038, 15, 0⟩
def SAFE_IN_TFAIL : FieldRef := ⟨0x400A0038, 31, 16⟩
abbrev SAFE_OSTAT : Nat := 0x400A003C
def SAFE_OSTAT_RB : FieldRef := ⟨0x400A003C, 7, 0⟩
def SAFE_OSTAT_HSF : FieldRef := ⟨0x400A003C, 15, 8⟩
def SAFE_OSTAT_LSF : FieldRef := ⟨0x400A003C, 23, 16⟩
def SAFE_OSTAT_OLOST : FieldRef := ⟨0x400A003C, 31, 24⟩
abbrev SAFE_TPCFG : Nat := 0x400A0040
def SAFE_TPCFG_TPPER : FieldRef := ⟨0x400A0040, 16, 0⟩
def SAFE_TPCFG_TPW : FieldRef := ⟨0x400A0040, 20, 17⟩
abbrev SAFE_CNT : Nat := 0x400A0044
def SAFE_CNT_FOREIGN : FieldRef := ⟨0x400A0044, 15, 0⟩
def SAFE_CNT_ARMS : FieldRef := ⟨0x400A0044, 23, 16⟩
def SAFE_CNT_TRIPS : FieldRef := ⟨0x400A0044, 31, 24⟩
abbrev SAFE_RXEV : Nat := 0x400A0048
def SAFE_RXEV_RX : FieldRef := ⟨0x400A0048, 7, 0⟩
abbrev SAFE_OTCFG : Nat := 0x400A004C
def SAFE_OTCFG_OTPER : FieldRef := ⟨0x400A004C, 16, 0⟩
def SAFE_OTCFG_RBT : FieldRef := ⟨0x400A004C, 20, 17⟩
abbrev SAFE_INi_CFG (i : Nat) : Nat := 0x400A0100 + 4 * i
def SAFE_INi_CFG_EN (i : Nat) : FieldRef := ⟨0x400A0100 + 4 * i, 0, 0⟩
def SAFE_INi_CFG_TPEN (i : Nat) : FieldRef := ⟨0x400A0100 + 4 * i, 1, 1⟩
def SAFE_INi_CFG_TPSRC (i : Nat) : FieldRef := ⟨0x400A0100 + 4 * i, 3, 2⟩
def SAFE_INi_CFG_FILT (i : Nat) : FieldRef := ⟨0x400A0100 + 4 * i, 11, 4⟩
abbrev SAFE_CONc_CFG (i : Nat) : Nat := 0x400A0400 + 64 * i
def SAFE_CONc_CFG_EN (i : Nat) : FieldRef := ⟨0x400A0400 + 64 * i, 0, 0⟩
def SAFE_CONc_CFG_DIR (i : Nat) : FieldRef := ⟨0x400A0400 + 64 * i, 1, 1⟩
def SAFE_CONc_CFG_LEN (i : Nat) : FieldRef := ⟨0x400A0400 + 64 * i, 8, 2⟩
def SAFE_CONc_CFG_PSEL (i : Nat) : FieldRef := ⟨0x400A0400 + 64 * i, 9, 9⟩
def SAFE_CONc_CFG_SKEW (i : Nat) : FieldRef := ⟨0x400A0400 + 64 * i, 16, 10⟩
def SAFE_CONc_CFG_TXPER (i : Nat) : FieldRef := ⟨0x400A0400 + 64 * i, 27, 17⟩
abbrev SAFE_CONc_TXID (i : Nat) : Nat := 0x400A0404 + 64 * i
def SAFE_CONc_TXID_ID (i : Nat) : FieldRef := ⟨0x400A0404 + 64 * i, 31, 0⟩
abbrev SAFE_CONc_RXID (i : Nat) : Nat := 0x400A0408 + 64 * i
def SAFE_CONc_RXID_ID (i : Nat) : FieldRef := ⟨0x400A0408 + 64 * i, 31, 0⟩
abbrev SAFE_CONc_DMACL (i : Nat) : Nat := 0x400A040C + 64 * i
def SAFE_CONc_DMACL_DMACL (i : Nat) : FieldRef := ⟨0x400A040C + 64 * i, 31, 0⟩
abbrev SAFE_CONc_DMACH (i : Nat) : Nat := 0x400A0410 + 64 * i
def SAFE_CONc_DMACH_DMACH (i : Nat) : FieldRef := ⟨0x400A0410 + 64 * i, 15, 0⟩
abbrev SAFE_CONc_TMO (i : Nat) : Nat := 0x400A0414 + 64 * i
def SAFE_CONc_TMO_TMO (i : Nat) : FieldRef := ⟨0x400A0414 + 64 * i, 15, 0⟩
def SAFE_CONc_TMO_NCLR (i : Nat) : FieldRef := ⟨0x400A0414 + 64 * i, 23, 16⟩
abbrev SAFE_CONc_KEY (i : Nat) : Nat := 0x400A0418 + 64 * i
def SAFE_CONc_KEY_KSLOT (i : Nat) : FieldRef := ⟨0x400A0418 + 64 * i, 5, 0⟩
abbrev SAFE_CONc_STAT (i : Nat) : Nat := 0x400A041C + 64 * i
def SAFE_CONc_STAT_CFAULT (i : Nat) : FieldRef := ⟨0x400A041C + 64 * i, 0, 0⟩
def SAFE_CONc_STAT_DEGR (i : Nat) : FieldRef := ⟨0x400A041C + 64 * i, 1, 1⟩
def SAFE_CONc_STAT_WIN (i : Nat) : FieldRef := ⟨0x400A041C + 64 * i, 2, 2⟩
def SAFE_CONc_STAT_CLRCNT (i : Nat) : FieldRef := ⟨0x400A041C + 64 * i, 15, 8⟩
abbrev SAFE_CONc_SEQ (i : Nat) : Nat := 0x400A0420 + 64 * i
def SAFE_CONc_SEQ_SEQ (i : Nat) : FieldRef := ⟨0x400A0420 + 64 * i, 31, 0⟩
abbrev SAFE_CONc_TSEQ (i : Nat) : Nat := 0x400A0424 + 64 * i
def SAFE_CONc_TSEQ_SEQ (i : Nat) : FieldRef := ⟨0x400A0424 + 64 * i, 31, 0⟩
abbrev SAFE_CONc_CNT (i : Nat) : Nat := 0x400A0428 + 64 * i
def SAFE_CONc_CNT_INVAL (i : Nat) : FieldRef := ⟨0x400A0428 + 64 * i, 7, 0⟩
def SAFE_CONc_CNT_NOPAIR (i : Nat) : FieldRef := ⟨0x400A0428 + 64 * i, 15, 8⟩
def SAFE_CONc_CNT_DISAG (i : Nat) : FieldRef := ⟨0x400A0428 + 64 * i, 23, 16⟩
def SAFE_CONc_CNT_LATE (i : Nat) : FieldRef := ⟨0x400A0428 + 64 * i, 31, 24⟩
abbrev SAFE_CONc_ATICK (i : Nat) : Nat := 0x400A042C + 64 * i
def SAFE_CONc_ATICK_TICK (i : Nat) : FieldRef := ⟨0x400A042C + 64 * i, 31, 0⟩
abbrev SAFE_CONc_TXj (i j : Nat) : Nat := 0x400A2000 + 256 * i + 4 * j
def SAFE_CONc_TXj_DATA (i j : Nat) : FieldRef := ⟨0x400A2000 + 256 * i + 4 * j, 31, 0⟩
abbrev SAFE_CONc_TXFSj (i j : Nat) : Nat := 0x400A2040 + 256 * i + 4 * j
def SAFE_CONc_TXFSj_DATA (i j : Nat) : FieldRef := ⟨0x400A2040 + 256 * i + 4 * j, 31, 0⟩
abbrev SAFE_CONc_RXj (i j : Nat) : Nat := 0x400A2080 + 256 * i + 4 * j
def SAFE_CONc_RXj_DATA (i j : Nat) : FieldRef := ⟨0x400A2080 + 256 * i + 4 * j, 31, 0⟩
abbrev SAFE_CONc_RXFSj (i j : Nat) : Nat := 0x400A20C0 + 256 * i + 4 * j
def SAFE_CONc_RXFSj_DATA (i j : Nat) : FieldRef := ⟨0x400A20C0 + 256 * i + 4 * j, 31, 0⟩
/-! ETHN, spec/17_network_time_and_clock.md R472. -/

abbrev ETHN_PRP : Nat := 0x400B0000
def ETHN_PRP_LCI : FieldRef := ⟨0x400B0000, 13, 0⟩
def ETHN_PRP_EFT : FieldRef := ⟨0x400B0000, 25, 16⟩
abbrev ETHN_pCFG (i : Nat) : Nat := 0x400B0100 + 32 * i
def ETHN_pCFG_AN (i : Nat) : FieldRef := ⟨0x400B0100 + 32 * i, 0, 0⟩
def ETHN_pCFG_SPEED (i : Nat) : FieldRef := ⟨0x400B0100 + 32 * i, 2, 1⟩
def ETHN_pCFG_FDX (i : Nat) : FieldRef := ⟨0x400B0100 + 32 * i, 3, 3⟩
abbrev ETHN_pMACL (i : Nat) : Nat := 0x400B0104 + 32 * i
def ETHN_pMACL_MAC (i : Nat) : FieldRef := ⟨0x400B0104 + 32 * i, 31, 0⟩
abbrev ETHN_pMACH (i : Nat) : Nat := 0x400B0108 + 32 * i
def ETHN_pMACH_MAC (i : Nat) : FieldRef := ⟨0x400B0108 + 32 * i, 15, 0⟩
abbrev ETHN_pSTAT (i : Nat) : Nat := 0x400B010C + 32 * i
def ETHN_pSTAT_LINK (i : Nat) : FieldRef := ⟨0x400B010C + 32 * i, 0, 0⟩
def ETHN_pSTAT_SPD (i : Nat) : FieldRef := ⟨0x400B010C + 32 * i, 2, 1⟩
def ETHN_pSTAT_DPX (i : Nat) : FieldRef := ⟨0x400B010C + 32 * i, 3, 3⟩
abbrev ETHN_pCNT (i : Nat) : Nat := 0x400B0110 + 32 * i
def ETHN_pCNT_FCSERR (i : Nat) : FieldRef := ⟨0x400B0110 + 32 * i, 15, 0⟩
def ETHN_pCNT_PAUSE (i : Nat) : FieldRef := ⟨0x400B0110 + 32 * i, 23, 16⟩
abbrev ETHN_iRXR (i : Nat) : Nat := 0x400B0200 + 64 * i
def ETHN_iRXR_BASE (i : Nat) : FieldRef := ⟨0x400B0200 + 64 * i, 22, 0⟩
abbrev ETHN_iRXN (i : Nat) : Nat := 0x400B0204 + 64 * i
def ETHN_iRXN_N (i : Nat) : FieldRef := ⟨0x400B0204 + 64 * i, 11, 0⟩
abbrev ETHN_iTXR (i : Nat) : Nat := 0x400B0208 + 64 * i
def ETHN_iTXR_BASE (i : Nat) : FieldRef := ⟨0x400B0208 + 64 * i, 22, 0⟩
abbrev ETHN_iTXN (i : Nat) : Nat := 0x400B020C + 64 * i
def ETHN_iTXN_N (i : Nat) : FieldRef := ⟨0x400B020C + 64 * i, 11, 0⟩
abbrev ETHN_iSEAL (i : Nat) : Nat := 0x400B0210 + 64 * i
def ETHN_iSEAL_GO (i : Nat) : FieldRef := ⟨0x400B0210 + 64 * i, 0, 0⟩
def ETHN_iSEAL_ERR (i : Nat) : FieldRef := ⟨0x400B0210 + 64 * i, 7, 4⟩
abbrev ETHN_iCTRL (i : Nat) : Nat := 0x400B0214 + 64 * i
def ETHN_iCTRL_EN (i : Nat) : FieldRef := ⟨0x400B0214 + 64 * i, 0, 0⟩
def ETHN_iCTRL_ALLMC (i : Nat) : FieldRef := ⟨0x400B0214 + 64 * i, 1, 1⟩
def ETHN_iCTRL_KICK (i : Nat) : FieldRef := ⟨0x400B0214 + 64 * i, 2, 2⟩
abbrev ETHN_iSTAT (i : Nat) : Nat := 0x400B0218 + 64 * i
def ETHN_iSTAT_RXNEXT (i : Nat) : FieldRef := ⟨0x400B0218 + 64 * i, 11, 0⟩
def ETHN_iSTAT_TXNEXT (i : Nat) : FieldRef := ⟨0x400B0218 + 64 * i, 27, 16⟩
abbrev ETHN_iCNT (i : Nat) : Nat := 0x400B021C + 64 * i
def ETHN_iCNT_NOBUF (i : Nat) : FieldRef := ⟨0x400B021C + 64 * i, 7, 0⟩
def ETHN_iCNT_FIFO (i : Nat) : FieldRef := ⟨0x400B021C + 64 * i, 15, 8⟩
def ETHN_iCNT_GIANT (i : Nat) : FieldRef := ⟨0x400B021C + 64 * i, 23, 16⟩
abbrev ETHN_iPRPST (i : Nat) : Nat := 0x400B0220 + 64 * i
def ETHN_iPRPST_DUPD (i : Nat) : FieldRef := ⟨0x400B0220 + 64 * i, 15, 0⟩
def ETHN_iPRPST_WRONGLAN (i : Nat) : FieldRef := ⟨0x400B0220 + 64 * i, 23, 16⟩
def ETHN_iPRPST_LANAS (i : Nat) : FieldRef := ⟨0x400B0220 + 64 * i, 24, 24⟩
def ETHN_iPRPST_LANBS (i : Nat) : FieldRef := ⟨0x400B0220 + 64 * i, 25, 25⟩
/-! PTPT, spec/17_network_time_and_clock.md R474. -/

abbrev PTPT_TIME : Nat := 0x400C0000
def PTPT_TIME_NS : FieldRef := ⟨0x400C0000, 31, 0⟩
def PTPT_TIME_FRAC : FieldRef := ⟨0x400C0000, 55, 32⟩
def PTPT_TIME_WRAPC : FieldRef := ⟨0x400C0000, 63, 56⟩
abbrev PTPT_TEDGE : Nat := 0x400C0008
def PTPT_TEDGE_NS : FieldRef := ⟨0x400C0008, 31, 0⟩
def PTPT_TEDGE_FRAC : FieldRef := ⟨0x400C0008, 55, 32⟩
def PTPT_TEDGE_WRAPC : FieldRef := ⟨0x400C0008, 63, 56⟩
abbrev PTPT_FADJ : Nat := 0x400C0010
def PTPT_FADJ_FADJ : FieldRef := ⟨0x400C0010, 31, 0⟩
abbrev PTPT_STEP : Nat := 0x400C0014
def PTPT_STEP_STEP : FieldRef := ⟨0x400C0014, 31, 0⟩
abbrev PTPT_CTRL : Nat := 0x400C0018
def PTPT_CTRL_LOCK : FieldRef := ⟨0x400C0018, 0, 0⟩
abbrev PTPT_STAT : Nat := 0x400C001C
def PTPT_STAT_STEPERR : FieldRef := ⟨0x400C001C, 1, 0⟩
def PTPT_STAT_SPEND : FieldRef := ⟨0x400C001C, 2, 2⟩
def PTPT_STAT_WRAPC : FieldRef := ⟨0x400C001C, 15, 8⟩
abbrev PTPT_EXT : Nat := 0x400C0020
def PTPT_EXT_W : FieldRef := ⟨0x400C0020, 31, 0⟩
def PTPT_EXT_TAG : FieldRef := ⟨0x400C0020, 39, 32⟩
abbrev PTPT_CORs (i : Nat) : Nat := 0x400C0030 + 4 * i
def PTPT_CORs_TXC (i : Nat) : FieldRef := ⟨0x400C0030 + 4 * i, 15, 0⟩
def PTPT_CORs_RXC (i : Nat) : FieldRef := ⟨0x400C0030 + 4 * i, 31, 16⟩
/-! RTCB, spec/17_network_time_and_clock.md R475. -/

abbrev RTCB_TIME : Nat := 0x400D0000
def RTCB_TIME_SEC : FieldRef := ⟨0x400D0000, 47, 0⟩
def RTCB_TIME_FRAC : FieldRef := ⟨0x400D0000, 63, 48⟩
abbrev RTCB_SET : Nat := 0x400D0008
def RTCB_SET_SEC : FieldRef := ⟨0x400D0008, 47, 0⟩
abbrev RTCB_CMD : Nat := 0x400D0010
def RTCB_CMD_DST : FieldRef := ⟨0x400D0010, 0, 0⟩
abbrev RTCB_TRIM : Nat := 0x400D0014
def RTCB_TRIM_TRIM : FieldRef := ⟨0x400D0014, 12, 0⟩
abbrev RTCB_STAT : Nat := 0x400D0018
def RTCB_STAT_BUSY : FieldRef := ⟨0x400D0018, 0, 0⟩
def RTCB_STAT_SUMMER : FieldRef := ⟨0x400D0018, 1, 1⟩
def RTCB_STAT_REFUSED : FieldRef := ⟨0x400D0018, 15, 8⟩
abbrev RTCB_ALMk (i : Nat) : Nat := 0x400D0020 + 8 * i
def RTCB_ALMk_SEC (i : Nat) : FieldRef := ⟨0x400D0020 + 8 * i, 47, 0⟩
def RTCB_ALMk_ARM (i : Nat) : FieldRef := ⟨0x400D0020 + 8 * i, 48, 48⟩
def RTCB_ALMk_WAKE (i : Nat) : FieldRef := ⟨0x400D0020 + 8 * i, 49, 49⟩
abbrev RTCB_ASTAT : Nat := 0x400D0030
def RTCB_ASTAT_FIRED : FieldRef := ⟨0x400D0030, 1, 0⟩
def RTCB_ASTAT_SKIP : FieldRef := ⟨0x400D0030, 3, 2⟩
def RTCB_ASTAT_PAST : FieldRef := ⟨0x400D0030, 5, 4⟩
abbrev RTCB_PON : Nat := 0x400D0034
def RTCB_PON_PON : FieldRef := ⟨0x400D0034, 0, 0⟩
/-! PAIR, spec/18_pair_and_referee.md R506. -/

abbrev PAIR_CFG : Nat := 0x400E0000
def PAIR_CFG_KSLOT : FieldRef := ⟨0x400E0000, 5, 0⟩
def PAIR_CFG_RKSLOT : FieldRef := ⟨0x400E0000, 11, 6⟩
def PAIR_CFG_AUTORS : FieldRef := ⟨0x400E0000, 12, 12⟩
def PAIR_CFG_LOCALMAX : FieldRef := ⟨0x400E0000, 20, 13⟩
abbrev PAIR_HMASK : Nat := 0x400E0004
def PAIR_HMASK_SRC : FieldRef := ⟨0x400E0004, 23, 0⟩
def PAIR_HMASK_IF : FieldRef := ⟨0x400E0004, 26, 24⟩
abbrev PAIR_SEAL : Nat := 0x400E0008
def PAIR_SEAL_GO : FieldRef := ⟨0x400E0008, 0, 0⟩
def PAIR_SEAL_ERR : FieldRef := ⟨0x400E0008, 7, 4⟩
abbrev PAIR_CTRL : Nat := 0x400E000C
def PAIR_CTRL_HANDOVER : FieldRef := ⟨0x400E000C, 0, 0⟩
def PAIR_CTRL_RESYNC : FieldRef := ⟨0x400E000C, 1, 1⟩
def PAIR_CTRL_SOLO : FieldRef := ⟨0x400E000C, 2, 2⟩
abbrev PAIR_HTICK : Nat := 0x400E0010
def PAIR_HTICK_H : FieldRef := ⟨0x400E0010, 31, 0⟩
abbrev PAIR_STAT : Nat := 0x400E0014
def PAIR_STAT_STRAP : FieldRef := ⟨0x400E0014, 1, 0⟩
def PAIR_STAT_STATE : FieldRef := ⟨0x400E0014, 4, 2⟩
def PAIR_STAT_REFPRES : FieldRef := ⟨0x400E0014, 5, 5⟩
def PAIR_STAT_RLINK : FieldRef := ⟨0x400E0014, 6, 6⟩
def PAIR_STAT_INSTEP : FieldRef := ⟨0x400E0014, 7, 7⟩
def PAIR_STAT_LOCALIN : FieldRef := ⟨0x400E0014, 8, 8⟩
def PAIR_STAT_FENCEIN : FieldRef := ⟨0x400E0014, 9, 9⟩
def PAIR_STAT_PEERACT : FieldRef := ⟨0x400E0014, 10, 10⟩
def PAIR_STAT_CERR : FieldRef := ⟨0x400E0014, 15, 12⟩
abbrev PAIR_HEALTH : Nat := 0x400E0018
def PAIR_HEALTH_HEALTH : FieldRef := ⟨0x400E0018, 31, 0⟩
abbrev PAIR_KLAST : Nat := 0x400E001C
def PAIR_KLAST_KLAST : FieldRef := ⟨0x400E001C, 31, 0⟩
abbrev PAIR_TKTICK : Nat := 0x400E0020
def PAIR_TKTICK_TKTICK : FieldRef := ⟨0x400E0020, 31, 0⟩
abbrev PAIR_MMTICK : Nat := 0x400E0024
def PAIR_MMTICK_MMTICK : FieldRef := ⟨0x400E0024, 31, 0⟩
abbrev PAIR_SYNC : Nat := 0x400E0028
def PAIR_SYNC_PHASE : FieldRef := ⟨0x400E0028, 2, 0⟩
def PAIR_SYNC_PASSES : FieldRef := ⟨0x400E0028, 10, 3⟩
def PAIR_SYNC_DIRTY : FieldRef := ⟨0x400E0028, 31, 11⟩
abbrev PAIR_CNTA : Nat := 0x400E002C
def PAIR_CNTA_HASHMM : FieldRef := ⟨0x400E002C, 7, 0⟩
def PAIR_CNTA_STARVE : FieldRef := ⟨0x400E002C, 15, 8⟩
def PAIR_CNTA_AUTON : FieldRef := ⟨0x400E002C, 23, 16⟩
def PAIR_CNTA_JOINAB : FieldRef := ⟨0x400E002C, 31, 24⟩
abbrev PAIR_CNTB : Nat := 0x400E0030
def PAIR_CNTB_LNKERR : FieldRef := ⟨0x400E0030, 15, 0⟩
def PAIR_CNTB_TKREF : FieldRef := ⟨0x400E0030, 23, 16⟩
abbrev PAIR_RCFG : Nat := 0x400E0100
def PAIR_RCFG_MISSN : FieldRef := ⟨0x400E0100, 3, 0⟩
def PAIR_RCFG_HWFN : FieldRef := ⟨0x400E0100, 7, 4⟩
def PAIR_RCFG_PREF : FieldRef := ⟨0x400E0100, 8, 8⟩
def PAIR_RCFG_ROLEWAIT : FieldRef := ⟨0x400E0100, 23, 16⟩
abbrev PAIR_RSEAL : Nat := 0x400E0104
def PAIR_RSEAL_GO : FieldRef := ⟨0x400E0104, 0, 0⟩
def PAIR_RSEAL_ERR : FieldRef := ⟨0x400E0104, 7, 4⟩
abbrev PAIR_RCTRL : Nat := 0x400E0108
def PAIR_RCTRL_RELA : FieldRef := ⟨0x400E0108, 0, 0⟩
def PAIR_RCTRL_RELB : FieldRef := ⟨0x400E0108, 1, 1⟩
abbrev PAIR_RSTAT : Nat := 0x400E010C
def PAIR_RSTAT_VIEW : FieldRef := ⟨0x400E010C, 1, 0⟩
def PAIR_RSTAT_FENCEA : FieldRef := ⟨0x400E010C, 2, 2⟩
def PAIR_RSTAT_FENCEB : FieldRef := ⟨0x400E010C, 3, 3⟩
def PAIR_RSTAT_PRESA : FieldRef := ⟨0x400E010C, 4, 4⟩
def PAIR_RSTAT_PRESB : FieldRef := ⟨0x400E010C, 5, 5⟩
def PAIR_RSTAT_FBACKA : FieldRef := ⟨0x400E010C, 6, 6⟩
def PAIR_RSTAT_FBACKB : FieldRef := ⟨0x400E010C, 7, 7⟩
def PAIR_RSTAT_STATEA : FieldRef := ⟨0x400E010C, 10, 8⟩
def PAIR_RSTAT_STATEB : FieldRef := ⟨0x400E010C, 13, 11⟩
abbrev PAIR_RCNT : Nat := 0x400E0110
def PAIR_RCNT_FAILOVERS : FieldRef := ⟨0x400E0110, 7, 0⟩
def PAIR_RCNT_FENCES : FieldRef := ⟨0x400E0110, 15, 8⟩
/-! TRST, spec/19_keys_and_trust.md R533. -/

abbrev TRST_STAT : Nat := 0x400F0000
def TRST_STAT_ROOTOK : FieldRef := ⟨0x400F0000, 0, 0⟩
def TRST_STAT_ENROL : FieldRef := ⟨0x400F0000, 1, 1⟩
def TRST_STAT_BUSY : FieldRef := ⟨0x400F0000, 2, 2⟩
def TRST_STAT_KVALID : FieldRef := ⟨0x400F0000, 3, 3⟩
def TRST_STAT_KTYPE : FieldRef := ⟨0x400F0000, 5, 4⟩
def TRST_STAT_NREQ : FieldRef := ⟨0x400F0000, 11, 8⟩
def TRST_STAT_LOADID : FieldRef := ⟨0x400F0000, 31, 16⟩
abbrev TRST_PUF : Nat := 0x400F0004
def TRST_PUF_CORR : FieldRef := ⟨0x400F0004, 11, 0⟩
def TRST_PUF_HCOPY : FieldRef := ⟨0x400F0004, 12, 12⟩
def TRST_PUF_HFAIL : FieldRef := ⟨0x400F0004, 13, 13⟩
abbrev TRST_CNT : Nat := 0x400F0008
def TRST_CNT_SIGFAIL : FieldRef := ⟨0x400F0008, 7, 0⟩
def TRST_CNT_REPLAY : FieldRef := ⟨0x400F0008, 15, 8⟩
def TRST_CNT_TAGFAIL : FieldRef := ⟨0x400F0008, 23, 16⟩
def TRST_CNT_GCMFAIL : FieldRef := ⟨0x400F0008, 31, 24⟩
abbrev TRST_CSEQLO : Nat := 0x400F000C
def TRST_CSEQLO_CSEQ : FieldRef := ⟨0x400F000C, 31, 0⟩
abbrev TRST_CSEQHI : Nat := 0x400F0010
def TRST_CSEQHI_CSEQ : FieldRef := ⟨0x400F0010, 31, 0⟩
abbrev TRST_SVN : Nat := 0x400F0014
def TRST_SVN_SVN : FieldRef := ⟨0x400F0014, 31, 0⟩
abbrev TRST_SLOTs (i : Nat) : Nat := 0x400F0100 + 4 * i
def TRST_SLOTs_STATE (i : Nat) : FieldRef := ⟨0x400F0100 + 4 * i, 1, 0⟩
def TRST_SLOTs_COPY (i : Nat) : FieldRef := ⟨0x400F0100 + 4 * i, 2, 2⟩
def TRST_SLOTs_TYPE (i : Nat) : FieldRef := ⟨0x400F0100 + 4 * i, 7, 4⟩
def TRST_SLOTs_BIND (i : Nat) : FieldRef := ⟨0x400F0100 + 4 * i, 15, 8⟩
def TRST_SLOTs_USE (i : Nat) : FieldRef := ⟨0x400F0100 + 4 * i, 23, 16⟩
def TRST_SLOTs_GENLO (i : Nat) : FieldRef := ⟨0x400F0100 + 4 * i, 31, 24⟩
/-! RECD, spec/20_recorder_monitors_bench.md R550. -/

abbrev RECD_CTRL : Nat := 0x40100000
def RECD_CTRL_EN : FieldRef := ⟨0x40100000, 0, 0⟩
abbrev RECD_NEXT : Nat := 0x40100004
def RECD_NEXT_NEXT : FieldRef := ⟨0x40100004, 31, 0⟩
abbrev RECD_STAT : Nat := 0x40100008
def RECD_STAT_QLEN : FieldRef := ⟨0x40100008, 6, 0⟩
def RECD_STAT_DROPS : FieldRef := ⟨0x40100008, 15, 8⟩
def RECD_STAT_WFAIL : FieldRef := ⟨0x40100008, 23, 16⟩
def RECD_STAT_BADCODE : FieldRef := ⟨0x40100008, 31, 24⟩
abbrev RECD_WCODE : Nat := 0x40100010
def RECD_WCODE_CODE : FieldRef := ⟨0x40100010, 15, 0⟩
def RECD_WCODE_CLASS : FieldRef := ⟨0x40100010, 18, 16⟩
abbrev RECD_WP0 : Nat := 0x40100014
def RECD_WP0_P0 : FieldRef := ⟨0x40100014, 31, 0⟩
abbrev RECD_WP1 : Nat := 0x40100018
def RECD_WP1_P1 : FieldRef := ⟨0x40100018, 31, 0⟩
abbrev RECD_WGO : Nat := 0x4010001C
def RECD_WGO_GO : FieldRef := ⟨0x4010001C, 0, 0⟩
abbrev RECD_AUTOw (i : Nat) : Nat := 0x40100100 + 4 * i
def RECD_AUTOw_AUTO (i : Nat) : FieldRef := ⟨0x40100100 + 4 * i, 31, 0⟩
abbrev RECD_ECLn (i : Nat) : Nat := 0x40100200 + 4 * i
def RECD_ECLn_CLASS0 (i : Nat) : FieldRef := ⟨0x40100200 + 4 * i, 2, 0⟩
def RECD_ECLn_CLASS1 (i : Nat) : FieldRef := ⟨0x40100200 + 4 * i, 6, 4⟩
def RECD_ECLn_CLASS2 (i : Nat) : FieldRef := ⟨0x40100200 + 4 * i, 10, 8⟩
def RECD_ECLn_CLASS3 (i : Nat) : FieldRef := ⟨0x40100200 + 4 * i, 14, 12⟩
def RECD_ECLn_CLASS4 (i : Nat) : FieldRef := ⟨0x40100200 + 4 * i, 18, 16⟩
def RECD_ECLn_CLASS5 (i : Nat) : FieldRef := ⟨0x40100200 + 4 * i, 22, 20⟩
def RECD_ECLn_CLASS6 (i : Nat) : FieldRef := ⟨0x40100200 + 4 * i, 26, 24⟩
def RECD_ECLn_CLASS7 (i : Nat) : FieldRef := ⟨0x40100200 + 4 * i, 30, 28⟩
/-! MONI, spec/20_recorder_monitors_bench.md R551. -/

abbrev MONI_SNAPSEQw (i : Nat) : Nat := 0x40110000 + 16 * i
def MONI_SNAPSEQw_PERIOD (i : Nat) : FieldRef := ⟨0x40110000 + 16 * i, 31, 0⟩
abbrev MONI_ALMLOw (i : Nat) : Nat := 0x40110004 + 16 * i
def MONI_ALMLOw_ALM (i : Nat) : FieldRef := ⟨0x40110004 + 16 * i, 31, 0⟩
abbrev MONI_ALMHIw (i : Nat) : Nat := 0x40110008 + 16 * i
def MONI_ALMHIw_ALM (i : Nat) : FieldRef := ⟨0x40110008 + 16 * i, 31, 0⟩
abbrev MONI_mCFG (i : Nat) : Nat := 0x40111000 + 256 * i
def MONI_mCFG_KIND (i : Nat) : FieldRef := ⟨0x40111000 + 256 * i, 3, 0⟩
def MONI_mCFG_IDX (i : Nat) : FieldRef := ⟨0x40111000 + 256 * i, 11, 4⟩
def MONI_mCFG_LOG (i : Nat) : FieldRef := ⟨0x40111000 + 256 * i, 12, 12⟩
def MONI_mCFG_SH (i : Nat) : FieldRef := ⟨0x40111000 + 256 * i, 17, 13⟩
abbrev MONI_mLO (i : Nat) : Nat := 0x40111004 + 256 * i
def MONI_mLO_LO (i : Nat) : FieldRef := ⟨0x40111004 + 256 * i, 31, 0⟩
abbrev MONI_mSEAL (i : Nat) : Nat := 0x40111008 + 256 * i
def MONI_mSEAL_GO (i : Nat) : FieldRef := ⟨0x40111008 + 256 * i, 0, 0⟩
def MONI_mSEAL_ERR (i : Nat) : FieldRef := ⟨0x40111008 + 256 * i, 7, 4⟩
abbrev MONI_mCTRL (i : Nat) : Nat := 0x4011100C + 256 * i
def MONI_mCTRL_EN (i : Nat) : FieldRef := ⟨0x4011100C + 256 * i, 0, 0⟩
abbrev MONI_mALO (i : Nat) : Nat := 0x40111010 + 256 * i
def MONI_mALO_ALO (i : Nat) : FieldRef := ⟨0x40111010 + 256 * i, 31, 0⟩
abbrev MONI_mAHI (i : Nat) : Nat := 0x40111014 + 256 * i
def MONI_mAHI_AHI (i : Nat) : FieldRef := ⟨0x40111014 + 256 * i, 31, 0⟩
abbrev MONI_mPUT (i : Nat) : Nat := 0x40111018 + 256 * i
def MONI_mPUT_V (i : Nat) : FieldRef := ⟨0x40111018 + 256 * i, 31, 0⟩
abbrev MONI_mMIN (i : Nat) : Nat := 0x4011101C + 256 * i
def MONI_mMIN_MIN (i : Nat) : FieldRef := ⟨0x4011101C + 256 * i, 31, 0⟩
abbrev MONI_mMAX (i : Nat) : Nat := 0x40111020 + 256 * i
def MONI_mMAX_MAX (i : Nat) : FieldRef := ⟨0x40111020 + 256 * i, 31, 0⟩
abbrev MONI_mCNTLO (i : Nat) : Nat := 0x40111024 + 256 * i
def MONI_mCNTLO_COUNT (i : Nat) : FieldRef := ⟨0x40111024 + 256 * i, 31, 0⟩
abbrev MONI_mCNTHI (i : Nat) : Nat := 0x40111028 + 256 * i
def MONI_mCNTHI_COUNT (i : Nat) : FieldRef := ⟨0x40111028 + 256 * i, 31, 0⟩
abbrev MONI_mSMIN (i : Nat) : Nat := 0x4011102C + 256 * i
def MONI_mSMIN_SMIN (i : Nat) : FieldRef := ⟨0x4011102C + 256 * i, 31, 0⟩
abbrev MONI_mSMAX (i : Nat) : Nat := 0x40111030 + 256 * i
def MONI_mSMAX_SMAX (i : Nat) : FieldRef := ⟨0x40111030 + 256 * i, 31, 0⟩
abbrev MONI_mSCNTLO (i : Nat) : Nat := 0x40111034 + 256 * i
def MONI_mSCNTLO_SCOUNT (i : Nat) : FieldRef := ⟨0x40111034 + 256 * i, 31, 0⟩
abbrev MONI_mSCNTHI (i : Nat) : Nat := 0x40111038 + 256 * i
def MONI_mSCNTHI_SCOUNT (i : Nat) : FieldRef := ⟨0x40111038 + 256 * i, 31, 0⟩
abbrev MONI_mSBINb (i j : Nat) : Nat := 0x40111080 + 256 * i + 4 * j
def MONI_mSBINb_SBIN (i j : Nat) : FieldRef := ⟨0x40111080 + 256 * i + 4 * j, 31, 0⟩
/-! DIOP, spec/22_module_connectors_electrical.md R578. -/

abbrev DIOP_DINLO : Nat := 0x40120000
def DIOP_DINLO_DIN : FieldRef := ⟨0x40120000, 31, 0⟩
abbrev DIOP_DINHI : Nat := 0x40120004
def DIOP_DINHI_DIN : FieldRef := ⟨0x40120004, 15, 0⟩
abbrev DIOP_DIFILT : Nat := 0x40120008
def DIOP_DIFILT_DIFILT : FieldRef := ⟨0x40120008, 3, 0⟩
abbrev DIOP_DOUT : Nat := 0x40120010
def DIOP_DOUT_DOUT : FieldRef := ⟨0x40120010, 23, 0⟩
abbrev DIOP_DORB : Nat := 0x40120014
def DIOP_DORB_RB : FieldRef := ⟨0x40120014, 23, 0⟩
abbrev DIOP_DOFLT : Nat := 0x40120018
def DIOP_DOFLT_OVL : FieldRef := ⟨0x40120018, 23, 0⟩
abbrev DIOP_SAFE : Nat := 0x4012001C
def DIOP_SAFE_DOSAFE : FieldRef := ⟨0x4012001C, 23, 0⟩
abbrev DIOP_FORCED : Nat := 0x40120020
def DIOP_FORCED_FDO : FieldRef := ⟨0x40120020, 23, 0⟩
def DIOP_FORCED_HOLD : FieldRef := ⟨0x40120020, 24, 24⟩
def DIOP_FORCED_SOVR : FieldRef := ⟨0x40120020, 25, 25⟩
def DIOP_FORCED_GATED : FieldRef := ⟨0x40120020, 26, 26⟩
abbrev DIOP_PICFG : Nat := 0x40120024
def DIOP_PICFG_FWIN : FieldRef := ⟨0x40120024, 9, 0⟩
abbrev DIOP_PIp_CNT (i : Nat) : Nat := 0x40120100 + 8 * i
def DIOP_PIp_CNT_CNT (i : Nat) : FieldRef := ⟨0x40120100 + 8 * i, 31, 0⟩
abbrev DIOP_PIp_FREQ (i : Nat) : Nat := 0x40120104 + 8 * i
def DIOP_PIp_FREQ_FREQ (i : Nat) : FieldRef := ⟨0x40120104 + 8 * i, 31, 0⟩
abbrev DIOP_RST : Nat := 0x40120F00
def DIOP_RST_PART : FieldRef := ⟨0x40120F00, 3, 0⟩
def DIOP_RST_KIND : FieldRef := ⟨0x40120F00, 5, 4⟩
def DIOP_RST_GO : FieldRef := ⟨0x40120F00, 8, 8⟩
def DIOP_RST_REL : FieldRef := ⟨0x40120F00, 9, 9⟩
abbrev DIOP_RSTAT : Nat := 0x40120F04
def DIOP_RSTAT_PEND : FieldRef := ⟨0x40120F04, 0, 0⟩
def DIOP_RSTAT_WHOLD : FieldRef := ⟨0x40120F04, 1, 1⟩
def DIOP_RSTAT_LKIND : FieldRef := ⟨0x40120F04, 6, 4⟩
def DIOP_RSTAT_ERR : FieldRef := ⟨0x40120F04, 11, 8⟩
def DIOP_RSTAT_RCNT : FieldRef := ⟨0x40120F04, 31, 16⟩
abbrev DIOP_KREQ : Nat := 0x40120F08
def DIOP_KREQ_COLD : FieldRef := ⟨0x40120F08, 0, 0⟩
def DIOP_KREQ_KICK : FieldRef := ⟨0x40120F08, 1, 1⟩
def DIOP_KREQ_ERR : FieldRef := ⟨0x40120F08, 7, 4⟩
def DIOP_KREQ_SLOT : FieldRef := ⟨0x40120F08, 8, 8⟩
def DIOP_KREQ_NEWIMG : FieldRef := ⟨0x40120F08, 9, 9⟩
def DIOP_KREQ_KEY : FieldRef := ⟨0x40120F08, 31, 16⟩
/-! FEED, spec/22_module_connectors_electrical.md R571. -/

abbrev FEED_STAT : Nat := 0x40130000
def FEED_STAT_APRES : FieldRef := ⟨0x40130000, 0, 0⟩
def FEED_STAT_BPRES : FieldRef := ⟨0x40130000, 1, 1⟩
def FEED_STAT_AOOB : FieldRef := ⟨0x40130000, 2, 2⟩
def FEED_STAT_BOOB : FieldRef := ⟨0x40130000, 3, 3⟩
abbrev FEED_V : Nat := 0x40130004
def FEED_V_VA : FieldRef := ⟨0x40130004, 15, 0⟩
def FEED_V_VB : FieldRef := ⟨0x40130004, 31, 16⟩
abbrev FEED_CNT : Nat := 0x40130008
def FEED_CNT_ALOST : FieldRef := ⟨0x40130008, 7, 0⟩
def FEED_CNT_BLOST : FieldRef := ⟨0x40130008, 15, 8⟩
def FEED_CNT_OOB : FieldRef := ⟨0x40130008, 23, 16⟩
/-! EVNT, spec/02_programmers_model.md R81. -/

abbrev EVNT_ROUTEe (i : Nat) : Nat := 0x40140000 + 4 * i
def EVNT_ROUTEe_CORES (i : Nat) : FieldRef := ⟨0x40140000 + 4 * i, 15, 0⟩
abbrev EVNT_STAT : Nat := 0x40140400
def EVNT_STAT_NOSUP : FieldRef := ⟨0x40140400, 15, 0⟩
abbrev EVNT_nPENDw (i j : Nat) : Nat := 0x40141000 + 128 * i + 4 * j
def EVNT_nPENDw_PEND (i j : Nat) : FieldRef := ⟨0x40141000 + 128 * i + 4 * j, 31, 0⟩
abbrev EVNT_nMASKw (i j : Nat) : Nat := 0x40141020 + 128 * i + 4 * j
def EVNT_nMASKw_MASK (i j : Nat) : FieldRef := ⟨0x40141020 + 128 * i + 4 * j, 31, 0⟩
abbrev EVNT_nOVFw (i j : Nat) : Nat := 0x40141040 + 128 * i + 4 * j
def EVNT_nOVFw_OVF (i j : Nat) : FieldRef := ⟨0x40141040 + 128 * i + 4 * j, 31, 0⟩
/-! BNCH, spec/20_recorder_monitors_bench.md R552. -/

abbrev BNCH_CFG : Nat := 0x40150000
def BNCH_CFG_AUTO : FieldRef := ⟨0x40150000, 0, 0⟩
def BNCH_CFG_ROTHR : FieldRef := ⟨0x40150000, 15, 8⟩
def BNCH_CFG_ECCTHR : FieldRef := ⟨0x40150000, 23, 16⟩
def BNCH_CFG_RTHR : FieldRef := ⟨0x40150000, 27, 24⟩
def BNCH_CFG_RONTHR : FieldRef := ⟨0x40150000, 31, 28⟩
abbrev BNCH_REQ : Nat := 0x40150004
def BNCH_REQ_KIND : FieldRef := ⟨0x40150004, 3, 0⟩
def BNCH_REQ_UNIT : FieldRef := ⟨0x40150004, 19, 4⟩
def BNCH_REQ_GO : FieldRef := ⟨0x40150004, 31, 31⟩
abbrev BNCH_STAT : Nat := 0x40150008
def BNCH_STAT_PEND : FieldRef := ⟨0x40150008, 0, 0⟩
def BNCH_STAT_KIND : FieldRef := ⟨0x40150008, 4, 1⟩
def BNCH_STAT_UNIT : FieldRef := ⟨0x40150008, 20, 5⟩
def BNCH_STAT_NOSPARE : FieldRef := ⟨0x40150008, 21, 21⟩
def BNCH_STAT_ERR : FieldRef := ⟨0x40150008, 27, 24⟩
abbrev BNCH_RND : Nat := 0x4015000C
def BNCH_RND_ROUND : FieldRef := ⟨0x4015000C, 31, 0⟩
abbrev BNCH_MAPLO : Nat := 0x40150010
def BNCH_MAPLO_PHYS : FieldRef := ⟨0x40150010, 31, 0⟩
abbrev BNCH_MAPHI : Nat := 0x40150014
def BNCH_MAPHI_PHYS : FieldRef := ⟨0x40150014, 31, 0⟩
abbrev BNCH_SPARE : Nat := 0x40150018
def BNCH_SPARE_CORES : FieldRef := ⟨0x40150018, 1, 0⟩
def BNCH_SPARE_LANE : FieldRef := ⟨0x40150018, 2, 2⟩
def BNCH_SPARE_PLL : FieldRef := ⟨0x40150018, 3, 3⟩
def BNCH_SPARE_SROWS : FieldRef := ⟨0x40150018, 15, 8⟩
def BNCH_SPARE_SECT : FieldRef := ⟨0x40150018, 19, 16⟩
abbrev BNCH_COREc (i : Nat) : Nat := 0x40150100 + 4 * i
def BNCH_COREc_DRIFT (i : Nat) : FieldRef := ⟨0x40150100 + 4 * i, 15, 0⟩
def BNCH_COREc_WEAR (i : Nat) : FieldRef := ⟨0x40150100 + 4 * i, 16, 16⟩
def BNCH_COREc_RETIRED (i : Nat) : FieldRef := ⟨0x40150100 + 4 * i, 17, 17⟩
abbrev BNCH_DRVo (i : Nat) : Nat := 0x40150200 + 4 * i
def BNCH_DRVo_RONA (i : Nat) : FieldRef := ⟨0x40150200 + 4 * i, 7, 0⟩
def BNCH_DRVo_RONB (i : Nat) : FieldRef := ⟨0x40150200 + 4 * i, 15, 8⟩
def BNCH_DRVo_ACT (i : Nat) : FieldRef := ⟨0x40150200 + 4 * i, 16, 16⟩
def BNCH_DRVo_WEAR (i : Nat) : FieldRef := ⟨0x40150200 + 4 * i, 17, 17⟩

end Sys2Proof.Machine.R
end

