-- ==== Sys2Proof/Machine/RegTable.lean ====
section
/-! DEFINITION. The register tables of the 22 block windows: every register family with its fields' class, access, cold
value and warm behaviour (R11 to R15), and the seal group each sealed field belongs to (R7). -/

namespace Sys2Proof.Machine

/-- Field class (R6, R7, R10, R11). -/
inductive FClass where | live | sealed | banked | status
deriving DecidableEq, Repr

/-- Access code (R12). -/
inductive Access where | rw | ro | wo | w1c | rc
deriving DecidableEq, Repr

/-- The seal groups (R7). -/
inductive Grp where
  | tierJob
  | coreBind
  | fusaSbase
  | qmGen
  | loopOut
  | inj
  | cap
  | loopDesc
  | axis
  | can
  | metrBlk
  | metrGrp
  | metrTc
  | metrPo
  | adcs
  | safe
  | ethnPort
  | ethn
  | pair
  | pairR
  | moni
deriving DecidableEq, Repr

structure FieldDef where
  hi : Nat
  lo : Nat
  cls : FClass
  acc : Access
  cold : Nat
  keep : Bool
deriving DecidableEq, Repr

/-- A family of registers: element (i, j) stands at base + s1 * i + s2 * j. -/
structure RegFam where
  base : Nat
  n1 : Nat
  s1 : Nat
  n2 : Nat
  s2 : Nat
  wide : Bool
  grp : Option Grp
  fields : List FieldDef
deriving DecidableEq, Repr

def RegFam.bytes (f : RegFam) : Nat := if f.wide then 8 else 4

/-- Block TIER (spec/01_tiers_and_changeover.md R43). -/
def regTableTier : List RegFam := [
  ⟨0x40000000, 1, 65536, 1, 65536, false, none, [⟨31, 0, .status, .ro, 0, false⟩]⟩,
  ⟨0x40000004, 1, 65536, 1, 65536, false, none, [⟨31, 0, .status, .ro, 0, false⟩]⟩,
  ⟨0x40000008, 1, 65536, 1, 65536, false, none, [⟨3, 0, .status, .ro, 0, false⟩, ⟨10, 4, .status, .ro, 0, false⟩, ⟨17, 11, .status, .ro, 0, false⟩]⟩,
  ⟨0x4000000C, 1, 65536, 1, 65536, false, none, [⟨15, 0, .status, .ro, 0, false⟩, ⟨16, 16, .status, .ro, 0, false⟩]⟩,
  ⟨0x40000010, 1, 65536, 1, 65536, false, none, [⟨1, 0, .live, .rw, 0, false⟩, ⟨3, 2, .live, .rw, 0, false⟩]⟩,
  ⟨0x40000014, 1, 65536, 1, 65536, false, none, [⟨16, 0, .live, .rw, 0, false⟩]⟩,
  ⟨0x40000018, 1, 65536, 1, 65536, false, none, [⟨31, 0, .status, .ro, 0, false⟩]⟩,
  ⟨0x4000001C, 1, 65536, 1, 65536, false, none, [⟨0, 0, .status, .ro, 0, false⟩, ⟨1, 1, .status, .ro, 0, false⟩, ⟨2, 2, .status, .ro, 0, false⟩, ⟨31, 16, .status, .ro, 0, false⟩]⟩,
  ⟨0x40000100, 24, 4, 1, 4, false, none, [⟨12, 0, .status, .ro, 0, false⟩, ⟨20, 13, .status, .rc, 0, false⟩, ⟨28, 21, .status, .rc, 0, false⟩, ⟨29, 29, .status, .w1c, 0, false⟩]⟩,
  ⟨0x40001000, 128, 32, 1, 32, false, some .tierJob, [⟨1, 0, .sealed, .rw, 0, false⟩, ⟨11, 2, .sealed, .rw, 0, false⟩, ⟨21, 12, .sealed, .rw, 0, false⟩, ⟨23, 22, .sealed, .rw, 0, false⟩, ⟨27, 24, .sealed, .rw, 0, false⟩]⟩,
  ⟨0x40001004, 128, 32, 1, 32, false, some .tierJob, [⟨17, 0, .sealed, .rw, 0, false⟩]⟩,
  ⟨0x40001008, 128, 32, 1, 32, false, some .tierJob, [⟨18, 0, .sealed, .rw, 0, false⟩]⟩,
  ⟨0x4000100C, 128, 32, 1, 32, false, some .tierJob, [⟨0, 0, .status, .wo, 0, false⟩, ⟨7, 4, .status, .ro, 0, false⟩]⟩,
  ⟨0x40001010, 128, 32, 1, 32, false, none, [⟨0, 0, .live, .rw, 0, false⟩]⟩,
  ⟨0x40001014, 128, 32, 1, 32, false, none, [⟨0, 0, .status, .ro, 0, false⟩, ⟨1, 1, .status, .ro, 0, false⟩, ⟨2, 2, .status, .ro, 0, false⟩, ⟨3, 3, .status, .ro, 0, false⟩]⟩,
  ⟨0x40001018, 128, 32, 1, 32, false, none, [⟨15, 0, .status, .rc, 0, false⟩, ⟨31, 16, .status, .rc, 0, false⟩]⟩,
  ⟨0x4000101C, 128, 32, 1, 32, false, none, []⟩]

/-- Block CORE (spec/02_programmers_model.md R80). -/
def regTableCore : List RegFam := [
  ⟨0x40010000, 1, 65536, 1, 65536, false, none, [⟨15, 0, .status, .ro, 30719, true⟩, ⟨31, 16, .status, .ro, 34816, true⟩]⟩,
  ⟨0x40011000, 16, 256, 1, 256, false, some .coreBind, [⟨3, 0, .sealed, .rw, 0, false⟩]⟩,
  ⟨0x40011004, 16, 256, 1, 256, false, some .coreBind, [⟨13, 0, .sealed, .rw, 0, false⟩]⟩,
  ⟨0x40011008, 16, 256, 1, 256, false, some .coreBind, [⟨0, 0, .status, .wo, 0, false⟩, ⟨7, 4, .status, .ro, 0, false⟩]⟩,
  ⟨0x4001100C, 16, 256, 1, 256, false, none, [⟨13, 0, .banked, .rw, 0, false⟩, ⟨29, 16, .banked, .rw, 0, false⟩]⟩,
  ⟨0x40011010, 16, 256, 1, 256, false, none, [⟨2, 0, .status, .ro, 0, false⟩, ⟨3, 3, .status, .ro, 0, false⟩, ⟨4, 4, .status, .ro, 0, false⟩, ⟨12, 8, .status, .ro, 0, false⟩, ⟨15, 13, .status, .ro, 0, false⟩]⟩,
  ⟨0x40011014, 16, 256, 1, 256, false, none, [⟨3, 0, .status, .ro, 0, false⟩, ⟨4, 4, .status, .ro, 0, false⟩, ⟨10, 8, .status, .ro, 0, false⟩]⟩,
  ⟨0x40011018, 16, 256, 1, 256, false, none, [⟨15, 0, .status, .ro, 0, false⟩]⟩,
  ⟨0x4001101C, 16, 256, 1, 256, false, none, [⟨31, 0, .status, .ro, 0, false⟩]⟩,
  ⟨0x40011020, 16, 256, 1, 256, false, none, [⟨15, 0, .status, .rc, 0, false⟩, ⟨23, 16, .status, .rc, 0, true⟩, ⟨31, 24, .status, .rc, 0, true⟩]⟩]

/-- Block CMNS (spec/04_commons_and_checks.md R144). -/
def regTableCmns : List RegFam := [
  ⟨0x40020000, 1, 65536, 1, 65536, false, none, [⟨0, 0, .live, .rw, 1, false⟩, ⟨15, 8, .live, .rw, 16, false⟩]⟩,
  ⟨0x40020004, 1, 65536, 1, 65536, false, none, [⟨15, 0, .status, .rc, 0, true⟩, ⟨31, 16, .status, .rc, 0, true⟩]⟩,
  ⟨0x40020008, 1, 65536, 1, 65536, false, none, [⟨4, 0, .status, .rc, 0, false⟩]⟩,
  ⟨0x4002000C, 1, 65536, 1, 65536, false, none, [⟨22, 0, .status, .ro, 0, false⟩]⟩,
  ⟨0x40020010, 1, 65536, 1, 65536, false, none, [⟨4, 0, .status, .ro, 0, false⟩, ⟨8, 8, .status, .w1c, 0, false⟩]⟩,
  ⟨0x40020014, 1, 65536, 1, 65536, false, none, [⟨22, 0, .status, .ro, 0, false⟩]⟩,
  ⟨0x40020018, 1, 65536, 1, 65536, false, none, [⟨4, 0, .status, .ro, 0, false⟩, ⟨8, 8, .status, .ro, 0, false⟩]⟩,
  ⟨0x40020100, 32, 4, 1, 4, false, none, [⟨5, 0, .status, .ro, 0, true⟩, ⟨31, 16, .status, .rc, 0, true⟩]⟩,
  ⟨0x40020200, 4, 16, 1, 16, false, none, [⟨22, 0, .live, .rw, 0, false⟩]⟩,
  ⟨0x40020204, 4, 16, 1, 16, false, none, [⟨22, 0, .live, .rw, 0, false⟩]⟩,
  ⟨0x40020208, 4, 16, 1, 16, false, none, [⟨15, 0, .live, .rw, 0, false⟩]⟩,
  ⟨0x4002020C, 4, 16, 1, 16, false, none, [⟨1, 0, .status, .wo, 0, false⟩, ⟨4, 4, .status, .ro, 0, false⟩, ⟨11, 8, .status, .ro, 0, false⟩]⟩]

/-- Block SOLV (spec/07_solver_engine.md R239). -/
def regTableSolv : List RegFam := [
  ⟨0x40030000, 1, 65536, 1, 65536, false, none, [⟨1, 0, .live, .rw, 2, false⟩, ⟨15, 8, .live, .rw, 16, false⟩]⟩,
  ⟨0x40030004, 1, 65536, 1, 65536, false, none, [⟨4, 0, .status, .ro, 0, false⟩, ⟨9, 5, .status, .ro, 0, false⟩, ⟨10, 10, .status, .ro, 0, false⟩, ⟨13, 11, .status, .ro, 0, false⟩, ⟨16, 14, .status, .ro, 0, false⟩, ⟨19, 17, .status, .ro, 4, true⟩]⟩,
  ⟨0x40030008, 1, 65536, 1, 65536, false, none, [⟨15, 0, .status, .wo, 0, false⟩, ⟨16, 16, .status, .wo, 0, false⟩, ⟨17, 17, .status, .wo, 0, false⟩]⟩,
  ⟨0x4003000C, 1, 65536, 1, 65536, false, none, [⟨2, 0, .status, .ro, 0, false⟩, ⟨3, 3, .status, .ro, 0, false⟩, ⟨4, 4, .status, .ro, 0, false⟩, ⟨5, 5, .status, .ro, 0, false⟩, ⟨31, 8, .status, .ro, 0, false⟩]⟩,
  ⟨0x40030010, 1, 65536, 1, 65536, false, none, [⟨15, 0, .status, .rc, 0, true⟩, ⟨31, 16, .status, .rc, 0, true⟩]⟩,
  ⟨0x40030014, 1, 65536, 1, 65536, false, none, [⟨23, 0, .status, .ro, 0x800000, false⟩]⟩,
  ⟨0x40030018, 1, 65536, 1, 65536, false, none, [⟨21, 0, .status, .ro, 0x200000, false⟩]⟩,
  ⟨0x40030020, 5, 4, 1, 4, false, none, [⟨1, 0, .status, .ro, 0, true⟩, ⟨4, 2, .status, .ro, 0, true⟩, ⟨5, 5, .status, .w1c, 0, true⟩, ⟨15, 8, .status, .rc, 0, true⟩]⟩,
  ⟨0x40030100, 8, 64, 1, 64, false, none, [⟨2, 0, .status, .ro, 0, false⟩, ⟨3, 3, .status, .ro, 0, false⟩, ⟨4, 4, .status, .ro, 0, false⟩, ⟨6, 5, .status, .ro, 0, false⟩, ⟨7, 7, .status, .ro, 0, false⟩]⟩,
  ⟨0x40030104, 8, 64, 1, 64, false, none, [⟨18, 0, .status, .ro, 0, false⟩]⟩,
  ⟨0x40030108, 8, 64, 1, 64, false, none, [⟨23, 0, .status, .ro, 0, false⟩]⟩,
  ⟨0x4003010C, 8, 64, 1, 64, false, none, [⟨21, 0, .status, .ro, 0, false⟩]⟩,
  ⟨0x40030110, 8, 64, 1, 64, false, none, [⟨31, 0, .status, .ro, 0, false⟩]⟩,
  ⟨0x40030114, 8, 64, 1, 64, false, none, [⟨31, 0, .status, .ro, 0, false⟩]⟩,
  ⟨0x40030118, 8, 64, 1, 64, false, none, [⟨31, 0, .status, .ro, 0, false⟩]⟩,
  ⟨0x4003011C, 8, 64, 1, 64, false, none, [⟨31, 0, .status, .ro, 0, false⟩]⟩,
  ⟨0x40030120, 8, 64, 1, 64, false, none, [⟨31, 0, .status, .ro, 0, false⟩]⟩,
  ⟨0x40030124, 8, 64, 1, 64, false, none, [⟨31, 0, .status, .ro, 0, false⟩]⟩,
  ⟨0x40030128, 8, 64, 1, 64, false, none, [⟨17, 0, .status, .ro, 0, false⟩, ⟨31, 18, .status, .ro, 0, false⟩]⟩,
  ⟨0x4003012C, 8, 64, 5, 4, false, none, []⟩]

/-- Block FUSA (spec/06_state_fusion.md R196). -/
def regTableFusa : List RegFam := [
  ⟨0x40040000, 1, 65536, 1, 65536, false, none, [⟨0, 0, .live, .rw, 0, false⟩, ⟨10, 1, .live, .rw, 400, false⟩]⟩,
  ⟨0x40040004, 1, 65536, 1, 65536, false, some .fusaSbase, [⟨22, 0, .sealed, .rw, 0, false⟩]⟩,
  ⟨0x40040008, 1, 65536, 1, 65536, false, some .fusaSbase, [⟨0, 0, .status, .wo, 0, false⟩, ⟨7, 4, .status, .ro, 0, false⟩]⟩,
  ⟨0x4004000C, 1, 65536, 1, 65536, false, none, [⟨15, 0, .live, .rw, 4096, false⟩, ⟨31, 16, .live, .rw, 4096, false⟩]⟩,
  ⟨0x40040010, 1, 65536, 1, 65536, false, none, [⟨15, 0, .live, .rw, 4096, false⟩, ⟨23, 16, .live, .rw, 64, false⟩, ⟨31, 24, .live, .rw, 3, false⟩]⟩,
  ⟨0x40040014, 1, 65536, 1, 65536, false, none, [⟨7, 0, .live, .rw, 8, false⟩, ⟨15, 8, .live, .rw, 8, false⟩]⟩,
  ⟨0x40040018, 1, 65536, 1, 65536, false, none, [⟨0, 0, .status, .ro, 0, false⟩, ⟨1, 1, .status, .ro, 0, false⟩, ⟨7, 4, .status, .ro, 0, false⟩, ⟨16, 8, .status, .ro, 0, false⟩, ⟨26, 17, .status, .ro, 0, false⟩, ⟨27, 27, .status, .ro, 0, false⟩]⟩,
  ⟨0x4004001C, 1, 65536, 1, 65536, false, none, [⟨15, 0, .status, .rc, 0, false⟩, ⟨31, 16, .status, .rc, 0, false⟩]⟩,
  ⟨0x40040020, 1, 65536, 1, 65536, false, none, [⟨15, 0, .status, .rc, 0, false⟩, ⟨31, 16, .status, .rc, 0, false⟩]⟩,
  ⟨0x40040024, 1, 65536, 1, 65536, false, none, [⟨15, 0, .status, .rc, 0, false⟩, ⟨31, 16, .status, .rc, 0, false⟩]⟩,
  ⟨0x40040028, 1, 65536, 1, 65536, false, none, [⟨31, 0, .status, .ro, 0, false⟩]⟩,
  ⟨0x40040030, 1, 65536, 1, 65536, true, none, [⟨63, 0, .status, .wo, 0, false⟩]⟩,
  ⟨0x40040100, 2, 16, 1, 16, false, none, [⟨22, 0, .live, .rw, 0, false⟩]⟩,
  ⟨0x40040104, 2, 16, 1, 16, false, none, [⟨1, 0, .status, .wo, 0, false⟩, ⟨4, 4, .status, .ro, 0, false⟩, ⟨11, 8, .status, .ro, 0, false⟩]⟩,
  ⟨0x40044000, 4096, 8, 1, 8, false, none, [⟨31, 0, .live, .rw, 0, false⟩]⟩,
  ⟨0x40044004, 4096, 8, 1, 8, false, none, [⟨31, 0, .live, .rw, 0, false⟩]⟩,
  ⟨0x4004C000, 2, 16, 1, 16, false, some .qmGen, [⟨22, 0, .sealed, .rw, 0, false⟩]⟩,
  ⟨0x4004C004, 2, 16, 1, 16, false, some .qmGen, [⟨0, 0, .status, .wo, 0, false⟩, ⟨1, 1, .status, .ro, 0, false⟩, ⟨2, 2, .status, .ro, 0, false⟩, ⟨7, 4, .status, .ro, 0, false⟩]⟩,
  ⟨0x4004C008, 2, 16, 1, 16, false, none, [⟨2, 0, .status, .ro, 0, false⟩, ⟨15, 4, .status, .ro, 0, false⟩]⟩,
  ⟨0x4004C00C, 2, 16, 1, 16, false, none, []⟩,
  ⟨0x4004C020, 1, 65536, 1, 65536, false, none, [⟨0, 0, .banked, .rw, 0, false⟩, ⟨1, 1, .live, .rw, 1, false⟩, ⟨2, 2, .live, .rw, 1, false⟩]⟩,
  ⟨0x4004C024, 1, 65536, 1, 65536, false, none, [⟨0, 0, .status, .ro, 0, false⟩, ⟨1, 1, .status, .ro, 0, false⟩, ⟨2, 2, .status, .ro, 0, false⟩, ⟨3, 3, .status, .ro, 1, false⟩, ⟨4, 4, .status, .ro, 1, false⟩, ⟨31, 16, .status, .rc, 0, false⟩]⟩,
  ⟨0x4004C028, 1, 65536, 1, 65536, false, none, [⟨15, 0, .live, .rw, 100, false⟩]⟩,
  ⟨0x4004C02C, 1, 65536, 1, 65536, false, none, [⟨31, 0, .status, .ro, 0, false⟩]⟩]

/-- Block LOOP (spec/10_loop_engine.md R309). -/
def regTableLoop : List RegFam := [
  ⟨0x40050000, 1, 65536, 1, 65536, false, none, [⟨9, 0, .status, .ro, 0, false⟩, ⟨14, 10, .status, .ro, 0, false⟩, ⟨18, 15, .status, .ro, 0, false⟩]⟩,
  ⟨0x40050004, 1, 65536, 1, 65536, false, some .loopOut, [⟨17, 0, .sealed, .rw, 0, false⟩, ⟨26, 18, .sealed, .rw, 0, false⟩]⟩,
  ⟨0x40050008, 1, 65536, 1, 65536, false, some .loopOut, [⟨0, 0, .status, .wo, 0, false⟩, ⟨7, 4, .status, .ro, 0, false⟩]⟩,
  ⟨0x4005000C, 1, 65536, 1, 65536, false, none, [⟨8, 0, .status, .rw, 0, false⟩, ⟨13, 9, .status, .rw, 0, false⟩, ⟨18, 14, .status, .rw, 0, false⟩]⟩,
  ⟨0x40050010, 1, 65536, 1, 65536, false, none, [⟨31, 0, .status, .wo, 0, false⟩]⟩,
  ⟨0x40050014, 1, 65536, 1, 65536, false, none, [⟨7, 0, .status, .rc, 0, false⟩, ⟨23, 8, .status, .rc, 0, false⟩]⟩,
  ⟨0x40050018, 1, 65536, 1, 65536, false, none, [⟨8, 0, .status, .rw, 0, false⟩, ⟨9, 9, .status, .rw, 0, false⟩]⟩,
  ⟨0x4005001C, 1, 65536, 1, 65536, false, none, [⟨22, 0, .status, .wo, 0, false⟩]⟩,
  ⟨0x40050020, 1, 65536, 1, 65536, false, none, [⟨3, 0, .status, .ro, 0, false⟩, ⟨12, 4, .status, .ro, 0, false⟩, ⟨23, 16, .status, .rc, 0, false⟩]⟩,
  ⟨0x40050040, 16, 4, 1, 4, false, none, [⟨31, 0, .status, .w1c, 0, false⟩]⟩,
  ⟨0x40050400, 8, 32, 1, 32, false, some .inj, [⟨8, 0, .sealed, .rw, 0, false⟩, ⟨9, 9, .sealed, .rw, 0, false⟩, ⟨11, 10, .sealed, .rw, 0, false⟩, ⟨13, 12, .sealed, .rw, 0, false⟩, ⟨21, 14, .sealed, .rw, 1, false⟩, ⟨24, 22, .sealed, .rw, 0, false⟩, ⟨25, 25, .sealed, .rw, 0, false⟩]⟩,
  ⟨0x40050404, 8, 32, 1, 32, false, some .inj, [⟨31, 0, .sealed, .rw, 0, false⟩]⟩,
  ⟨0x40050408, 8, 32, 1, 32, false, some .inj, [⟨31, 0, .sealed, .rw, 0, false⟩]⟩,
  ⟨0x4005040C, 8, 32, 1, 32, false, some .inj, [⟨31, 0, .sealed, .rw, 0, false⟩]⟩,
  ⟨0x40050410, 8, 32, 1, 32, false, some .inj, [⟨23, 0, .sealed, .rw, 0, false⟩]⟩,
  ⟨0x40050414, 8, 32, 1, 32, false, some .inj, [⟨0, 0, .status, .wo, 0, false⟩, ⟨7, 4, .status, .ro, 0, false⟩]⟩,
  ⟨0x40050418, 8, 32, 1, 32, false, none, [⟨0, 0, .status, .wo, 0, false⟩, ⟨1, 1, .status, .wo, 0, false⟩]⟩,
  ⟨0x4005041C, 8, 32, 1, 32, false, none, [⟨0, 0, .status, .ro, 0, false⟩, ⟨2, 1, .status, .ro, 0, false⟩, ⟨31, 8, .status, .ro, 0, false⟩]⟩,
  ⟨0x40050600, 1, 65536, 1, 65536, false, some .cap, [⟨22, 0, .sealed, .rw, 0, false⟩]⟩,
  ⟨0x40050604, 1, 65536, 1, 65536, false, some .cap, [⟨16, 0, .sealed, .rw, 0, false⟩, ⟨18, 17, .sealed, .rw, 0, false⟩, ⟨19, 19, .sealed, .rw, 0, false⟩, ⟨28, 20, .sealed, .rw, 0, false⟩]⟩,
  ⟨0x40050608, 4, 4, 1, 4, false, some .cap, [⟨8, 0, .sealed, .rw, 0, false⟩, ⟨12, 9, .sealed, .rw, 0, false⟩]⟩,
  ⟨0x40050618, 1, 65536, 1, 65536, false, some .cap, [⟨0, 0, .status, .wo, 0, false⟩, ⟨7, 4, .status, .ro, 0, false⟩]⟩,
  ⟨0x4005061C, 1, 65536, 1, 65536, false, none, [⟨0, 0, .status, .wo, 0, false⟩, ⟨1, 1, .status, .wo, 0, false⟩]⟩,
  ⟨0x40050620, 1, 65536, 1, 65536, false, none, [⟨0, 0, .status, .ro, 0, false⟩, ⟨1, 1, .status, .ro, 0, false⟩, ⟨18, 2, .status, .ro, 0, false⟩]⟩,
  ⟨0x40058000, 512, 64, 1, 64, false, some .loopDesc, [⟨22, 0, .sealed, .rw, 0, false⟩]⟩,
  ⟨0x40058004, 512, 64, 1, 64, false, some .loopDesc, [⟨0, 0, .status, .wo, 0, false⟩, ⟨1, 1, .status, .ro, 0, false⟩, ⟨2, 2, .status, .ro, 0, false⟩, ⟨7, 4, .status, .ro, 0, false⟩]⟩,
  ⟨0x40058008, 512, 64, 1, 64, false, none, [⟨0, 0, .live, .rw, 0, false⟩, ⟨1, 1, .status, .wo, 0, false⟩]⟩,
  ⟨0x4005800C, 512, 64, 1, 64, false, none, [⟨0, 0, .banked, .rw, 0, false⟩]⟩,
  ⟨0x40058010, 512, 64, 1, 64, false, none, [⟨31, 0, .banked, .rw, 0, false⟩]⟩,
  ⟨0x40058014, 512, 64, 1, 64, false, none, [⟨31, 0, .banked, .rw, 0, false⟩]⟩,
  ⟨0x40058018, 512, 64, 1, 64, false, none, [⟨0, 0, .status, .wo, 0, false⟩, ⟨1, 1, .status, .ro, 0, false⟩, ⟨2, 2, .status, .ro, 0, false⟩]⟩,
  ⟨0x4005801C, 512, 64, 1, 64, false, none, [⟨0, 0, .status, .ro, 0, false⟩, ⟨1, 1, .status, .ro, 0, false⟩, ⟨2, 2, .status, .ro, 0, false⟩, ⟨3, 3, .status, .ro, 0, false⟩, ⟨5, 4, .status, .ro, 0, false⟩, ⟨6, 6, .status, .ro, 0, false⟩, ⟨7, 7, .status, .ro, 0, false⟩, ⟨8, 8, .status, .ro, 0, false⟩, ⟨9, 9, .status, .ro, 0, false⟩, ⟨10, 10, .status, .ro, 0, false⟩, ⟨11, 11, .status, .ro, 0, false⟩, ⟨12, 12, .status, .ro, 0, false⟩]⟩,
  ⟨0x40058020, 512, 64, 1, 64, false, none, [⟨31, 0, .status, .ro, 0, false⟩]⟩,
  ⟨0x40058024, 512, 64, 1, 64, false, none, [⟨31, 0, .status, .ro, 0, false⟩]⟩,
  ⟨0x40058028, 512, 64, 1, 64, false, none, [⟨31, 0, .status, .ro, 0, false⟩]⟩,
  ⟨0x4005802C, 512, 64, 1, 64, false, none, [⟨31, 0, .status, .ro, 0, false⟩]⟩,
  ⟨0x40058030, 512, 64, 1, 64, false, none, [⟨7, 0, .status, .rc, 0, false⟩, ⟨23, 8, .status, .rc, 0, false⟩, ⟨31, 24, .status, .rc, 0, false⟩]⟩,
  ⟨0x40058034, 512, 64, 3, 4, false, none, []⟩]

/-- Block AXIS (spec/11_valve_axes.md R327). -/
def regTableAxis : List RegFam := [
  ⟨0x40060000, 4, 16, 1, 16, false, none, [⟨31, 0, .status, .ro, 0, false⟩]⟩,
  ⟨0x40060004, 4, 16, 1, 16, false, none, [⟨15, 0, .status, .rc, 0, false⟩]⟩,
  ⟨0x40060100, 8, 128, 1, 128, false, some .axis, [⟨1, 0, .sealed, .rw, 0, false⟩, ⟨5, 2, .sealed, .rw, 8, false⟩, ⟨7, 6, .sealed, .rw, 0, false⟩, ⟨9, 8, .sealed, .rw, 1, false⟩, ⟨14, 10, .sealed, .rw, 0, false⟩, ⟨20, 15, .sealed, .rw, 0, false⟩, ⟨29, 21, .sealed, .rw, 256, false⟩, ⟨30, 30, .sealed, .rw, 0, false⟩]⟩,
  ⟨0x40060104, 8, 128, 1, 128, false, some .axis, [⟨7, 0, .sealed, .rw, 40, false⟩, ⟨13, 8, .sealed, .rw, 10, false⟩, ⟨17, 14, .sealed, .rw, 4, false⟩, ⟨25, 18, .sealed, .rw, 50, false⟩]⟩,
  ⟨0x40060108, 8, 128, 1, 128, false, some .axis, [⟨0, 0, .status, .wo, 0, false⟩, ⟨7, 4, .status, .ro, 0, false⟩]⟩,
  ⟨0x4006010C, 8, 128, 1, 128, false, none, [⟨0, 0, .live, .rw, 0, false⟩, ⟨1, 1, .status, .wo, 0, false⟩, ⟨2, 2, .status, .wo, 0, false⟩]⟩,
  ⟨0x40060110, 8, 128, 1, 128, false, none, [⟨31, 0, .live, .rw, 0, false⟩]⟩,
  ⟨0x40060114, 8, 128, 1, 128, false, none, [⟨31, 0, .status, .wo, 0, false⟩]⟩,
  ⟨0x40060118, 8, 128, 1, 128, false, some .axis, [⟨31, 0, .sealed, .rw, 0, false⟩]⟩,
  ⟨0x4006011C, 8, 128, 1, 128, false, none, [⟨15, 0, .banked, .rw, 4096, false⟩, ⟨31, 16, .banked, .rw, 64, false⟩]⟩,
  ⟨0x40060120, 8, 128, 1, 128, false, none, [⟨7, 0, .banked, .rw, 64, false⟩, ⟨15, 8, .banked, .rw, 128, false⟩, ⟨23, 16, .banked, .rw, 192, false⟩, ⟨31, 24, .banked, .rw, 8, false⟩]⟩,
  ⟨0x40060124, 8, 128, 1, 128, false, none, [⟨7, 0, .banked, .rw, 64, false⟩, ⟨15, 8, .banked, .rw, 160, false⟩, ⟨23, 16, .banked, .rw, 8, false⟩, ⟨31, 24, .banked, .rw, 100, false⟩]⟩,
  ⟨0x40060128, 8, 128, 1, 128, false, none, [⟨31, 0, .banked, .rw, 0x80000000, false⟩]⟩,
  ⟨0x4006012C, 8, 128, 1, 128, false, none, [⟨31, 0, .banked, .rw, 0x7fffffff, false⟩]⟩,
  ⟨0x40060130, 8, 128, 1, 128, false, none, [⟨31, 0, .banked, .rw, 0, false⟩]⟩,
  ⟨0x40060134, 8, 128, 1, 128, false, none, [⟨31, 0, .banked, .rw, 0, false⟩]⟩,
  ⟨0x40060138, 8, 128, 1, 128, false, none, [⟨31, 0, .banked, .rw, 0, false⟩]⟩,
  ⟨0x4006013C, 8, 128, 1, 128, false, none, [⟨31, 0, .banked, .rw, 0, false⟩]⟩,
  ⟨0x40060140, 8, 128, 1, 128, false, none, [⟨31, 0, .status, .ro, 0, false⟩]⟩,
  ⟨0x40060144, 8, 128, 1, 128, false, none, [⟨0, 0, .status, .ro, 0, false⟩, ⟨1, 1, .status, .ro, 0, false⟩, ⟨2, 2, .status, .ro, 0, false⟩, ⟨3, 3, .status, .ro, 0, false⟩, ⟨4, 4, .status, .ro, 0, false⟩, ⟨5, 5, .status, .ro, 0, false⟩, ⟨6, 6, .status, .ro, 0, false⟩, ⟨7, 7, .status, .ro, 0, false⟩, ⟨10, 8, .status, .ro, 0, false⟩, ⟨23, 16, .status, .ro, 0, false⟩, ⟨31, 24, .status, .ro, 0, false⟩]⟩,
  ⟨0x40060148, 8, 128, 1, 128, false, none, [⟨0, 0, .status, .w1c, 0, false⟩, ⟨1, 1, .status, .w1c, 0, false⟩, ⟨2, 2, .status, .w1c, 0, false⟩, ⟨3, 3, .status, .w1c, 0, false⟩, ⟨4, 4, .status, .w1c, 0, false⟩, ⟨5, 5, .status, .w1c, 0, false⟩]⟩,
  ⟨0x4006014C, 8, 128, 1, 128, false, none, [⟨7, 0, .status, .rc, 0, false⟩, ⟨15, 8, .status, .rc, 0, false⟩, ⟨23, 16, .status, .rc, 0, false⟩]⟩,
  ⟨0x40060150, 8, 128, 12, 4, false, none, []⟩]

/-- Block CANB (spec/13_substation_bus.md R374). -/
def regTableCanb : List RegFam := [
  ⟨0x40070000, 1, 65536, 1, 65536, false, none, [⟨15, 0, .status, .rc, 0, false⟩, ⟨31, 16, .status, .rc, 0, false⟩]⟩,
  ⟨0x40070004, 1, 65536, 1, 65536, false, none, [⟨19, 0, .status, .ro, 0, false⟩]⟩,
  ⟨0x40071000, 16, 1024, 1, 1024, false, some .can, [⟨0, 0, .sealed, .rw, 0, false⟩, ⟨1, 1, .sealed, .rw, 0, false⟩, ⟨29, 16, .sealed, .rw, 0, false⟩]⟩,
  ⟨0x40071004, 16, 1024, 1, 1024, false, some .can, [⟨8, 0, .sealed, .rw, 0, false⟩, ⟨16, 9, .sealed, .rw, 0, false⟩, ⟨23, 17, .sealed, .rw, 0, false⟩, ⟨30, 24, .sealed, .rw, 0, false⟩]⟩,
  ⟨0x40071008, 16, 1024, 1, 1024, false, some .can, [⟨4, 0, .sealed, .rw, 0, false⟩, ⟨9, 5, .sealed, .rw, 0, false⟩, ⟨13, 10, .sealed, .rw, 0, false⟩, ⟨17, 14, .sealed, .rw, 0, false⟩, ⟨18, 18, .sealed, .rw, 0, false⟩, ⟨25, 19, .sealed, .rw, 0, false⟩]⟩,
  ⟨0x4007100C, 16, 1024, 1, 1024, false, some .can, [⟨12, 0, .sealed, .rw, 0, false⟩, ⟨26, 13, .sealed, .rw, 0, false⟩]⟩,
  ⟨0x40071010, 16, 1024, 1, 1024, false, some .can, [⟨22, 0, .sealed, .rw, 0, false⟩]⟩,
  ⟨0x40071014, 16, 1024, 1, 1024, false, some .can, [⟨0, 0, .status, .wo, 0, false⟩, ⟨1, 1, .status, .ro, 0, false⟩, ⟨2, 2, .status, .ro, 0, false⟩, ⟨7, 4, .status, .ro, 0, false⟩]⟩,
  ⟨0x40071018, 16, 1024, 1, 1024, false, none, [⟨0, 0, .live, .rw, 0, false⟩, ⟨1, 1, .live, .rw, 0, false⟩, ⟨2, 2, .status, .wo, 0, false⟩]⟩,
  ⟨0x4007101C, 16, 1024, 1, 1024, false, none, [⟨12, 0, .status, .wo, 0, false⟩, ⟨13, 13, .status, .wo, 0, false⟩]⟩,
  ⟨0x40071020, 16, 1024, 1, 1024, false, none, [⟨12, 0, .status, .wo, 0, false⟩]⟩,
  ⟨0x40071024, 16, 1024, 1, 1024, false, none, [⟨1, 0, .status, .ro, 3, false⟩, ⟨2, 2, .status, .ro, 0, false⟩, ⟨3, 3, .status, .ro, 0, false⟩, ⟨7, 4, .status, .ro, 0, false⟩, ⟨15, 8, .status, .ro, 0, false⟩, ⟨22, 16, .status, .ro, 0, false⟩, ⟨23, 23, .status, .ro, 0, false⟩]⟩,
  ⟨0x40071028, 16, 1024, 1, 1024, false, none, [⟨15, 0, .status, .rc, 0, false⟩, ⟨31, 16, .status, .rc, 0, false⟩]⟩,
  ⟨0x4007102C, 16, 1024, 1, 1024, false, none, [⟨7, 0, .status, .rc, 0, false⟩, ⟨15, 8, .status, .rc, 0, false⟩, ⟨23, 16, .status, .rc, 0, false⟩, ⟨31, 24, .status, .rc, 0, false⟩]⟩,
  ⟨0x40071030, 16, 1024, 1, 1024, false, none, [⟨15, 0, .status, .ro, 0, false⟩, ⟨28, 16, .status, .ro, 0, false⟩]⟩,
  ⟨0x40071034, 16, 1024, 1, 1024, false, none, [⟨31, 0, .status, .ro, 0, false⟩]⟩,
  ⟨0x40071038, 16, 1024, 1, 1024, false, none, [⟨0, 0, .status, .w1c, 0, false⟩, ⟨1, 1, .status, .w1c, 0, false⟩, ⟨2, 2, .status, .w1c, 0, false⟩, ⟨3, 3, .status, .w1c, 0, false⟩, ⟨4, 4, .status, .w1c, 0, false⟩, ⟨5, 5, .status, .w1c, 0, false⟩, ⟨6, 6, .status, .w1c, 0, false⟩, ⟨7, 7, .status, .w1c, 0, false⟩, ⟨8, 8, .status, .w1c, 0, false⟩, ⟨9, 9, .status, .w1c, 0, false⟩]⟩,
  ⟨0x4007103C, 16, 1024, 1, 1024, false, none, [⟨7, 0, .status, .rc, 0, false⟩, ⟨15, 8, .status, .rc, 0, false⟩, ⟨23, 16, .status, .rc, 0, false⟩, ⟨31, 24, .status, .rc, 0, false⟩]⟩,
  ⟨0x40071040, 16, 1024, 1, 1024, false, none, [⟨31, 0, .status, .ro, 0, false⟩]⟩,
  ⟨0x40071044, 16, 1024, 1, 1024, false, none, [⟨31, 0, .status, .ro, 0, false⟩]⟩,
  ⟨0x40071080, 16, 1024, 16, 4, false, none, [⟨31, 0, .status, .ro, 0, false⟩]⟩,
  ⟨0x40071100, 16, 1024, 64, 4, false, some .can, [⟨12, 0, .sealed, .rw, 0, false⟩, ⟨28, 13, .sealed, .rw, 0, false⟩, ⟨29, 29, .sealed, .rw, 0, false⟩, ⟨30, 30, .sealed, .rw, 0, false⟩]⟩]

/-- Block METR (spec/14_metering.md R404). -/
def regTableMetr0 : List RegFam := [
  ⟨0x40080000, 1, 65536, 1, 65536, false, none, [⟨0, 0, .live, .rw, 0, false⟩, ⟨1, 1, .live, .rw, 1, false⟩, ⟨2, 2, .status, .wo, 0, false⟩, ⟨3, 3, .status, .wo, 0, false⟩]⟩,
  ⟨0x40080004, 1, 65536, 1, 65536, false, none, [⟨0, 0, .status, .ro, 0, false⟩, ⟨3, 1, .status, .ro, 0, false⟩, ⟨4, 4, .status, .ro, 0, false⟩]⟩,
  ⟨0x40080008, 1, 65536, 1, 65536, false, some .metrBlk, [⟨17, 0, .sealed, .rw, 0, false⟩]⟩,
  ⟨0x4008000C, 1, 65536, 1, 65536, false, some .metrBlk, [⟨23, 0, .sealed, .rw, 0, false⟩]⟩,
  ⟨0x40080010, 1, 65536, 1, 65536, false, some .metrBlk, [⟨0, 0, .status, .wo, 0, false⟩, ⟨7, 4, .status, .ro, 0, false⟩]⟩,
  ⟨0x40080014, 1, 65536, 1, 65536, false, none, [⟨0, 0, .status, .ro, 0, false⟩, ⟨1, 1, .status, .ro, 0, false⟩, ⟨15, 8, .status, .rc, 0, false⟩]⟩,
  ⟨0x40080018, 1, 65536, 1, 65536, false, none, [⟨31, 0, .status, .ro, 0, false⟩]⟩,
  ⟨0x4008001C, 1, 65536, 1, 65536, false, none, [⟨31, 0, .status, .w1c, 0, false⟩]⟩,
  ⟨0x40080020, 1, 65536, 1, 65536, false, none, [⟨31, 0, .status, .ro, 0, false⟩]⟩,
  ⟨0x40080024, 1, 65536, 1, 65536, false, none, [⟨15, 0, .live, .rw, 0, false⟩]⟩,
  ⟨0x40080028, 1, 65536, 1, 65536, false, none, [⟨15, 0, .status, .w1c, 0, false⟩]⟩,
  ⟨0x40080100, 4, 512, 1, 512, false, some .metrGrp, [⟨9, 0, .sealed, .rw, 200, false⟩, ⟨16, 10, .sealed, .rw, 10, false⟩, ⟨22, 17, .sealed, .rw, 0, false⟩]⟩,
  ⟨0x40080104, 4, 512, 1, 512, false, some .metrGrp, [⟨23, 0, .sealed, .rw, 0, false⟩]⟩,
  ⟨0x40080108, 4, 512, 1, 512, false, some .metrGrp, [⟨0, 0, .status, .wo, 0, false⟩, ⟨7, 4, .status, .ro, 0, false⟩]⟩,
  ⟨0x4008010C, 4, 512, 1, 512, false, none, [⟨0, 0, .live, .rw, 0, false⟩, ⟨1, 1, .status, .wo, 0, false⟩]⟩,
  ⟨0x40080110, 4, 512, 1, 512, false, none, [⟨0, 0, .status, .ro, 0, false⟩, ⟨1, 1, .status, .ro, 0, false⟩, ⟨4, 2, .status, .ro, 0, false⟩, ⟨5, 5, .status, .ro, 0, false⟩]⟩,
  ⟨0x40080114, 4, 512, 1, 512, false, none, [⟨0, 0, .status, .w1c, 0, false⟩, ⟨1, 1, .status, .w1c, 0, false⟩, ⟨2, 2, .status, .w1c, 0, false⟩, ⟨3, 3, .status, .w1c, 0, false⟩]⟩,
  ⟨0x40080118, 4, 512, 1, 512, false, none, [⟨4, 0, .banked, .rw, 0, false⟩, ⟨9, 5, .banked, .rw, 0, false⟩, ⟨14, 10, .banked, .rw, 0, false⟩, ⟨19, 15, .banked, .rw, 0, false⟩, ⟨24, 20, .banked, .rw, 0, false⟩, ⟨29, 25, .banked, .rw, 0, false⟩]⟩,
  ⟨0x4008011C, 4, 512, 1, 512, false, none, [⟨4, 0, .banked, .rw, 0, false⟩]⟩,
  ⟨0x40080120, 4, 512, 7, 8, false, none, [⟨27, 0, .banked, .rw, 0, false⟩, ⟨31, 28, .banked, .rw, 0, false⟩]⟩,
  ⟨0x40080124, 4, 512, 7, 8, false, none, [⟨31, 0, .banked, .rw, 0, false⟩]⟩,
  ⟨0x40080160, 4, 512, 3, 64, false, none, [⟨31, 0, .banked, .rw, 0x40000000, false⟩]⟩,
  ⟨0x40080164, 4, 512, 3, 64, false, none, [⟨31, 0, .banked, .rw, 0, false⟩]⟩,
  ⟨0x40080168, 4, 512, 3, 64, false, none, [⟨31, 0, .banked, .rw, 0x40000000, false⟩]⟩,
  ⟨0x4008016C, 4, 512, 3, 64, false, none, [⟨31, 0, .banked, .rw, 0, false⟩]⟩,
  ⟨0x40080170, 4, 512, 3, 64, false, none, [⟨31, 0, .banked, .rw, 0x40000000, false⟩]⟩,
  ⟨0x40080174, 4, 512, 3, 64, false, none, [⟨31, 0, .banked, .rw, 0, false⟩]⟩,
  ⟨0x40080178, 4, 512, 3, 64, false, none, [⟨31, 0, .banked, .rw, 0x40000000, false⟩]⟩,
  ⟨0x4008017C, 4, 512, 3, 64, false, none, [⟨31, 0, .banked, .rw, 0, false⟩]⟩,
  ⟨0x40080180, 4, 512, 3, 64, false, none, [⟨31, 0, .banked, .rw, 0x40000000, false⟩]⟩,
  ⟨0x40080184, 4, 512, 3, 64, false, none, [⟨31, 0, .banked, .rw, 0, false⟩]⟩,
  ⟨0x40080188, 4, 512, 3, 64, false, none, [⟨31, 0, .banked, .rw, 0, false⟩]⟩,
  ⟨0x4008018C, 4, 512, 3, 64, false, none, [⟨31, 0, .banked, .rw, 0, false⟩]⟩,
  ⟨0x40081000, 8, 64, 1, 64, false, some .metrTc, [⟨1, 0, .sealed, .rw, 1, false⟩, ⟨2, 2, .sealed, .rw, 0, false⟩, ⟨3, 3, .sealed, .rw, 0, false⟩, ⟨5, 4, .sealed, .rw, 0, false⟩, ⟨6, 6, .sealed, .rw, 0, false⟩, ⟨11, 7, .sealed, .rw, 16, false⟩, ⟨19, 12, .sealed, .rw, 20, false⟩]⟩,
  ⟨0x40081004, 8, 64, 1, 64, false, some .metrTc, [⟨4, 0, .sealed, .rw, 0, false⟩, ⟨10, 5, .sealed, .rw, 0, false⟩, ⟨16, 11, .sealed, .rw, 0, false⟩, ⟨20, 17, .sealed, .rw, 0, false⟩, ⟨24, 21, .sealed, .rw, 0, false⟩]⟩,
  ⟨0x40081008, 8, 64, 1, 64, false, some .metrTc, [⟨31, 0, .sealed, .rw, 0, false⟩]⟩,
  ⟨0x4008100C, 8, 64, 1, 64, false, some .metrTc, [⟨31, 0, .sealed, .rw, 0, false⟩]⟩,
  ⟨0x40081010, 8, 64, 1, 64, false, some .metrTc, [⟨31, 0, .sealed, .rw, 0, false⟩]⟩,
  ⟨0x40081014, 8, 64, 1, 64, false, some .metrTc, [⟨0, 0, .status, .wo, 0, false⟩, ⟨7, 4, .status, .ro, 0, false⟩]⟩,
  ⟨0x40081018, 8, 64, 1, 64, false, none, [⟨0, 0, .live, .rw, 0, false⟩]⟩]

def regTableMetr1 : List RegFam := [
  ⟨0x4008101C, 8, 64, 1, 64, false, none, [⟨0, 0, .status, .ro, 0, false⟩, ⟨1, 1, .status, .ro, 0, false⟩, ⟨2, 2, .status, .ro, 0, false⟩, ⟨3, 3, .status, .ro, 0, false⟩, ⟨15, 8, .status, .rc, 0, false⟩, ⟨23, 16, .status, .rc, 0, false⟩, ⟨31, 24, .status, .rc, 0, false⟩]⟩,
  ⟨0x40081020, 8, 64, 1, 64, false, none, [⟨0, 0, .status, .w1c, 0, false⟩, ⟨1, 1, .status, .w1c, 0, false⟩, ⟨2, 2, .status, .w1c, 0, false⟩, ⟨3, 3, .status, .w1c, 0, false⟩, ⟨4, 4, .status, .w1c, 0, false⟩]⟩,
  ⟨0x40081400, 16, 16, 1, 16, false, some .metrPo, [⟨7, 0, .sealed, .rw, 0, false⟩, ⟨16, 8, .sealed, .rw, 30, false⟩]⟩,
  ⟨0x40081404, 16, 16, 1, 16, false, some .metrPo, [⟨31, 0, .sealed, .rw, 0, false⟩]⟩,
  ⟨0x40081408, 16, 16, 1, 16, false, some .metrPo, [⟨0, 0, .status, .wo, 0, false⟩, ⟨7, 4, .status, .ro, 0, false⟩]⟩,
  ⟨0x4008140C, 16, 16, 1, 16, false, none, [⟨15, 0, .status, .ro, 0, false⟩, ⟨23, 16, .status, .rc, 0, false⟩, ⟨31, 24, .status, .rc, 0, false⟩]⟩,
  ⟨0x40082000, 192, 8, 1, 8, true, none, [⟨63, 0, .status, .ro, 0, false⟩]⟩,
  ⟨0x40083000, 192, 8, 1, 8, true, none, [⟨31, 0, .status, .ro, 0, false⟩, ⟨39, 32, .status, .ro, 0, false⟩, ⟨40, 40, .status, .ro, 0, false⟩]⟩]

def regTableMetr : List RegFam := regTableMetr0 ++ regTableMetr1

/-- Block ADCS (spec/15_analogue_inputs.md R421). -/
def regTableAdcs : List RegFam := [
  ⟨0x40090000, 1, 65536, 1, 65536, false, none, [⟨0, 0, .live, .rw, 0, false⟩, ⟨1, 1, .live, .rw, 0, false⟩, ⟨2, 2, .status, .wo, 0, false⟩, ⟨3, 3, .status, .wo, 0, false⟩]⟩,
  ⟨0x40090004, 1, 65536, 1, 65536, false, none, [⟨0, 0, .status, .ro, 0, false⟩, ⟨1, 1, .status, .ro, 0, false⟩]⟩,
  ⟨0x40090008, 1, 65536, 1, 65536, false, some .adcs, [⟨0, 0, .status, .wo, 0, false⟩, ⟨7, 4, .status, .ro, 0, false⟩]⟩,
  ⟨0x4009000C, 1, 65536, 1, 65536, false, some .adcs, [⟨17, 0, .sealed, .rw, 0, false⟩]⟩,
  ⟨0x40090010, 1, 65536, 1, 65536, false, some .adcs, [⟨6, 0, .sealed, .rw, 0, false⟩, ⟨14, 8, .sealed, .rw, 0, false⟩]⟩,
  ⟨0x40090014, 1, 65536, 1, 65536, false, none, [⟨5, 0, .status, .wo, 0, false⟩, ⟨6, 6, .status, .wo, 0, false⟩]⟩,
  ⟨0x40090018, 1, 65536, 1, 65536, false, none, [⟨15, 0, .status, .rc, 0, false⟩, ⟨23, 16, .status, .rc, 0, false⟩]⟩,
  ⟨0x4009001C, 1, 65536, 1, 65536, false, none, [⟨5, 0, .status, .wo, 0, false⟩, ⟨6, 6, .status, .wo, 0, false⟩, ⟨9, 8, .status, .wo, 0, false⟩, ⟨14, 10, .status, .wo, 0, false⟩]⟩,
  ⟨0x40090020, 1, 65536, 1, 65536, false, none, [⟨31, 0, .status, .rw, 0, false⟩]⟩,
  ⟨0x40090024, 1, 65536, 1, 65536, false, none, [⟨0, 0, .status, .ro, 0, false⟩, ⟨1, 1, .status, .ro, 0, false⟩, ⟨2, 2, .status, .ro, 0, false⟩, ⟨7, 4, .status, .ro, 0, false⟩, ⟨8, 8, .status, .ro, 0, false⟩]⟩,
  ⟨0x40090028, 1, 65536, 1, 65536, false, some .adcs, [⟨23, 0, .sealed, .rw, 0, false⟩]⟩,
  ⟨0x4009002C, 1, 65536, 1, 65536, false, none, [⟨5, 0, .status, .wo, 0, false⟩]⟩,
  ⟨0x40090030, 1, 65536, 1, 65536, false, none, [⟨31, 0, .status, .w1c, 0, false⟩]⟩,
  ⟨0x40090034, 1, 65536, 1, 65536, false, none, [⟨27, 0, .status, .w1c, 0, false⟩]⟩,
  ⟨0x40090038, 1, 65536, 1, 65536, false, none, [⟨31, 0, .status, .wo, 0, false⟩]⟩,
  ⟨0x4009003C, 1, 65536, 1, 65536, false, none, [⟨31, 0, .status, .wo, 0, false⟩]⟩,
  ⟨0x40090100, 60, 4, 1, 4, false, some .adcs, [⟨0, 0, .sealed, .rw, 0, false⟩, ⟨1, 1, .sealed, .rw, 0, false⟩]⟩,
  ⟨0x40090200, 2, 256, 64, 4, false, some .adcs, [⟨5, 0, .sealed, .rw, 0, false⟩, ⟨15, 6, .sealed, .rw, 0, false⟩, ⟨25, 16, .sealed, .rw, 0, false⟩]⟩,
  ⟨0x40090400, 60, 8, 1, 8, true, none, [⟨47, 0, .status, .ro, 0, false⟩, ⟨63, 48, .status, .ro, 0, false⟩]⟩,
  ⟨0x40090800, 60, 8, 1, 8, true, none, [⟨31, 0, .status, .ro, 0x7fffffff, false⟩, ⟨63, 32, .status, .ro, 0x80000000, false⟩]⟩,
  ⟨0x40090C00, 60, 8, 1, 8, false, none, [⟨31, 0, .live, .rw, 0x80000000, false⟩]⟩,
  ⟨0x40090C04, 60, 8, 1, 8, false, none, [⟨31, 0, .live, .rw, 0x7fffffff, false⟩]⟩,
  ⟨0x40091000, 96, 8, 1, 8, false, none, [⟨31, 0, .banked, .rw, 0, false⟩]⟩,
  ⟨0x40091004, 96, 8, 1, 8, false, none, [⟨31, 0, .banked, .rw, 0, false⟩]⟩]

/-- Block SAFE (spec/16_safety_channel.md R444). -/
def regTableSafe : List RegFam := [
  ⟨0x400A0000, 1, 65536, 1, 65536, false, none, [⟨0, 0, .status, .wo, 0, false⟩, ⟨15, 8, .status, .wo, 0, false⟩, ⟨31, 16, .status, .wo, 0, false⟩]⟩,
  ⟨0x400A0004, 1, 65536, 1, 65536, false, none, [⟨1, 0, .status, .ro, 0, false⟩, ⟨7, 4, .status, .ro, 0, false⟩, ⟨12, 8, .status, .ro, 15, false⟩, ⟨13, 13, .status, .ro, 0, false⟩]⟩,
  ⟨0x400A0008, 1, 65536, 1, 65536, false, some .safe, [⟨17, 0, .sealed, .rw, 28800, false⟩, ⟨18, 18, .sealed, .rw, 0, false⟩]⟩,
  ⟨0x400A000C, 1, 65536, 1, 65536, false, some .safe, [⟨0, 0, .status, .wo, 0, false⟩, ⟨7, 4, .status, .ro, 0, false⟩]⟩,
  ⟨0x400A0010, 1, 65536, 1, 65536, false, none, [⟨8, 0, .status, .ro, 0, false⟩]⟩,
  ⟨0x400A0014, 1, 65536, 1, 65536, false, none, [⟨12, 0, .status, .ro, 0, false⟩]⟩,
  ⟨0x400A0018, 1, 65536, 1, 65536, false, none, [⟨17, 0, .status, .ro, 0, false⟩]⟩,
  ⟨0x400A001C, 1, 65536, 1, 65536, false, some .safe, [⟨23, 0, .sealed, .rw, 0, false⟩, ⟨31, 24, .sealed, .rw, 0, false⟩]⟩,
  ⟨0x400A0020, 1, 65536, 1, 65536, false, some .safe, [⟨15, 0, .sealed, .rw, 0, false⟩]⟩,
  ⟨0x400A0024, 1, 65536, 1, 65536, false, none, [⟨23, 0, .live, .rw, 0, false⟩, ⟨31, 24, .live, .rw, 0, false⟩]⟩,
  ⟨0x400A0028, 1, 65536, 1, 65536, false, none, [⟨15, 0, .live, .rw, 0, false⟩]⟩,
  ⟨0x400A002C, 1, 65536, 1, 65536, false, some .safe, [⟨11, 0, .sealed, .rw, 0, false⟩]⟩,
  ⟨0x400A0030, 1, 65536, 1, 65536, false, none, [⟨7, 0, .live, .rw, 0, false⟩]⟩,
  ⟨0x400A0034, 1, 65536, 1, 65536, false, none, [⟨7, 0, .live, .rw, 0, false⟩]⟩,
  ⟨0x400A0038, 1, 65536, 1, 65536, false, none, [⟨15, 0, .status, .ro, 0, false⟩, ⟨31, 16, .status, .ro, 0, false⟩]⟩,
  ⟨0x400A003C, 1, 65536, 1, 65536, false, none, [⟨7, 0, .status, .ro, 0, false⟩, ⟨15, 8, .status, .ro, 0, false⟩, ⟨23, 16, .status, .ro, 0, false⟩, ⟨31, 24, .status, .ro, 0, false⟩]⟩,
  ⟨0x400A0040, 1, 65536, 1, 65536, false, some .safe, [⟨16, 0, .sealed, .rw, 10000, false⟩, ⟨20, 17, .sealed, .rw, 5, false⟩]⟩,
  ⟨0x400A0044, 1, 65536, 1, 65536, false, none, [⟨15, 0, .status, .rc, 0, false⟩, ⟨23, 16, .status, .rc, 0, false⟩, ⟨31, 24, .status, .rc, 0, false⟩]⟩,
  ⟨0x400A0048, 1, 65536, 1, 65536, false, none, [⟨7, 0, .status, .w1c, 0, false⟩]⟩,
  ⟨0x400A004C, 1, 65536, 1, 65536, false, some .safe, [⟨16, 0, .sealed, .rw, 10000, false⟩, ⟨20, 17, .sealed, .rw, 10, false⟩]⟩,
  ⟨0x400A0100, 16, 4, 1, 4, false, some .safe, [⟨0, 0, .sealed, .rw, 0, false⟩, ⟨1, 1, .sealed, .rw, 0, false⟩, ⟨3, 2, .sealed, .rw, 0, false⟩, ⟨11, 4, .sealed, .rw, 20, false⟩]⟩,
  ⟨0x400A0400, 8, 64, 1, 64, false, some .safe, [⟨0, 0, .sealed, .rw, 0, false⟩, ⟨1, 1, .sealed, .rw, 0, false⟩, ⟨8, 2, .sealed, .rw, 8, false⟩, ⟨9, 9, .sealed, .rw, 0, false⟩, ⟨16, 10, .sealed, .rw, 20, false⟩, ⟨27, 17, .sealed, .rw, 100, false⟩]⟩,
  ⟨0x400A0404, 8, 64, 1, 64, false, some .safe, [⟨31, 0, .sealed, .rw, 0, false⟩]⟩,
  ⟨0x400A0408, 8, 64, 1, 64, false, some .safe, [⟨31, 0, .sealed, .rw, 0, false⟩]⟩,
  ⟨0x400A040C, 8, 64, 1, 64, false, some .safe, [⟨31, 0, .sealed, .rw, 0, false⟩]⟩,
  ⟨0x400A0410, 8, 64, 1, 64, false, some .safe, [⟨15, 0, .sealed, .rw, 0, false⟩]⟩,
  ⟨0x400A0414, 8, 64, 1, 64, false, some .safe, [⟨15, 0, .sealed, .rw, 500, false⟩, ⟨23, 16, .sealed, .rw, 16, false⟩]⟩,
  ⟨0x400A0418, 8, 64, 1, 64, false, some .safe, [⟨5, 0, .sealed, .rw, 0, false⟩]⟩,
  ⟨0x400A041C, 8, 64, 1, 64, false, none, [⟨0, 0, .status, .ro, 0, false⟩, ⟨1, 1, .status, .ro, 0, false⟩, ⟨2, 2, .status, .ro, 0, false⟩, ⟨15, 8, .status, .ro, 0, false⟩]⟩,
  ⟨0x400A0420, 8, 64, 1, 64, false, none, [⟨31, 0, .status, .ro, 0, false⟩]⟩,
  ⟨0x400A0424, 8, 64, 1, 64, false, none, [⟨31, 0, .status, .ro, 0, false⟩]⟩,
  ⟨0x400A0428, 8, 64, 1, 64, false, none, [⟨7, 0, .status, .rc, 0, false⟩, ⟨15, 8, .status, .rc, 0, false⟩, ⟨23, 16, .status, .rc, 0, false⟩, ⟨31, 24, .status, .rc, 0, false⟩]⟩,
  ⟨0x400A042C, 8, 64, 1, 64, false, none, [⟨31, 0, .status, .ro, 0, false⟩]⟩,
  ⟨0x400A0430, 8, 64, 4, 4, false, none, []⟩,
  ⟨0x400A2000, 8, 256, 16, 4, false, none, [⟨31, 0, .live, .rw, 0, false⟩]⟩,
  ⟨0x400A2040, 8, 256, 16, 4, false, some .safe, [⟨31, 0, .sealed, .rw, 0, false⟩]⟩,
  ⟨0x400A2080, 8, 256, 16, 4, false, none, [⟨31, 0, .status, .ro, 0, false⟩]⟩,
  ⟨0x400A20C0, 8, 256, 16, 4, false, some .safe, [⟨31, 0, .sealed, .rw, 0, false⟩]⟩]

/-- Block ETHN (spec/17_network_time_and_clock.md R472). -/
def regTableEthn : List RegFam := [
  ⟨0x400B0000, 1, 65536, 1, 65536, false, none, [⟨13, 0, .live, .rw, 2000, false⟩, ⟨25, 16, .live, .rw, 400, false⟩]⟩,
  ⟨0x400B0100, 5, 32, 1, 32, false, some .ethnPort, [⟨0, 0, .sealed, .rw, 1, false⟩, ⟨2, 1, .sealed, .rw, 2, false⟩, ⟨3, 3, .sealed, .rw, 1, false⟩]⟩,
  ⟨0x400B0104, 5, 32, 1, 32, false, some .ethnPort, [⟨31, 0, .sealed, .rw, 0, false⟩]⟩,
  ⟨0x400B0108, 5, 32, 1, 32, false, some .ethnPort, [⟨15, 0, .sealed, .rw, 0, false⟩]⟩,
  ⟨0x400B010C, 5, 32, 1, 32, false, none, [⟨0, 0, .status, .ro, 0, false⟩, ⟨2, 1, .status, .ro, 0, false⟩, ⟨3, 3, .status, .ro, 0, false⟩]⟩,
  ⟨0x400B0110, 5, 32, 1, 32, false, none, [⟨15, 0, .status, .rc, 0, false⟩, ⟨23, 16, .status, .rc, 0, false⟩]⟩,
  ⟨0x400B0200, 3, 64, 1, 64, false, some .ethn, [⟨22, 0, .sealed, .rw, 0, false⟩]⟩,
  ⟨0x400B0204, 3, 64, 1, 64, false, some .ethn, [⟨11, 0, .sealed, .rw, 0, false⟩]⟩,
  ⟨0x400B0208, 3, 64, 1, 64, false, some .ethn, [⟨22, 0, .sealed, .rw, 0, false⟩]⟩,
  ⟨0x400B020C, 3, 64, 1, 64, false, some .ethn, [⟨11, 0, .sealed, .rw, 0, false⟩]⟩,
  ⟨0x400B0210, 3, 64, 1, 64, false, some .ethn, [⟨0, 0, .status, .wo, 0, false⟩, ⟨7, 4, .status, .ro, 0, false⟩]⟩,
  ⟨0x400B0214, 3, 64, 1, 64, false, none, [⟨0, 0, .live, .rw, 0, false⟩, ⟨1, 1, .live, .rw, 0, false⟩, ⟨2, 2, .status, .wo, 0, false⟩]⟩,
  ⟨0x400B0218, 3, 64, 1, 64, false, none, [⟨11, 0, .status, .ro, 0, false⟩, ⟨27, 16, .status, .ro, 0, false⟩]⟩,
  ⟨0x400B021C, 3, 64, 1, 64, false, none, [⟨7, 0, .status, .rc, 0, false⟩, ⟨15, 8, .status, .rc, 0, false⟩, ⟨23, 16, .status, .rc, 0, false⟩]⟩,
  ⟨0x400B0220, 3, 64, 1, 64, false, none, [⟨15, 0, .status, .rc, 0, false⟩, ⟨23, 16, .status, .rc, 0, false⟩, ⟨24, 24, .status, .ro, 0, false⟩, ⟨25, 25, .status, .ro, 0, false⟩]⟩]

/-- Block PTPT (spec/17_network_time_and_clock.md R474). -/
def regTablePtpt : List RegFam := [
  ⟨0x400C0000, 1, 65536, 1, 65536, true, none, [⟨31, 0, .status, .ro, 0, false⟩, ⟨55, 32, .status, .ro, 0, false⟩, ⟨63, 56, .status, .ro, 0, false⟩]⟩,
  ⟨0x400C0008, 1, 65536, 1, 65536, true, none, [⟨31, 0, .status, .ro, 0, false⟩, ⟨55, 32, .status, .ro, 0, false⟩, ⟨63, 56, .status, .ro, 0, false⟩]⟩,
  ⟨0x400C0010, 1, 65536, 1, 65536, false, none, [⟨31, 0, .live, .rw, 0, false⟩]⟩,
  ⟨0x400C0014, 1, 65536, 1, 65536, false, none, [⟨31, 0, .status, .wo, 0, false⟩]⟩,
  ⟨0x400C0018, 1, 65536, 1, 65536, false, none, [⟨0, 0, .live, .rw, 0, false⟩]⟩,
  ⟨0x400C001C, 1, 65536, 1, 65536, false, none, [⟨1, 0, .status, .ro, 0, false⟩, ⟨2, 2, .status, .ro, 0, false⟩, ⟨15, 8, .status, .ro, 0, false⟩]⟩,
  ⟨0x400C0020, 1, 65536, 1, 65536, true, none, [⟨31, 0, .live, .rw, 0, false⟩, ⟨39, 32, .live, .rw, 0, false⟩]⟩,
  ⟨0x400C0030, 3, 4, 1, 4, false, none, [⟨15, 0, .live, .rw, 0, false⟩, ⟨31, 16, .live, .rw, 0, false⟩]⟩]

/-- Block RTCB (spec/17_network_time_and_clock.md R475). -/
def regTableRtcb : List RegFam := [
  ⟨0x400D0000, 1, 65536, 1, 65536, true, none, [⟨47, 0, .status, .ro, 0, true⟩, ⟨63, 48, .status, .ro, 0, true⟩]⟩,
  ⟨0x400D0008, 1, 65536, 1, 65536, true, none, [⟨47, 0, .status, .wo, 0, false⟩]⟩,
  ⟨0x400D0010, 1, 65536, 1, 65536, false, none, [⟨0, 0, .status, .wo, 0, false⟩]⟩,
  ⟨0x400D0014, 1, 65536, 1, 65536, false, none, [⟨12, 0, .live, .rw, 0, true⟩]⟩,
  ⟨0x400D0018, 1, 65536, 1, 65536, false, none, [⟨0, 0, .status, .ro, 0, true⟩, ⟨1, 1, .status, .ro, 0, true⟩, ⟨15, 8, .status, .rc, 0, false⟩]⟩,
  ⟨0x400D0020, 2, 8, 1, 8, true, none, [⟨47, 0, .live, .rw, 0, true⟩, ⟨48, 48, .live, .rw, 0, true⟩, ⟨49, 49, .live, .rw, 0, true⟩]⟩,
  ⟨0x400D0030, 1, 65536, 1, 65536, false, none, [⟨1, 0, .status, .w1c, 0, true⟩, ⟨3, 2, .status, .w1c, 0, true⟩, ⟨5, 4, .status, .w1c, 0, true⟩]⟩,
  ⟨0x400D0034, 1, 65536, 1, 65536, false, none, [⟨0, 0, .live, .rw, 1, true⟩]⟩]

/-- Block PAIR (spec/18_pair_and_referee.md R506). -/
def regTablePair : List RegFam := [
  ⟨0x400E0000, 1, 65536, 1, 65536, false, some .pair, [⟨5, 0, .sealed, .rw, 0, false⟩, ⟨11, 6, .sealed, .rw, 0, false⟩, ⟨12, 12, .sealed, .rw, 1, false⟩, ⟨20, 13, .sealed, .rw, 16, false⟩]⟩,
  ⟨0x400E0004, 1, 65536, 1, 65536, false, some .pair, [⟨23, 0, .sealed, .rw, 0xffffff, false⟩, ⟨26, 24, .sealed, .rw, 7, false⟩]⟩,
  ⟨0x400E0008, 1, 65536, 1, 65536, false, some .pair, [⟨0, 0, .status, .wo, 0, false⟩, ⟨7, 4, .status, .ro, 0, false⟩]⟩,
  ⟨0x400E000C, 1, 65536, 1, 65536, false, none, [⟨0, 0, .status, .wo, 0, false⟩, ⟨1, 1, .status, .wo, 0, false⟩, ⟨2, 2, .status, .wo, 0, false⟩]⟩,
  ⟨0x400E0010, 1, 65536, 1, 65536, false, none, [⟨31, 0, .live, .rw, 0, false⟩]⟩,
  ⟨0x400E0014, 1, 65536, 1, 65536, false, none, [⟨1, 0, .status, .ro, 0, false⟩, ⟨4, 2, .status, .ro, 0, false⟩, ⟨5, 5, .status, .ro, 0, false⟩, ⟨6, 6, .status, .ro, 0, false⟩, ⟨7, 7, .status, .ro, 0, false⟩, ⟨8, 8, .status, .ro, 0, false⟩, ⟨9, 9, .status, .ro, 0, false⟩, ⟨10, 10, .status, .ro, 0, false⟩, ⟨15, 12, .status, .ro, 0, false⟩]⟩,
  ⟨0x400E0018, 1, 65536, 1, 65536, false, none, [⟨31, 0, .status, .ro, 0, false⟩]⟩,
  ⟨0x400E001C, 1, 65536, 1, 65536, false, none, [⟨31, 0, .status, .ro, 0, false⟩]⟩,
  ⟨0x400E0020, 1, 65536, 1, 65536, false, none, [⟨31, 0, .status, .ro, 0, false⟩]⟩,
  ⟨0x400E0024, 1, 65536, 1, 65536, false, none, [⟨31, 0, .status, .ro, 0, false⟩]⟩,
  ⟨0x400E0028, 1, 65536, 1, 65536, false, none, [⟨2, 0, .status, .ro, 0, false⟩, ⟨10, 3, .status, .ro, 0, false⟩, ⟨31, 11, .status, .ro, 0, false⟩]⟩,
  ⟨0x400E002C, 1, 65536, 1, 65536, false, none, [⟨7, 0, .status, .rc, 0, false⟩, ⟨15, 8, .status, .rc, 0, false⟩, ⟨23, 16, .status, .ro, 0, false⟩, ⟨31, 24, .status, .rc, 0, false⟩]⟩,
  ⟨0x400E0030, 1, 65536, 1, 65536, false, none, [⟨15, 0, .status, .rc, 0, false⟩, ⟨23, 16, .status, .rc, 0, false⟩]⟩,
  ⟨0x400E0100, 1, 65536, 1, 65536, false, some .pairR, [⟨3, 0, .sealed, .rw, 2, false⟩, ⟨7, 4, .sealed, .rw, 1, false⟩, ⟨8, 8, .sealed, .rw, 0, false⟩, ⟨23, 16, .sealed, .rw, 50, false⟩]⟩,
  ⟨0x400E0104, 1, 65536, 1, 65536, false, some .pairR, [⟨0, 0, .status, .wo, 0, false⟩, ⟨7, 4, .status, .ro, 0, false⟩]⟩,
  ⟨0x400E0108, 1, 65536, 1, 65536, false, none, [⟨0, 0, .status, .wo, 0, false⟩, ⟨1, 1, .status, .wo, 0, false⟩]⟩,
  ⟨0x400E010C, 1, 65536, 1, 65536, false, none, [⟨1, 0, .status, .ro, 0, false⟩, ⟨2, 2, .status, .ro, 0, false⟩, ⟨3, 3, .status, .ro, 0, false⟩, ⟨4, 4, .status, .ro, 0, false⟩, ⟨5, 5, .status, .ro, 0, false⟩, ⟨6, 6, .status, .ro, 0, false⟩, ⟨7, 7, .status, .ro, 0, false⟩, ⟨10, 8, .status, .ro, 0, false⟩, ⟨13, 11, .status, .ro, 0, false⟩]⟩,
  ⟨0x400E0110, 1, 65536, 1, 65536, false, none, [⟨7, 0, .status, .rc, 0, false⟩, ⟨15, 8, .status, .rc, 0, false⟩]⟩]

/-- Block TRST (spec/19_keys_and_trust.md R533). -/
def regTableTrst : List RegFam := [
  ⟨0x400F0000, 1, 65536, 1, 65536, false, none, [⟨0, 0, .status, .ro, 0, false⟩, ⟨1, 1, .status, .ro, 0, false⟩, ⟨2, 2, .status, .ro, 0, false⟩, ⟨3, 3, .status, .ro, 0, false⟩, ⟨5, 4, .status, .ro, 0, false⟩, ⟨11, 8, .status, .ro, 0, false⟩, ⟨31, 16, .status, .ro, 0, false⟩]⟩,
  ⟨0x400F0004, 1, 65536, 1, 65536, false, none, [⟨11, 0, .status, .ro, 0, false⟩, ⟨12, 12, .status, .ro, 0, false⟩, ⟨13, 13, .status, .ro, 0, false⟩]⟩,
  ⟨0x400F0008, 1, 65536, 1, 65536, false, none, [⟨7, 0, .status, .rc, 0, false⟩, ⟨15, 8, .status, .rc, 0, false⟩, ⟨23, 16, .status, .rc, 0, false⟩, ⟨31, 24, .status, .rc, 0, false⟩]⟩,
  ⟨0x400F000C, 1, 65536, 1, 65536, false, none, [⟨31, 0, .status, .ro, 0, false⟩]⟩,
  ⟨0x400F0010, 1, 65536, 1, 65536, false, none, [⟨31, 0, .status, .ro, 0, false⟩]⟩,
  ⟨0x400F0014, 1, 65536, 1, 65536, false, none, [⟨31, 0, .status, .ro, 0, false⟩]⟩,
  ⟨0x400F0100, 64, 4, 1, 4, false, none, [⟨1, 0, .status, .ro, 0, false⟩, ⟨2, 2, .status, .ro, 0, false⟩, ⟨7, 4, .status, .ro, 0, false⟩, ⟨15, 8, .status, .ro, 0, false⟩, ⟨23, 16, .status, .ro, 0, false⟩, ⟨31, 24, .status, .ro, 0, false⟩]⟩]

/-- Block RECD (spec/20_recorder_monitors_bench.md R550). -/
def regTableRecd : List RegFam := [
  ⟨0x40100000, 1, 65536, 1, 65536, false, none, [⟨0, 0, .live, .rw, 1, false⟩]⟩,
  ⟨0x40100004, 1, 65536, 1, 65536, false, none, [⟨31, 0, .status, .ro, 0, false⟩]⟩,
  ⟨0x40100008, 1, 65536, 1, 65536, false, none, [⟨6, 0, .status, .ro, 0, false⟩, ⟨15, 8, .status, .rc, 0, false⟩, ⟨23, 16, .status, .rc, 0, false⟩, ⟨31, 24, .status, .rc, 0, false⟩]⟩,
  ⟨0x40100010, 1, 65536, 1, 65536, false, none, [⟨15, 0, .status, .rw, 0, false⟩, ⟨18, 16, .status, .rw, 0, false⟩]⟩,
  ⟨0x40100014, 1, 65536, 1, 65536, false, none, [⟨31, 0, .status, .rw, 0, false⟩]⟩,
  ⟨0x40100018, 1, 65536, 1, 65536, false, none, [⟨31, 0, .status, .rw, 0, false⟩]⟩,
  ⟨0x4010001C, 1, 65536, 1, 65536, false, none, [⟨0, 0, .status, .wo, 0, false⟩]⟩,
  ⟨0x40100100, 8, 4, 1, 4, false, none, [⟨31, 0, .live, .rw, 0, false⟩]⟩,
  ⟨0x40100200, 32, 4, 1, 4, false, none, [⟨2, 0, .live, .rw, 0, false⟩, ⟨6, 4, .live, .rw, 0, false⟩, ⟨10, 8, .live, .rw, 0, false⟩, ⟨14, 12, .live, .rw, 0, false⟩, ⟨18, 16, .live, .rw, 0, false⟩, ⟨22, 20, .live, .rw, 0, false⟩, ⟨26, 24, .live, .rw, 0, false⟩, ⟨30, 28, .live, .rw, 0, false⟩]⟩]

/-- Block MONI (spec/20_recorder_monitors_bench.md R551). -/
def regTableMoni : List RegFam := [
  ⟨0x40110000, 2, 16, 1, 16, false, none, [⟨31, 0, .status, .ro, 0, false⟩]⟩,
  ⟨0x40110004, 2, 16, 1, 16, false, none, [⟨31, 0, .status, .w1c, 0, false⟩]⟩,
  ⟨0x40110008, 2, 16, 1, 16, false, none, [⟨31, 0, .status, .w1c, 0, false⟩]⟩,
  ⟨0x40111000, 64, 256, 1, 256, false, some .moni, [⟨3, 0, .sealed, .rw, 0, false⟩, ⟨11, 4, .sealed, .rw, 0, false⟩, ⟨12, 12, .sealed, .rw, 0, false⟩, ⟨17, 13, .sealed, .rw, 0, false⟩]⟩,
  ⟨0x40111004, 64, 256, 1, 256, false, some .moni, [⟨31, 0, .sealed, .rw, 0, false⟩]⟩,
  ⟨0x40111008, 64, 256, 1, 256, false, some .moni, [⟨0, 0, .status, .wo, 0, false⟩, ⟨7, 4, .status, .ro, 0, false⟩]⟩,
  ⟨0x4011100C, 64, 256, 1, 256, false, none, [⟨0, 0, .live, .rw, 0, false⟩]⟩,
  ⟨0x40111010, 64, 256, 1, 256, false, none, [⟨31, 0, .live, .rw, 0x80000000, false⟩]⟩,
  ⟨0x40111014, 64, 256, 1, 256, false, none, [⟨31, 0, .live, .rw, 0x7fffffff, false⟩]⟩,
  ⟨0x40111018, 64, 256, 1, 256, false, none, [⟨31, 0, .status, .wo, 0, false⟩]⟩,
  ⟨0x4011101C, 64, 256, 1, 256, false, none, [⟨31, 0, .status, .ro, 0x7fffffff, false⟩]⟩,
  ⟨0x40111020, 64, 256, 1, 256, false, none, [⟨31, 0, .status, .ro, 0x80000000, false⟩]⟩,
  ⟨0x40111024, 64, 256, 1, 256, false, none, [⟨31, 0, .status, .ro, 0, false⟩]⟩,
  ⟨0x40111028, 64, 256, 1, 256, false, none, [⟨31, 0, .status, .ro, 0, false⟩]⟩,
  ⟨0x4011102C, 64, 256, 1, 256, false, none, [⟨31, 0, .status, .ro, 0x7fffffff, false⟩]⟩,
  ⟨0x40111030, 64, 256, 1, 256, false, none, [⟨31, 0, .status, .ro, 0x80000000, false⟩]⟩,
  ⟨0x40111034, 64, 256, 1, 256, false, none, [⟨31, 0, .status, .ro, 0, false⟩]⟩,
  ⟨0x40111038, 64, 256, 1, 256, false, none, [⟨31, 0, .status, .ro, 0, false⟩]⟩,
  ⟨0x40111080, 64, 256, 32, 4, false, none, [⟨31, 0, .status, .ro, 0, false⟩]⟩]

/-- Block DIOP (spec/22_module_connectors_electrical.md R578). -/
def regTableDiop : List RegFam := [
  ⟨0x40120000, 1, 65536, 1, 65536, false, none, [⟨31, 0, .status, .ro, 0, false⟩]⟩,
  ⟨0x40120004, 1, 65536, 1, 65536, false, none, [⟨15, 0, .status, .ro, 0, false⟩]⟩,
  ⟨0x40120008, 1, 65536, 1, 65536, false, none, [⟨3, 0, .live, .rw, 3, false⟩]⟩,
  ⟨0x40120010, 1, 65536, 1, 65536, false, none, [⟨23, 0, .live, .rw, 0, false⟩]⟩,
  ⟨0x40120014, 1, 65536, 1, 65536, false, none, [⟨23, 0, .status, .ro, 0, false⟩]⟩,
  ⟨0x40120018, 1, 65536, 1, 65536, false, none, [⟨23, 0, .status, .w1c, 0, false⟩]⟩,
  ⟨0x4012001C, 1, 65536, 1, 65536, false, none, [⟨23, 0, .status, .ro, 0, false⟩]⟩,
  ⟨0x40120020, 1, 65536, 1, 65536, false, none, [⟨23, 0, .status, .ro, 0xffffff, false⟩, ⟨24, 24, .status, .ro, 1, false⟩, ⟨25, 25, .status, .ro, 0, false⟩, ⟨26, 26, .status, .ro, 0, false⟩]⟩,
  ⟨0x40120024, 1, 65536, 1, 65536, false, none, [⟨9, 0, .live, .rw, 100, false⟩]⟩,
  ⟨0x40120100, 32, 8, 1, 8, false, none, [⟨31, 0, .status, .ro, 0, false⟩]⟩,
  ⟨0x40120104, 32, 8, 1, 8, false, none, [⟨31, 0, .status, .ro, 0, false⟩]⟩,
  ⟨0x40120F00, 1, 65536, 1, 65536, false, none, [⟨3, 0, .status, .wo, 0, false⟩, ⟨5, 4, .status, .wo, 0, false⟩, ⟨8, 8, .status, .wo, 0, false⟩, ⟨9, 9, .status, .wo, 0, false⟩]⟩,
  ⟨0x40120F04, 1, 65536, 1, 65536, false, none, [⟨0, 0, .status, .ro, 0, false⟩, ⟨1, 1, .status, .ro, 1, false⟩, ⟨6, 4, .status, .ro, 0, false⟩, ⟨11, 8, .status, .ro, 0, false⟩, ⟨31, 16, .status, .rc, 0, false⟩]⟩,
  ⟨0x40120F08, 1, 65536, 1, 65536, false, none, [⟨0, 0, .status, .rw, 0, false⟩, ⟨1, 1, .status, .wo, 0, false⟩, ⟨7, 4, .status, .ro, 0, false⟩, ⟨8, 8, .status, .ro, 0, false⟩, ⟨9, 9, .status, .ro, 0, false⟩, ⟨31, 16, .status, .wo, 0, false⟩]⟩]

/-- Block FEED (spec/22_module_connectors_electrical.md R571). -/
def regTableFeed : List RegFam := [
  ⟨0x40130000, 1, 65536, 1, 65536, false, none, [⟨0, 0, .status, .ro, 0, false⟩, ⟨1, 1, .status, .ro, 0, false⟩, ⟨2, 2, .status, .ro, 0, false⟩, ⟨3, 3, .status, .ro, 0, false⟩]⟩,
  ⟨0x40130004, 1, 65536, 1, 65536, false, none, [⟨15, 0, .status, .ro, 0, false⟩, ⟨31, 16, .status, .ro, 0, false⟩]⟩,
  ⟨0x40130008, 1, 65536, 1, 65536, false, none, [⟨7, 0, .status, .rc, 0, false⟩, ⟨15, 8, .status, .rc, 0, false⟩, ⟨23, 16, .status, .rc, 0, false⟩]⟩]

/-- Block EVNT (spec/02_programmers_model.md R81). -/
def regTableEvnt : List RegFam := [
  ⟨0x40140000, 256, 4, 1, 4, false, none, [⟨15, 0, .live, .rw, 0, false⟩]⟩,
  ⟨0x40140400, 1, 65536, 1, 65536, false, none, [⟨15, 0, .status, .rc, 0, false⟩]⟩,
  ⟨0x40141000, 16, 128, 8, 4, false, none, [⟨31, 0, .status, .ro, 0, false⟩]⟩,
  ⟨0x40141020, 16, 128, 8, 4, false, none, [⟨31, 0, .live, .rw, 0xffffffff, false⟩]⟩,
  ⟨0x40141040, 16, 128, 8, 4, false, none, [⟨31, 0, .status, .w1c, 0, false⟩]⟩]

/-- Block BNCH (spec/20_recorder_monitors_bench.md R552). -/
def regTableBnch : List RegFam := [
  ⟨0x40150000, 1, 65536, 1, 65536, false, none, [⟨0, 0, .live, .rw, 1, false⟩, ⟨15, 8, .live, .rw, 30, false⟩, ⟨23, 16, .live, .rw, 16, false⟩, ⟨27, 24, .live, .rw, 4, false⟩, ⟨31, 28, .live, .rw, 4, false⟩]⟩,
  ⟨0x40150004, 1, 65536, 1, 65536, false, none, [⟨3, 0, .status, .wo, 0, false⟩, ⟨19, 4, .status, .wo, 0, false⟩, ⟨31, 31, .status, .wo, 0, false⟩]⟩,
  ⟨0x40150008, 1, 65536, 1, 65536, false, none, [⟨0, 0, .status, .ro, 0, false⟩, ⟨4, 1, .status, .ro, 0, false⟩, ⟨20, 5, .status, .ro, 0, false⟩, ⟨21, 21, .status, .w1c, 0, false⟩, ⟨27, 24, .status, .ro, 0, false⟩]⟩,
  ⟨0x4015000C, 1, 65536, 1, 65536, false, none, [⟨31, 0, .status, .ro, 0, false⟩]⟩,
  ⟨0x40150010, 1, 65536, 1, 65536, false, none, [⟨31, 0, .status, .ro, 0x76543210, true⟩]⟩,
  ⟨0x40150014, 1, 65536, 1, 65536, false, none, [⟨31, 0, .status, .ro, 0xfedcba98, true⟩]⟩,
  ⟨0x40150018, 1, 65536, 1, 65536, false, none, [⟨1, 0, .status, .ro, 2, true⟩, ⟨2, 2, .status, .ro, 1, true⟩, ⟨3, 3, .status, .ro, 1, true⟩, ⟨15, 8, .status, .ro, 128, true⟩, ⟨19, 16, .status, .ro, 8, true⟩]⟩,
  ⟨0x40150100, 16, 4, 1, 4, false, none, [⟨15, 0, .status, .ro, 0, false⟩, ⟨16, 16, .status, .ro, 0, false⟩, ⟨17, 17, .status, .ro, 0, true⟩]⟩,
  ⟨0x40150200, 24, 4, 1, 4, false, none, [⟨7, 0, .status, .ro, 0, false⟩, ⟨15, 8, .status, .ro, 0, false⟩, ⟨16, 16, .status, .ro, 0, true⟩, ⟨17, 17, .status, .ro, 0, false⟩]⟩]

/-- The table of the window with the given index. -/
def regTableOf : Nat → List RegFam
  | 0x00 => regTableTier
  | 0x01 => regTableCore
  | 0x02 => regTableCmns
  | 0x03 => regTableSolv
  | 0x04 => regTableFusa
  | 0x05 => regTableLoop
  | 0x06 => regTableAxis
  | 0x07 => regTableCanb
  | 0x08 => regTableMetr
  | 0x09 => regTableAdcs
  | 0x0A => regTableSafe
  | 0x0B => regTableEthn
  | 0x0C => regTablePtpt
  | 0x0D => regTableRtcb
  | 0x0E => regTablePair
  | 0x0F => regTableTrst
  | 0x10 => regTableRecd
  | 0x11 => regTableMoni
  | 0x12 => regTableDiop
  | 0x13 => regTableFeed
  | 0x14 => regTableEvnt
  | 0x15 => regTableBnch
  | _ => []

end Sys2Proof.Machine
end

