-- ==== Sys2Proof/Machine/State.lean ====
section
/-! DEFINITION. The whole state of the module: its body and the queue of commands that wait; the reasons a step can stop, and
the state right after power-up reset. -/

namespace Sys2Proof.Machine

/-- The state: everything the module holds, and the commands that wait, first in, first out (the model's own;
notes/assumptions/2). -/
structure State extends Body where
  pending : List Instr
deriving DecidableEq, Repr

/-- Why the machine stops. -/
inductive Fault where
  /-- A command states a physical condition outside the operating conditions, for which the manual defines no behaviour
  (R17); raised by the meanings of physical events. Safe: nothing is claimed of such a run. -/
  | outsideConditions
deriving DecidableEq, Repr

/-- Why a command has no meaning. -/
inductive Refusal where
  /-- The command has no meaning in this model yet; raised by exec's arms only. Safe. -/
  | notModelled (mnemonic : String)
deriving DecidableEq, Repr

/-- The module before kick-off: every register at its cold value, no memory listed, no core started, no command waiting. -/
def State.reset : State := { toBody := Body.reset, pending := [] }

end Sys2Proof.Machine
end

