-- ==== Sys2Proof/Machine/Ops.lean ====
section
/-! DEFINITION. The named operations every meaning is built from: block registers and their fields, time, events and
automatic records, core states, trap entry and stops, monitors, and the commons with its error handling. -/

namespace Sys2Proof.Machine

/-! ## Block registers -/

/-- Element indices of the register family that covers address a (R43, R65). -/
def RegFam.locate (f : RegFam) (a : Nat) : Option (Nat × Nat) :=
  if a < f.base then none
  else
    let r := (a - f.base) % f.s1
    if (a - f.base) / f.s1 < f.n1 && r / f.s2 < f.n2 && r % f.s2 < f.bytes then some ((a - f.base) / f.s1, r / f.s2)
    else none

/-- A register met at an address: its family, its element and the byte within it. -/
structure RegHit where
  fam : RegFam
  i : Nat
  j : Nat
  byte : Nat
deriving DecidableEq, Repr

def RegFam.hit (a : Nat) (f : RegFam) : Option RegHit :=
  (f.locate a).map fun (i, j) => ⟨f, i, j, (a - f.base) % f.s1 % f.s2⟩

/-- The register at a device address, if its window has one there (R64, R65). -/
def findReg (a : Nat) : Option RegHit :=
  if a < 0x40000000 then none else (regTableOf ((a - 0x40000000) / 0x10000)).findSome? (RegFam.hit a)

/-- Bits of the register word a hit stands for whose fields satisfy a test. -/
def RegHit.bits (h : RegHit) (q : FieldDef → Bool) : Word :=
  BitVec.ofNat 32 ((h.fam.fields.filter q).foldl (fun m f => m ||| ((2 ^ (f.hi + 1 - f.lo) - 1) <<< f.lo)) 0
    >>> (if 4 ≤ h.byte then 32 else 0))

/-- The bits a mask selects from x, the others from w. -/
def mergeBits (w x mask : Word) : Word := (w &&& ~~~mask) ||| (x &&& mask)

/-- Cold values that depend on the element: lanes in service (R239), channel maps (R379), nominal gains (R407),
timestamp corrections (R456). -/
def coldSpecial (base i : Nat) : Option Nat :=
  if base = 0x40030020 then some (if i < 4 then 1 + 4 * i else 28)
  else if base = 0x40080118 then
    some (7 * i + 32 * (7 * i + 1) + 1024 * (7 * i + 2) + 32768 * (7 * i + 3) + 1048576 * (7 * i + 4)
      + 33554432 * (7 * i + 5))
  else if base = 0x4008011C then some (7 * i + 6)
  else if base = 0x40091000 then
    some (if i < 64 then (if i % 2 = 0 then 0x004E2000 else 0x00BB8000)
      else (if i % 2 = 0 then 0x00032000 else 0x001F4000))
  else if base = 0x400C0030 then
    some (if i = 0 then 176 + 65536 * 312 else if i = 1 then 440 + 65536 * 568 else 4100 + 65536 * 4620)
  else none

def coldFields : List FieldDef → Nat
  | [] => 0
  | f :: r => (f.cold % 2 ^ (f.hi + 1 - f.lo)) * 2 ^ f.lo + coldFields r

/-- The cold value of the 32-bit word at an address (R14); 0 where no register is. -/
def coldWord (a : Nat) : Word :=
  match findReg a with
  | none => 0
  | some h =>
    let v := (coldSpecial h.fam.base h.i).getD (coldFields h.fam.fields)
    BitVec.ofNat 32 (if h.byte < 4 then v else v / 2 ^ 32)

def planeGet (m : NMap Word) (a : Nat) : Word := (m.at? a).getD (coldWord a)
def planeSet (m : NMap Word) (a : Nat) (v : Word) : NMap Word := NMap.set (coldWord a) m a v

/-- The value in effect of a 32-bit word of the block windows. -/
def State.word (s : State) (a : Nat) : Word := planeGet s.regs a
def State.setWord (s : State) (a : Nat) (v : Word) : State := { s with regs := planeSet s.regs a v }

/-- Registers with WO fields that an action reads beside the bit that triggers it: they keep what was written last, so that a
store of some of their bytes keeps the other bits (R12, R589); a load returns zero for them. -/
def keepsWritten (base : Nat) : Bool :=
  [R.SOLV_CANCEL, R.LOOP_CWRV, R.LOOP_BLDADDR, R.AXIS_aSETP 0, R.DIOP_RST, R.DIOP_KREQ, R.CANB_cTXREQ 0, R.CANB_cTXCAN 0,
   R.ADCS_URG, R.ADCS_CALCMD, R.ADCS_CALCOMMIT, R.SAFE_CTRL, R.PTPT_STEP, R.MONI_mPUT 0, R.BNCH_REQ].contains base

/-- The bits of WO fields that the word at a keeps as written. -/
def woMask (a : Nat) : Word :=
  match findReg a with
  | none => 0
  | some h => if keepsWritten h.fam.base then h.bits (fun f => f.acc == .wo) else 0

/-- A write of a whole word at a leaves its WO fields as written. -/
def State.hold (s : State) (a v : Nat) : State := s.setWord a (mergeBits (s.word a) (BitVec.ofNat 32 v) (woMask a))

/-- A field's 64-bit neighbourhood in a plane. -/
def planeWide (m : NMap Word) (f : FieldRef) : Nat :=
  (planeGet m f.addr).toNat + (if 32 ≤ f.hi then 2 ^ 32 * (planeGet m (f.addr + 4)).toNat else 0)

def planeRd (m : NMap Word) (f : FieldRef) : Nat := bitsOf (planeWide m f) f.hi f.lo

def planeWr (m : NMap Word) (f : FieldRef) (x : Nat) : NMap Word :=
  let v := putBits (planeWide m f) f.hi f.lo x
  let m := planeSet m f.addr (BitVec.ofNat 32 v)
  if 32 ≤ f.hi then planeSet m (f.addr + 4) (BitVec.ofNat 32 (v / 2 ^ 32)) else m

/-- Read a field in effect. -/
def State.rd (s : State) (f : FieldRef) : Nat := planeRd s.regs f
def State.rdBit (s : State) (f : FieldRef) : Bool := s.rd f != 0
/-- Read a signed field in effect. -/
def State.rdI (s : State) (f : FieldRef) : Int := signedOf (f.hi + 1 - f.lo) (s.rd f)
/-- Set a field by hardware. -/
def State.wr (s : State) (f : FieldRef) (x : Nat) : State := { s with regs := planeWr s.regs f x }
def State.wrBit (s : State) (f : FieldRef) (b : Bool) : State := s.wr f (b2n b)
def State.wrI (s : State) (f : FieldRef) (x : Int) : State := s.wr f (patternOf (f.hi + 1 - f.lo) x)
/-- The present cycle counted from tick 0. -/
def State.now (s : State) : Nat := s.tick.toNat * Config.cyclesPerTick + s.cycle

/-- Note an update of a field by hardware in cycle t (R13). -/
def State.noteHw (s : State) (t : Nat) (f : FieldRef) (d : Nat) (peak : Bool) : State :=
  { s with hw := ⟨t, f.addr, f.hi, f.lo, s.rd f, d, peak⟩ :: s.hw.filter (fun e => e.t == t) }

/-- Set a field by hardware; a load of the present cycle can still find what it held before (R13). -/
def State.renew (s : State) (f : FieldRef) (x : Nat) : State := (s.noteHw s.now f 0 false).wr f x

/-- The greatest value of a field. -/
def FieldRef.top (f : FieldRef) : Nat := 2 ^ (f.hi + 1 - f.lo) - 1

/-- Advance a counter, saturating at its width. -/
def State.incBy (s : State) (f : FieldRef) (d : Nat) : State :=
  (s.noteHw s.now f d false).wr f (satAdd f.top (s.rd f) d)
def State.inc (s : State) (f : FieldRef) : State := s.incBy f 1
/-- Raise a peak register to at least a value. -/
def State.peak (s : State) (f : FieldRef) (v : Nat) : State := (s.noteHw s.now f v true).wr f (max (s.rd f) v)
/-- Advance a counter modulo its width. -/
def State.incWrap (s : State) (f : FieldRef) : State := s.wr f (s.rd f + 1)
/-- Set a bit by hardware in cycle t. -/
def State.setBitAt (s : State) (t : Nat) (f : FieldRef) : State := (s.noteHw t f 1 false).wr f 1
def State.setBit (s : State) (f : FieldRef) : State := s.setBitAt s.now f

/-- The shadow bank of a field (R10). -/
def State.rdShadow (s : State) (f : FieldRef) : Nat := planeRd s.shadow f
def State.wrShadow (s : State) (f : FieldRef) (x : Nat) : State := { s with shadow := planeWr s.shadow f x }
/-- Set a banked field in both banks, as a load afresh does. -/
def State.wrBoth (s : State) (f : FieldRef) (x : Nat) : State := (s.wr f x).wrShadow f x
/-- Swap one banked field: the shadow value takes effect, and the new shadow is a copy of it (R10). -/
def State.swapField (s : State) (f : FieldRef) : State := s.wr f (s.rdShadow f)
def State.swapFields (s : State) (fs : List FieldRef) : State := fs.foldl State.swapField s

/-! ## One cycle's writes and samples (R6, R10, R13) -/

/-- The writes of the present cycle, newest first. -/
def State.wroteNow (s : State) : List Wrote := s.wrote.filter (fun x => x.t == s.now)

/-- Note a program's write of live or banked bits of a word (R6, R10). -/
def State.noteWrote (s : State) (a : Nat) (live bank val : Word) : State :=
  { s with wrote := ⟨s.now, a, live, bank, s.word a, planeGet s.shadow a, val⟩ :: s.wroteNow }

/-- Set a field by a write whose effect a sample of the present cycle does not see yet (R6, R10). -/
def State.wrLater (s : State) (f : FieldRef) (x : Nat) : State :=
  (s.noteWrote f.addr (BitVec.ofNat 32 (f.top * 2 ^ f.lo)) 0 (BitVec.ofNat 32 (x * 2 ^ f.lo))).wr f x

/-- Take the live and banked bits of a write back. -/
def State.unwrite (s : State) (x : Wrote) : State :=
  { s with regs := planeSet s.regs x.addr (mergeBits (s.word x.addr) x.oldLive x.live),
           shadow := planeSet s.shadow x.addr (mergeBits (planeGet s.shadow x.addr) x.oldBank x.bank) }

/-- Make the live and banked bits of a write again. -/
def State.rewrite (s : State) (x : Wrote) : State :=
  { s with regs := planeSet s.regs x.addr (mergeBits (s.word x.addr) x.val x.live),
           shadow := planeSet s.shadow x.addr (mergeBits (planeGet s.shadow x.addr) x.val x.bank) }

/-- A block's sample that starts in the present cycle: it uses the values before this cycle's writes, and these are applied after
the copies of its swaps (R6, R10). -/
def State.sampled (s : State) (f : State → State) : State :=
  let w := s.wroteNow
  if w.isEmpty then f s else w.reverse.foldl State.rewrite (f (w.foldl State.unwrite s))

/-- A live field as a sample that starts in the present cycle uses it (R6). -/
def State.rdPrev (s : State) (f : FieldRef) : Nat := (s.wroteNow.foldl State.unwrite s).rd f
def State.wordPrev (s : State) (a : Nat) : Word := (s.wroteNow.foldl State.unwrite s).word a

/-- The bits of a word that hardware has set in the present cycle (R13). -/
def State.hwBits (s : State) (a : Nat) : Word :=
  (s.hw.filter (fun e => e.t == s.now && e.addr == a)).foldl
    (fun m e => m ||| BitVec.ofNat 32 ((2 ^ (e.hi + 1 - e.lo) - 1) * 2 ^ e.lo)) 0

/-- A field's updates by hardware in the present cycle, oldest first. -/
def State.hwOf (s : State) (f : FieldRef) : List HwUpd :=
  (s.hw.filter (fun e => e.t == s.now && e.addr == f.addr && e.lo == f.lo)).reverse

/-- What a field read and cleared returns, and what it then holds: the updates hardware makes in the same cycle (R13). -/
def State.rcSplit (s : State) (f : FieldRef) : Nat × Nat :=
  match s.hwOf f with
  | [] => (s.rd f, 0)
  | e :: r => (e.old, (e :: r).foldl (fun v x => if x.peak then max v x.d else satAdd f.top v x.d) 0)

/-- Take back the last update of a field that hardware made in the present cycle. -/
def State.unInc (s : State) (f : FieldRef) : State :=
  match s.hw.find? (fun e => e.t == s.now && e.addr == f.addr && e.lo == f.lo) with
  | none => s
  | some e => { (s.wr f e.old) with hw := s.hw.erase e }

/-- The state before the present cycle's updates by hardware of the registers a test names. -/
def State.beforeHw (s : State) (q : Nat → Bool) : State :=
  (s.hw.filter (fun e => e.t == s.now && q e.addr)).foldl (fun s e => s.wr ⟨e.addr, e.hi, e.lo⟩ e.old) s

/-! ## Sealed fields -/

/-- The value a sealed field would take: the collected value, or the one in effect (R7, R9). -/
def State.rdColl (s : State) (f : FieldRef) : Nat :=
  let w (a : Nat) : Nat := ((s.coll.at? a).getD (s.word a)).toNat
  bitsOf (w f.addr + (if 32 ≤ f.hi then 2 ^ 32 * w (f.addr + 4) else 0)) f.hi f.lo

/-- The families of a seal group in one window. -/
def grpFams (win : Nat) (g : Grp) : List RegFam := (regTableOf win).filter (fun f => f.grp == some g)

/-- Does a device address lie in element n of a group whose elements are the families' first index, or, where the group
has one element for the whole block, anywhere in the group? -/
def inGroup (win : Nat) (g : Grp) (n : Option Nat) (a : Nat) : Bool :=
  (grpFams win g).any fun f =>
    match f.locate a with
    | none => false
    | some (i, _) => match n with
      | none => true
      | some k => i == k

/-- Discard the collected writes of a group element (R8, R9). -/
def State.discardColl (s : State) (win : Nat) (g : Grp) (n : Option Nat) : State :=
  { s with coll := s.coll.filter (fun e => !inGroup win g n e.1) }

/-- The bits of a family's word that are sealed. -/
def sealedMask (fam : RegFam) (hiWord : Bool) : Nat :=
  (fam.fields.filter (fun f => f.cls == .sealed)).foldl
    (fun m f => m ||| ((2 ^ (f.hi + 1 - f.lo) - 1) <<< f.lo)) 0 >>> (if hiWord then 32 else 0)

/-- Apply the collected writes of a group element, all at once (R7). -/
def State.applyColl (s : State) (win : Nat) (g : Grp) (n : Option Nat) : State :=
  let es := s.coll.filter (fun e => inGroup win g n e.1)
  let s := s.discardColl win g n
  es.foldl (fun s e =>
    match findReg e.1 with
    | none => s
    | some h =>
      let m := BitVec.ofNat 32 (sealedMask h.fam (4 ≤ h.byte))
      s.setWord e.1 ((s.word e.1 &&& ~~~m) ||| (e.2 &&& m))) s

/-- A write of GO that starts a seal in progress: the group's collected writes are set apart as they stand (R7). -/
def State.latchColl (s : State) (win : Nat) (g : Grp) (n : Option Nat) : State :=
  { (s.discardColl win g n) with
    sealing := (s.coll.filter (fun e => inGroup win g n e.1)).foldl (fun m e => NMap.put m e.1 e.2)
      (s.sealing.filter (fun e => !inGroup win g n e.1)) }

/-- The end of a seal in progress works on the writes set apart at GO, and leaves those collected since as they are (R7). -/
def State.onSealing (s : State) (f : State → State) : State :=
  let t := f { s with coll := s.sealing, sealing := s.coll }
  { t with coll := t.sealing, sealing := t.coll }

/-- Do f where the condition holds. -/
def State.when (s : State) (b : Bool) (f : State → State) : State := if b then f s else s

/-! ## Time -/

def State.tickN (s : State) : Nat := s.tick.toNat
def State.setCycle (s : State) (c : Nat) : State := { s with cycle := c }
/-- Draw a fresh index for a free value. -/
def State.draw (s : State) : Nat × State := (s.free, { s with free := s.free + 1 })

/-- What the tick's correction makes of its length: 2.5 * 10^12 / d counter clocks in 60,000 core cycles (R38, R43, R455). -/
def State.discDen (s : State) : Nat := (100000000 + s.rdI R.TIER_DISC_STAT_FCORR).toNat

/-- Counter clocks from the tick edge to a core cycle: the counter runs at 250 MHz from a PLL that tick discipline does not move,
the core clock at 600 MHz corrected by FCORR (R38, R455). -/
def State.counterClocks (s : State) (cyc : Nat) : Nat :=
  (s.ptpt.phNum * (12 * s.discDen) + 500000000 * cyc * s.ptpt.phDen) / (12 * s.discDen * s.ptpt.phDen)

/-- The amount one counter clock adds, in 2^-32 ns (R455). -/
def State.counterStep (s : State) : Int := 4 * 2 ^ 32 + s.rdI R.PTPT_FADJ_FADJ

/-- The counter in 2^-32 ns at a counter clock of the present tick, before any wrap is taken (R455, R458). -/
def State.counterAt (s : State) (n : Nat) : Nat :=
  ((s.ptpt.base : Int) + (n - s.ptpt.clk : Nat) * s.counterStep + (if s.ptpt.stepAt ≤ n then s.ptpt.step * 2 ^ 32 else 0)).toNat

/-- The network time counter in 2^-32 ns at the present cycle, before any wrap is taken; it does not run before tick 0
(R455). -/
def State.counterRaw (s : State) : Nat :=
  if s.phase != .running then s.ptpt.base else s.counterAt (s.counterClocks s.cycle)

/-- The counter modulo its 32-bit nanosecond field. -/
def State.counter (s : State) : Nat := s.counterRaw % 2 ^ 64
def State.counterNs (s : State) : Nat := s.counter / 2 ^ 32

/-- Bring the held counter value to the present cycle. -/
def State.counterSync (s : State) : State :=
  let n := s.counterClocks s.cycle
  { s with ptpt := { s.ptpt with base := s.counterRaw, clk := max s.ptpt.clk n,
                                 step := if s.ptpt.stepAt ≤ n then 0 else s.ptpt.step } }

/-- Is the extended network time in use (R460, R540)? -/
def State.extTimeValid (s : State) : Bool :=
  s.rdBit R.PTPT_CTRL_LOCK && s.rd R.PTPT_EXT_TAG == s.rd R.PTPT_STAT_WRAPC

/-- Extended network time in ns (R460). -/
def State.extTime (s : State) : Nat := 2 ^ 32 * s.rd R.PTPT_EXT_W + s.counterNs

/-! ## Cores -/

def State.core (s : State) (p : Nat) : CoreS := NMap.get CoreS.off s.cores p
def State.setCore (s : State) (p : Nat) (c : CoreS) : State := { s with cores := NMap.set CoreS.off s.cores p c }

/-- The physical core that holds a duty (R76, R552). -/
def State.physOf (s : State) (d : Nat) : Nat :=
  bitsOf ((s.word R.BNCH_MAPLO).toNat + 2 ^ 32 * (s.word R.BNCH_MAPHI).toNat) (4 * d + 3) (4 * d)

/-- The duty a physical core holds; its own number where it holds none. -/
def State.dutyOf (s : State) (p : Nat) : Nat := ((List.range 16).find? (fun d => s.physOf d == p)).getD p

def State.inService (s : State) (p : Nat) : Bool := (s.rd R.CORE_SVC_INSVC).testBit p
def State.partOf (s : State) (p : Nat) : Nat := s.rd (R.CORE_nBIND_PART p)
/-- Cores 12 to 15 are checked (R48). -/
def isChecked (p : Nat) : Bool := decide (12 ≤ p)

/-- May an event reach this duty (R75)? -/
def State.isTarget (s : State) (d : Nat) : Bool :=
  let p := s.physOf d
  s.inService p && s.partOf p != 0 && !(s.core p).stopped

/-- The duties bound to a partition. -/
def State.dutiesOf (s : State) (part : Nat) : List Nat :=
  (List.range 16).filter (fun d => s.inService (s.physOf d) && s.partOf (s.physOf d) == part)

/-! ## Recorder queue (R539, R540) -/

def State.syncQlen (s : State) : State := s.wr R.RECD_STAT_QLEN s.recd.queue.length

/-- Time and time base of a record made now (R540). -/
def State.recTime (s : State) : Nat × Bool :=
  if s.extTimeValid then (s.extTime % 2 ^ 64, false)
  else ((s.word R.RTCB_TIME).toNat + 2 ^ 32 * (s.word (R.RTCB_TIME + 4)).toNat, true)

def State.mkRec (s : State) (code source cls p0 p1 : Nat) : Rec :=
  let t := s.recTime
  ⟨code, source, cls % 8 + 128 * b2n t.2, t.1, s.tickN % 2 ^ 32, p0, p1⟩

/-- The order of records that enter in one cycle (R540): automatic ones by event, then a program's by duty. -/
def Rec.order (r : Rec) : Nat := if r.code < 0x100 then r.code else 0x100 + r.source

/-- The queue with one more record, in its place among those that entered in the present cycle (R540). -/
def State.enqueue (s : State) (r : Rec) : RecdS :=
  let q := s.recd.queue
  let n := if s.recd.since = s.now then min s.recd.fresh q.length else 0
  let new := q.drop (q.length - n)
  { s.recd with
    since := s.now, fresh := n + 1,
    queue := q.take (q.length - n) ++ new.filter (fun x => decide (x.order ≤ r.order)) ++ r
      :: new.filter (fun x => decide (r.order < x.order)) }

/-- Enter a record in the write queue; the Bool tells that it was refused for want of room (R540). With EN = 0 it is
refused without count (R550). -/
def State.queueRec (s : State) (r : Rec) : State × Bool :=
  if s.rdPrev R.RECD_CTRL_EN = 0 then (s, false)
  else if 64 ≤ s.recd.queue.length then
    ({ (s.inc R.RECD_STAT_DROPS) with recd := { s.recd with lost := s.recd.lost + 1 } }, true)
  else (({ s with recd := s.enqueue r }).syncQlen, false)

/-! ## Events (R74 to R79) -/

/-- The window index of the block that raises an event (R79's table; R534). -/
def blockOfEvent (e : Nat) : Nat :=
  if e < 16 then 0 else if e < 48 then 1 else if e < 56 then 2 else if e < 80 then 3 else if e < 96 then 4
  else if e < 112 then 5 else if e < 120 then 6 else if e < 152 then 7 else if e < 168 then 8 else if e < 176 then 9
  else if e < 192 then 10 else if e = 198 ∨ e = 203 then 12 else if e < 208 then 11 else if e < 216 then 13
  else if e < 228 then 14 else if e < 236 then 15 else if e < 238 then 16 else if e < 244 then 17
  else if e < 248 then 21 else 19

/-- A bit of one of a duty's event words. -/
def evBit (base e : Nat) : FieldRef := ⟨base + 4 * (e / 32), e % 32, e % 32⟩
def pendBit (d e : Nat) : FieldRef := evBit (R.EVNT_nPENDw d 0) e
def ovfBit (d e : Nat) : FieldRef := evBit (R.EVNT_nOVFw d 0) e
def maskBit (d e : Nat) : FieldRef := evBit (R.EVNT_nMASKw d 0) e

/-- Send an event to one duty: it arrives 2 cycles after the raising cycle (R74). -/
def State.latch (e : Nat) (s : State) (d : Nat) : State := { s with evIn := s.evIn ++ [⟨s.now + 2, d, e⟩] }

def stopClass (e : Nat) : Bool := e == 6 || e == 176 || e == 216

/-- The targets of an event: the duties its rule names, the supervisor partition if the rule names it, and the routed
duties, less those that cannot be targets (R75, R78). -/
def State.targets (s : State) (e : Nat) (duties : List Nat) (sup : Bool) : List Nat :=
  let sd := if sup then s.dutiesOf 7 else []
  let route := if stopClass e then 0 else s.rdPrev (R.EVNT_ROUTEe_CORES e)
  (List.range 16).filter (fun d => (duties.contains d || sd.contains d || route.testBit d) && s.isTarget d)

/-- Raise an event without its automatic record. -/
def State.raiseQuiet (s : State) (e : Nat) (duties : List Nat) (sup : Bool) : State :=
  let s' := if sup && (s.dutiesOf 7).isEmpty then s.inc R.EVNT_STAT_NOSUP else s
  (s.targets e duties sup).foldl (State.latch e) s'

/-- Raise an event to the named duties and, with sup, to the supervisor partition (R74, R75, R56), with its automatic
record (R539). -/
def State.raise (s : State) (e : Nat) (duties : List Nat) (sup : Bool) : State :=
  let ts := s.targets e duties sup
  let seen := ts.any (fun d => s.rdBit (pendBit d e))
  let s' := s.raiseQuiet e duties sup
  if e != 236 && (s'.wordPrev (R.RECD_AUTOw (e / 32))).toNat.testBit (e % 32) then
    let cls := bitsOf (s'.wordPrev (R.RECD_ECLn (e / 8))).toNat (4 * (e % 8) + 2) (4 * (e % 8))
    let mask := ts.foldl (fun m d => m + 2 ^ d) 0
    let q := s'.queueRec (s'.mkRec e (blockOfEvent e) cls (mask + 65536 * b2n seen) 0)
    if q.2 then q.1.raiseQuiet 236 [] true else q.1
  else s'

def State.raiseSup (s : State) (e : Nat) : State := s.raise e [] true
/-- Raise an event to the duty of a physical core. -/
def State.raiseCore (s : State) (e p : Nat) : State := s.raise e [s.dutyOf p] false
def State.raiseCoreSup (s : State) (e p : Nat) : State := s.raise e [s.dutyOf p] true

/-! ## Stops and traps (R71, R72, R79) -/

/-- Stop a core with a reason of `CORE_nTRAP.STOP`, and raise its core event (R72, R77, R79). -/
def State.stopCore (s : State) (p reason : Nat) : State :=
  let c := s.core p
  let s := s.setCore p { c with stopped := true, wait := .none }
  let s := s.wr (R.CORE_nTRAP_STOP p) reason
  s.raiseSup (32 + s.dutyOf p)

/-- The stop reason of a stop-class event (R79, `CORE_nTRAP.STOP`). -/
def stopReason (e : Nat) : Nat := if e = 6 then 2 else if e = 176 then 3 else 4

/-- What a core keeps of the registers, flags, accumulators and stacks it had before an instruction that does not complete
(R79). -/
def CoreS.undo (c b : CoreS) : CoreS :=
  { c with
    pc := b.pc, w := b.w, acc := b.acc, z := b.z, n := b.n, c := b.c, v := b.v, s := b.s,
    rstack := b.rstack, lstack := b.lstack, trapMode := b.trapMode, job := b.job }

/-- An instruction whose last cycle falls after the cycle in which a stop-class event reached its core does not complete
(R79, R84). -/
def State.cutOff (s : State) (p a : Nat) : State :=
  let b := NMap.get Began.none s.began p
  if a + 1 < b.t + b.cost && decide (b.t ≤ a) then
    let s := (s.setCore p ((s.core p).undo b.core)).setWord (R.CORE_nVEC p) b.vec
    match b.took with
    | some m => { s with tier := { s.tier with
        jobs := NMap.modify JobS.init s.tier.jobs m (fun j => { j with taken := false }) } }
    | none => s
  else s

/-- The stop that follows a stop-class event of cycle a (R79). -/
def State.stopNow (s : State) (p a reason : Nat) : State :=
  if (s.core p).stopped then s
  else (((s.cutOff p a).setCycle (a - s.tickN * Config.cyclesPerTick)).stopCore p reason).setCycle s.cycle

/-- An event reaches a duty (R74, R75): raises of one event that reach a core in one cycle count as one. A stop-class event
stops the core once the instructions that end in this cycle have completed (R79). -/
def State.arrive (s : State) (x : EvIn) : State :=
  let p := s.physOf x.duty
  if 256 ≤ x.ev then s.stopNow p (x.arr - 1) (x.ev - 256)
  else if !s.isTarget x.duty || NMap.get 0 s.evAt (256 * x.duty + x.ev) / 2 == x.arr then s
  else
    let o := s.rdBit (ovfBit x.duty x.ev)
    let s := s.setBitAt x.arr (if s.rdBit (pendBit x.duty x.ev) then ovfBit x.duty x.ev else pendBit x.duty x.ev)
    let s := { s with evAt := NMap.set 0 s.evAt (256 * x.duty + x.ev) (2 * x.arr + b2n o) }
    if stopClass x.ev then { s with evIn := s.evIn ++ [⟨x.arr + 1, x.duty, 256 + stopReason x.ev⟩] } else s

/-- The events due by the present cycle reach their duties. -/
def State.arrivals (s : State) : State :=
  let t := s.now
  (s.evIn.filter (fun x => decide (x.arr ≤ t))).foldl State.arrive
    { s with evIn := s.evIn.filter (fun x => decide (t < x.arr)) }

/-- Time goes on to a cycle of the tick: what is due by then arrives, with the stops that stop-class events bring and the core
events of those stops. -/
def State.atCycle (s : State) (c : Nat) : State :=
  if s.evIn = [] then s.setCycle c else ((s.setCycle c).arrivals).arrivals.arrivals

/-- A program's access to the block registers (R5): programs run on cores that have started and are not stopped. -/
def State.byCore (s : State) (p : Port) (f : State → State) : State :=
  let s := s.atCycle p.cyc
  if (s.core p.core.val).on && !(s.core p.core.val).stopped then f s else s

/-- Does a stop-class event on its way reach core p by the cycle a, counted from tick 0 (R79)? -/
def State.stopBy (s : State) (p a : Nat) : Bool :=
  s.evIn.any fun x => s.physOf x.duty == p
    && (if 256 ≤ x.ev then decide (x.arr ≤ a + 1) else stopClass x.ev && decide (x.arr ≤ a))

/-- Note the instruction core p began in the state s, now that it has had its effect; a trap and a wait end no instruction. -/
def State.noteBegan (s : State) (p : Nat) (t : State) : State :=
  let taken (x : State) (m : Nat) : Bool := (NMap.get JobS.init x.tier.jobs m).taken
  if (t.core p).wait == .none && ((s.core p).trapMode || !(t.core p).trapMode) then
    { t with began := NMap.set Began.none t.began p ⟨s.now, (t.core p).cost, s.core p, s.word (R.CORE_nVEC p),
        (t.core p).job.filter (fun m => taken t m && !taken s m)⟩ }
  else { t with began := NMap.set Began.none t.began p Began.none }

/-- Events of a set that were raised in the present cycle are withdrawn, with their records. -/
def State.withdraw (s : State) (es : List Nat) : State :=
  let t := s.recTime.1
  { s with
    evIn := s.evIn.filter (fun x => !(es.contains x.ev && x.arr == s.now + 2))
    recd := { s.recd with queue := s.recd.queue.filter (fun r => !(es.contains r.code && r.time == t)) } }.syncQlen

/-- A safety fault Fk (R431, R432): added to FCAUSE; from RUN or DEGRADED the channel enters SAFE in the cycle after,
records LASTF, stops the safety core through the stop-class event 176 and raises event 177. It takes precedence over the evaluation
of the degraded causes in the same cycle (R433). -/
def State.safetyFault (s : State) (k : Nat) : State :=
  let s := s.wr R.SAFE_FCAUSE_F (s.rd R.SAFE_FCAUSE_F ||| 2 ^ k)
  if s.rd R.SAFE_STAT_STATE = 0 then s
  else
    let s := s.when (s.cycle == 0) (State.withdraw · [178, 179])
    let s := ((s.wr R.SAFE_STAT_STATE 0).wr R.SAFE_STAT_LASTF k).wr R.SAFE_GRLEFT_LEFT 0
    let s := { s with safe := { s.safe with started := false, passed := 0, arming := false } }
    let ds := (s.dutiesOf 8).filter s.isTarget
    (((s.setCycle (s.cycle + 1)).raise 176 ds false).raise 177 (s.dutiesOf 1) true).setCycle s.cycle

/-- A kick-off that stops (R562): no tick starts, nothing executes, record 0xFF01 holds the step and the code, with the refusal
code of the slot of the greater SGEN beside code 6, and the PAIR block keeps HWC. -/
def State.kickStop (s : State) (step code hwc refusal : Nat) : State :=
  let t := s.recTime
  let s := (List.range 16).foldl (fun s p => s.setCore p { s.core p with on := false, wait := .none }) s
  let s := { s with phase := .halted, rst := { s.rst with loader := none, late := [] },
                    pair := { s.pair with hwc := hwc } }
  (s.queueRec ⟨0xFF01, 0xFF, 0x83, t.1, 0, step, code + 256 * refusal⟩).1

/-- Taking a trap (R71): the cause, the address of the instruction and, for a memory cause, the data address are
recorded, both stacks are emptied, the core enters trap mode and continues at TRAPV after 4 cycles. A trap in trap mode
is a double trap: it is recorded with DOUBLE = 1 and the core stops (R72). On the safety core a double trap and a
local-ECC trap are safety fault F2 (R431). -/
def State.enterTrap (s : State) (p cause : Nat) (faddr : Option Nat) : State :=
  let c := s.core p
  let s := s.wr (R.CORE_nTRAP_CAUSE p) cause
  let s := s.wr (R.CORE_nTRAPPC_PC p) c.pc
  let s := match faddr with
    | some a => s.wr (R.CORE_nFADDR_ADDR p) a
    | none => s
  let s := s.inc (R.CORE_nCNT_TRAPS p)
  if s.phase == .setup then s.kickStop 6 7 7 0
  else if c.trapMode then
    let s := (s.wr (R.CORE_nTRAP_DOUBLE p) 1).stopCore p 1
    s.when (s.partOf p == 8) (State.safetyFault · 2)
  else
    let s := s.wr (R.CORE_nTRAP_DOUBLE p) 0
    let s := s.setCore p { c with trapMode := true, rstack := [], lstack := [], cost := 4,
                                  pc := 4 * s.rd (R.CORE_nVEC_TRAPV p) }
    let s := s.raiseSup (32 + s.dutyOf p)
    s.when (cause == 1 && s.partOf p == 8) (State.safetyFault · 2)

/-- The shadow checker disagrees with a held write (R49): the write is discarded, the core stops and the mismatch is
counted; on the safety core it is safety fault F0. -/
def State.checkMismatch (s : State) (p : Nat) : State :=
  let s := (s.inc (R.CORE_nCNT_CHKMIS p)).stopCore p 5
  s.when (s.partOf p == 8) (State.safetyFault · 0)

/-! ## Monitors (R541, R542) -/

/-- Monitors that run, from the listed registers (EN is 0 where unlisted). -/
def State.runningMonitors (s : State) : List Nat :=
  s.regs.filterMap fun (a, v) =>
    if R.MONI_mCTRL 0 ≤ a && a < R.MONI_mCTRL 64 && (a - R.MONI_mCTRL 0) % 0x100 == 0 && v.toNat % 2 == 1
    then some ((a - R.MONI_mCTRL 0) / 0x100) else none

/-- The bin of a sample (R542). -/
def monitorBin (log : Bool) (u : Int) : Nat :=
  if log then (if u ≤ 0 then 0 else min 31 (1 + u.toNat.log2)) else (clampInt 0 31 u).toNat

/-- One sample to one monitor (R542). -/
def State.sample (v : Int) (s : State) (m : Nat) : State :=
  let u := floorShift (v - s.rdI (R.MONI_mLO_LO m)) (s.rd (R.MONI_mCFG_SH m))
  let b := monitorBin (s.rdBit (R.MONI_mCFG_LOG m)) u
  let s := if v < s.rdI (R.MONI_mMIN_MIN m) then s.wrI (R.MONI_mMIN_MIN m) v else s
  let s := if s.rdI (R.MONI_mMAX_MAX m) < v then s.wrI (R.MONI_mMAX_MAX m) v else s
  let n := s.rd (R.MONI_mCNTLO_COUNT m) + 2 ^ 32 * s.rd (R.MONI_mCNTHI_COUNT m) + 1
  let s := (s.wr (R.MONI_mCNTLO_COUNT m) n).wr (R.MONI_mCNTHI_COUNT m) (n / 2 ^ 32)
  let s := { s with moniBins := NMap.modify 0 s.moniBins (32 * m + b) (fun x => satAdd 0xFFFFFFFF x 1) }
  if v < signedOf 32 (s.rdPrev (R.MONI_mALO_ALO m)) || signedOf 32 (s.rdPrev (R.MONI_mAHI_AHI m)) < v then
    let bit : FieldRef := ⟨if m < 32 then R.MONI_ALMLOw 0 else R.MONI_ALMLOw 1, m % 32, m % 32⟩
    if s.rdBit bit then s else (s.setBit bit).raiseSup 240
  else s

/-- A sample of a source reaches every running monitor that names it (R541); kinds 6 and 8 have one source. -/
def State.monitor (s : State) (kind idx : Nat) (v : Int) : State :=
  (s.runningMonitors.filter (fun m => s.rd (R.MONI_mCFG_KIND m) == kind
    && (kind == 6 || kind == 8 || s.rd (R.MONI_mCFG_IDX m) == idx))).foldl
    (State.sample (clampBits 32 v)) s

/-! ## The commons (04_commons_and_checks) -/

def State.setCmns (s : State) (c : CmnsS) : State := { s with cmns := c }
def State.wordMark (s : State) (w : Nat) : ErrMark := NMap.get .clean s.cmns.err w
def State.setMark (s : State) (w : Nat) (m : ErrMark) : State :=
  { s with cmns := { s.cmns with err := NMap.set .clean s.cmns.err w m } }

def bankOfWord (w : Nat) : Nat := w % 32
def rowOfWord (w : Nat) : Nat := w / 4096

/-- A single-bit error found in commons word w is corrected and counted (R131). -/
def State.countCorrected (s : State) (w : Nat) : State :=
  let b := bankOfWord w
  let s := s.setMark w .clean
  let s := (s.inc R.CMNS_ECCCNT_COR).inc (R.CMNS_BANKb_COR b)
  let n := NMap.get 0 s.cmns.perCor b + 1
  let s := { s with cmns := { s.cmns with perCor := NMap.set 0 s.cmns.perCor b n } }
  let thr := s.rd R.CMNS_CFG_CORTHR
  if thr = 0 ∨ n = thr then s.raiseSup 48 else s

/-- The event targets of a commons port: the core behind ports 0 to 15 (R143). -/
def portDuties (port : Nat) : List Nat := if port < 16 then [port] else []

/-- A read of a word found uncorrectable: recorded and signalled, and the word is poisoned (R132). -/
def State.poisonedRead (s : State) (port w : Nat) : State :=
  let s := s.setMark w .poisoned
  let s := ((s.inc R.CMNS_ECCCNT_UNC).wr R.CMNS_UEADDR_ADDR (8 * w)).wr R.CMNS_UEINFO_PORT port
  s.raise 49 (portDuties port) true

/-- The ECC side of a granted read of word w; the Bool tells that the word is poisoned (R131, R132). -/
def State.checkWord (s : State) (port w : Nat) : State × Bool :=
  match s.wordMark w with
  | .clean => (s, false)
  | .single => (s.countCorrected w, false)
  | .double => (s.poisonedRead port w, true)
  | .poisoned => (s.poisonedRead port w, true)

/-- Read n bytes at commons address a (within one word) through a port. -/
def State.commonsRead (s : State) (port a n : Nat) : Nat × Bool × State :=
  let r := s.checkWord port (a / 8)
  (memRead r.1.mem a n, r.2, r.1)

/-- Write n bytes at commons address a (within one word) through a port: a whole word clears any error, a partial write
is a read-merge-write that a poisoned word discards (R123, R131, R132). A partial write that is the first to meet an
uncorrectable word poisons it and raises event 51 alone (DEDUCED: notes/assumptions/18). -/
def State.commonsWrite (s : State) (port a n v : Nat) : State :=
  if n = 8 then { (s.setMark (a / 8) .clean) with mem := memWrite s.mem a 8 v }
  else
    match s.wordMark (a / 8) with
    | .clean => { s with mem := memWrite s.mem a n v }
    | .single => let s := s.countCorrected (a / 8)
                 { s with mem := memWrite s.mem a n v }
    | _ => ((s.setMark (a / 8) .poisoned).setBit R.CMNS_UEINFO_WRITE).raise 51 (portDuties port) true

/-- Read n words from commons byte address a; the Bool tells that a poisoned word was read. -/
def State.readWords (s : State) (port a : Nat) : Nat → List Nat × Bool × State
  | 0 => ([], false, s)
  | n + 1 =>
    let r := s.commonsRead port a 8
    let t := r.2.2.readWords port (a + 8) n
    (r.1 :: t.1, r.2.1 || t.2.1, t.2.2)

/-- Write words from commons byte address a. -/
def State.writeWords (s : State) (port a : Nat) : List Nat → State
  | [] => s
  | v :: r => (s.commonsWrite port a 8 v).writeWords port (a + 8) r

/-! ### CRC-32C and check words (R136, R138) -/

/-- One bit of a reflected CRC with the given reflected polynomial. -/
def crcBit (poly c : Nat) : Nat := if c % 2 = 1 then (c / 2) ^^^ poly else c / 2

def crcByte (poly c b : Nat) : Nat :=
  let x := c ^^^ (b % 256)
  crcBit poly (crcBit poly (crcBit poly (crcBit poly (crcBit poly (crcBit poly (crcBit poly (crcBit poly x)))))))

def crcRun (poly : Nat) : Nat → List Nat → Nat
  | c, [] => c
  | c, b :: r => crcRun poly (crcByte poly c b) r

/-- CRC-32C of bytes in ascending address order (R136): polynomial 0x1EDC_6F41 reflected. -/
def crc32c (bs : List Nat) : Nat := crcRun 0x82F63B78 0xFFFFFFFF bs ^^^ 0xFFFFFFFF

/-- The n low bytes of a number, lowest first. -/
def leBytes : Nat → Nat → List Nat
  | 0, _ => []
  | n + 1, v => v % 256 :: leBytes n (v / 256)

/-- The number spelled by bytes, lowest first. -/
def leNat : List Nat → Nat
  | [] => 0
  | b :: r => b % 256 + 256 * leNat r

def wordsBytes (ws : List Nat) : List Nat := ws.flatMap (leBytes 8)

def checkWordOf (crc len mark : Nat) : Nat := crc % 2 ^ 32 + 2 ^ 32 * (len % 2 ^ 24) + 2 ^ 56 * (mark % 256)

/-- The check word of data words (R138). -/
def carryWord (ws : List Nat) : Nat := checkWordOf (crc32c (wordsBytes ws)) ws.length 0x5C

/-- Verify a carried buffer: 0 sound, 5 MARK or LEN, 6 CRC (R138, R142). -/
def verifyCheck (ws : List Nat) (cw : Nat) : Nat :=
  if bitsOf cw 63 56 ≠ 0x5C ∨ bitsOf cw 55 32 ≠ ws.length then 5
  else if bitsOf cw 31 0 ≠ crc32c (wordsBytes ws) then 6 else 0

/-- A carried check failed at a block (R139): the check word's address and the detecting block are recorded, event 50. -/
def State.carriedFail (s : State) (addr block : Nat) (exit : Bool) : State :=
  (((s.wr R.CMNS_CKFADDR_ADDR addr).wr R.CMNS_CKFINFO_DETECT block).wrBit R.CMNS_CKFINFO_EXIT exit).raiseSup 50

end Sys2Proof.Machine
end

