-- ==== Sys2Proof/Machine/Operands.lean ====
section
/-! DEFINITION. Operand forms of the DW instructions: registers, pairs, accumulators, immediates, conditions and
effective addresses (R57, R58, R82, R83, R90, R94, R95). -/

namespace Sys2Proof.Machine

/-- Register wk; w0 reads as zero (R57). -/
def CoreS.reg (c : CoreS) (k : Nat) : Word := if k = 0 then 0 else NMap.get 0 c.w k
/-- Write register wk; a write to w0 is discarded (R57). -/
def CoreS.setReg (c : CoreS) (k : Nat) (v : Word) : CoreS := if k = 0 then c else { c with w := NMap.set 0 c.w k v }

def CoreS.regN (c : CoreS) (k : Nat) : Nat := (c.reg k).toNat
def CoreS.regI (c : CoreS) (k : Nat) : Int := (c.reg k).toInt
def CoreS.setRegN (c : CoreS) (k v : Nat) : CoreS := c.setReg k (BitVec.ofNat 32 v)

/-- The 64-bit value of the pair wk, wk+1, low word in wk (R57). -/
def CoreS.pair (c : CoreS) (k : Nat) : DWord := BitVec.ofNat 64 (c.regN k + 2 ^ 32 * c.regN (k + 1))
def CoreS.setPair (c : CoreS) (k : Nat) (v : DWord) : CoreS :=
  (c.setRegN k v.toNat).setRegN (k + 1) (v.toNat / 2 ^ 32)

/-- Accumulator k as the integer it holds (R58). -/
def CoreS.accI (c : CoreS) (k : Nat) : Int := (NMap.get (0 : BitVec 72) c.acc k).toInt
def CoreS.setAcc (c : CoreS) (k : Nat) (v : Int) : CoreS :=
  { c with acc := NMap.set (0 : BitVec 72) c.acc k (BitVec.ofInt 72 v) }

/-- A register field that names a pair is even (R57, R83). -/
def isPair (r : BitVec 6) : Bool := r.toNat % 2 == 0

/-- Immediates (R94). -/
def sextImm (imm : BitVec 14) : Word := imm.signExtend 32
def zextImm (imm : BitVec 14) : Word := imm.zeroExtend 32

/-- Conditions (R90); code 15 asks for register ra ≠ 0 and is B's only. -/
def CoreS.cond (c : CoreS) (code : Nat) (ra : Nat) : Bool :=
  match code with
  | 0 => true
  | 1 => c.z
  | 2 => !c.z
  | 3 => c.n
  | 4 => !c.n
  | 5 => c.c
  | 6 => !c.c
  | 7 => c.v
  | 8 => !c.v
  | 9 => c.n != c.v
  | 10 => c.n == c.v
  | 11 => !c.z && c.n == c.v
  | 12 => c.z || c.n != c.v
  | 13 => c.c && !c.z
  | 14 => !c.c || c.z
  | _ => c.reg ra != 0

/-- The byte address of a load or store: ra + sext(imm14) (R95). -/
def CoreS.ea (c : CoreS) (ra : Nat) (imm : BitVec 14) : Nat := (c.reg ra + sextImm imm).toNat

end Sys2Proof.Machine
end

