-- ==== Sys2Proof/Machine/Flags.lean ====
section
/-! DEFINITION. The flag computations of the DW instructions (R59, R89, R91 to R93, R98 to R101). S is set by a
saturation and never cleared by one; L follows the loop stack and is no stored flag. -/

namespace Sys2Proof.Machine

/-- Z and N from a result, C and V as given (ZNCV, R89). -/
def CoreS.zncv {w : Nat} (c : CoreS) (r : BitVec w) (cf vf : Bool) : CoreS :=
  { c with z := r == 0, n := r.msb, c := cf, v := vf }

/-- Z and N from a result, C and V cleared (ZN, R89). -/
def CoreS.zn {w : Nat} (c : CoreS) (r : BitVec w) : CoreS := c.zncv r false false

/-- Set S if a saturation occurred (R59). -/
def CoreS.sat (c : CoreS) (b : Bool) : CoreS := { c with s := c.s || b }

/-- A sum with its carry out and signed overflow (R91). -/
structure AluRes (w : Nat) where
  val : BitVec w
  carry : Bool
  ovf : Bool
deriving DecidableEq, Repr

/-- ra + rb + carry-in: C is the carry out of the top bit, V signed overflow (R91, ADD, ADDC). -/
def addRes {w : Nat} (a b : BitVec w) (cin : Bool) : AluRes w :=
  ⟨BitVec.ofNat w (a.toNat + b.toNat + b2n cin), decide (2 ^ w ≤ a.toNat + b.toNat + b2n cin),
   !fitsBits w (a.toInt + b.toInt + (b2n cin : Int))⟩

/-- ra − rb − borrow-in: C is 1 if there is no borrow, V signed overflow (R91, SUB, SUBC with 1 − C as the borrow). -/
def subRes {w : Nat} (a b : BitVec w) (bin : Bool) : AluRes w :=
  ⟨BitVec.ofNat w (a.toNat + 2 ^ w - b.toNat - b2n bin), decide (b.toNat + b2n bin ≤ a.toNat),
   !fitsBits w (a.toInt - b.toInt - (b2n bin : Int))⟩

/-- The nearest signed limit of an exact result (R93). -/
def satTo (w : Nat) (x : Int) : BitVec w := BitVec.ofInt w (clampBits w x)

/-- A shift or rotate by an amount: its result and C, the last bit shifted out, 0 for an amount of 0 (R92).
kind 0 SHL, 1 SHR, 2 SRA, 3 ROR. -/
def shiftRes (kind : Nat) (a : Word) (amt : Nat) : Word × Bool :=
  if amt = 0 then (a, false)
  else match kind with
    | 0 => (a <<< amt, a.getLsbD (32 - amt))
    | 1 => (a >>> amt, a.getLsbD (amt - 1))
    | 2 => (a.sshiftRight amt, a.getLsbD (amt - 1))
    | _ => let r := a.rotateRight amt
           (r, r.msb)

/-- Extraction under R60: shifted right with rounding half upwards and clamped; the Bool tells that it saturated. -/
def extractRes (w : Nat) (p : Int) (sh : Nat) : BitVec w × Bool :=
  let q := roundShift p sh
  (satTo w q, !fitsBits w q)

/-- The status word (R59); L follows the loop stack. -/
def CoreS.status (c : CoreS) : Nat :=
  b2n c.z + 2 * b2n c.n + 4 * b2n c.c + 8 * b2n c.v + 16 * b2n c.s + 32 * b2n (!c.lstack.isEmpty)

end Sys2Proof.Machine
end

