-- ==== Sys2Proof/Machine/CoreRun.lean ====
section
/-! DEFINITION. How one instruction runs on a core: who executes, the fetch check, the decode check, the step past the
instruction with the hardware loops, and the outcomes (R55, R63, R66, R71, R82 to R84, R105, R106). -/

namespace Sys2Proof.Machine

/-- What an instruction does on its core: a trap with its cause and the data address of a memory cause, or completion
with the core it leaves and its cycles. -/
inductive Eff where
  | trap (cause : Nat) (faddr : Option Nat)
  | done (c : CoreS) (cost : Nat)
deriving DecidableEq, Repr

/-- A core executes instructions when it has started and neither waits nor is stopped (R55, R79, R118). -/
def CoreS.executes (c : CoreS) : Bool := c.on && !c.stopped && c.wait == .none

/-- The step past a completed instruction at pc (R66, R104, R106): every innermost loop whose last body word this is, at
the call depth of its opening, either goes back to its first word or closes. -/
def stepPast (pc depth : Nat) : List LoopEnt → Nat × List LoopEnt
  | [] => (pc + 4, [])
  | e :: r =>
    if pc = e.last ∧ depth = e.depth then
      if 1 < e.count then (e.first, { e with count := e.count - 1 } :: r) else stepPast pc depth r
    else (pc + 4, e :: r)

/-- The core after an instruction that does not transfer control. -/
def CoreS.advance (c : CoreS) : CoreS :=
  let r := stepPast c.pc c.rstack.length c.lstack
  { c with pc := r.1, lstack := r.2 }

/-- An instruction that does not transfer would run past 0xFFFC (R82). -/
def CoreS.runsOut (c : CoreS) : Bool := decide (0xFFFC < (stepPast c.pc c.rstack.length c.lstack).1)

/-- The loop entry whose last body word is at pc and whose depth is the present one, if any is active (R105). -/
def CoreS.atLoopEnd (c : CoreS) : Bool := c.lstack.any (fun e => e.last == c.pc && e.depth == c.rstack.length)

/-- The error mark of the instruction word at pc (R63). -/
def CoreS.fetchMark (c : CoreS) : ErrMark := NMap.get .clean c.imemErr (c.pc / 4)

/-- A single-bit error found on a fetch is corrected, counted and written back (R63). -/
def State.fetchFix (s : State) (p : Nat) : State :=
  let c := s.core p
  if c.fetchMark = .single then
    (s.setCore p { c with imemErr := NMap.set .clean c.imemErr (c.pc / 4) .clean }).inc (R.CORE_nCNT_ECCCOR p)
  else s

/-- Take the outcome of an instruction on core p. -/
def State.settle (s : State) (p : Nat) (e : Eff) : State :=
  match e with
  | .trap cause fa => s.enterTrap p cause fa
  | .done c cost => s.setCore p { c with cost := cost }

/-- Is the duty of core p paused by a substitution in this cycle (R545)? -/
def State.paused (s : State) (p : Nat) : Bool := s.bnch.pauseCore == p + 1 && decide (s.cycle < s.bnch.pauseUntil)

/-- The word at pc has a reserved opcode, function or selector (R83, R88): it spells no instruction. -/
def CoreS.reservedWord (c : CoreS) (i : Issue) : Bool := (decodeDwenan i (BitVec.ofNat 32 (memRead c.imem c.pc 4))).isNone

/-- The frame of every instruction: a core that executes nothing changes nothing; an uncorrectable fetch traps with
cause 1, a reserved word or a failed decode check with cause 2 (R83), and otherwise the body runs on the state after the
fetch. -/
def State.runInstr (s : State) (i : Issue) (legal : Bool) (body : State → CoreS → State) : State :=
  let s := s.atCycle i.cyc
  let p := i.core.val
  if !(s.core p).executes || s.paused p then s
  else if (s.core p).fetchMark = .double ∨ (s.core p).fetchMark = .poisoned then
    s.enterTrap p 1 none
  else
    let s := s.fetchFix p
    if !legal || (s.core p).reservedWord i then s.enterTrap p 2 none else s.noteBegan p (body s (s.core p))

/-- An instruction that acts on its core's registers, flags and accumulators alone and does not transfer. -/
def State.runLocal (s : State) (i : Issue) (legal : Bool) (f : CoreS → Eff) : State :=
  s.runInstr i legal fun s c =>
    if c.runsOut then s.enterTrap i.core.val 2 none
    else match f c with
      | .trap cause fa => s.enterTrap i.core.val cause fa
      | .done c' cost => s.setCore i.core.val { c'.advance with cost := cost }

/-- Finish a non-transferring instruction that has left core p as c. -/
def State.finish (s : State) (p : Nat) (c : CoreS) (cost : Nat) : State :=
  s.setCore p { c.advance with cost := cost }

/-- The two cycles a checked core's write is held (R48, R86). -/
def holdCost (i : Issue) : Nat := if isChecked i.core.val then 2 else 0

end Sys2Proof.Machine
end

