-- ==== Sys2Proof/Machine/Alu.lean ====
section
/-! DEFINITION. The register ALU and the immediate forms (R91 to R94) and the system instructions without effect outside
the core (R120). -/

namespace Sys2Proof.Machine

abbrev Out := Host.Outcome State Fault Refusal

/-- rd takes a sum or difference, flags ZNCV (R91). -/
def setAlu (rd : Nat) (r : AluRes 32) (c : CoreS) : Eff := .done ((c.setReg rd r.val).zncv r.val r.carry r.ovf) 1

/-- rd takes a logical result, flags ZN (R91). -/
def setZn (rd : Nat) (v : Word) (cost : Nat) (c : CoreS) : Eff := .done ((c.setReg rd v).zn v) cost

/-- rd takes the saturated exact result; C as for the plain form, V and S on saturation (R93). -/
def setSat (rd : Nat) (r : AluRes 32) (exact : Int) (c : CoreS) : Eff :=
  let v := satTo 32 exact
  .done (((c.setReg rd v).zncv v r.carry r.ovf).sat r.ovf) 1

/-- The 64-bit forms (R91): pair rd, flags at 64 bits. -/
def setAluD (rd : Nat) (r : AluRes 64) (c : CoreS) : Eff := .done ((c.setPair rd r.val).zncv r.val r.carry r.ovf) 1

def setSatD (rd : Nat) (r : AluRes 64) (exact : Int) (c : CoreS) : Eff :=
  let v := satTo 64 exact
  .done (((c.setPair rd v).zncv v r.carry r.ovf).sat r.ovf) 1

/-- rd takes a shift or rotate; C the last bit shifted out, V cleared (R92). -/
def setShift (rd kind : Nat) (a : Word) (amt : Nat) (c : CoreS) : Eff :=
  let r := shiftRes kind a amt
  .done ((c.setReg rd r.1).zncv r.1 r.2 false) 1

/-- The field rules of the shift opcodes (R92). -/
def shiftLegal (rb : BitVec 6) (fn : BitVec 8) : Bool :=
  if fn.getLsbD 7 then bitsOf fn.toNat 6 5 == 0 && rb == 0 else bitsOf fn.toNat 6 0 == 0

def shiftAmount (c : CoreS) (rb : BitVec 6) (fn : BitVec 8) : Nat :=
  if fn.getLsbD 7 then bitsOf fn.toNat 4 0 else c.regN rb.toNat % 32

def runShift (kind : Nat) (i : Issue) (rd ra rb : BitVec 6) (fn : BitVec 8) (s : State) : Out :=
  .next (s.runLocal i (shiftLegal rb fn) fun c => setShift rd.toNat kind (c.reg ra.toNat) (shiftAmount c rb fn) c)

/-- ADD (R91): rd = ra + rb. -/
def execAdd (i : Issue) (rd ra rb : BitVec 6) (s : State) : Out :=
  .next (s.runLocal i true fun c => setAlu rd.toNat (addRes (c.reg ra.toNat) (c.reg rb.toNat) false) c)

/-- ADDC (R91): rd = ra + rb + C. -/
def execAddc (i : Issue) (rd ra rb : BitVec 6) (s : State) : Out :=
  .next (s.runLocal i true fun c => setAlu rd.toNat (addRes (c.reg ra.toNat) (c.reg rb.toNat) c.c) c)

/-- ADDS (R91, R93): the saturating sum. -/
def execAdds (i : Issue) (rd ra rb : BitVec 6) (s : State) : Out :=
  .next (s.runLocal i true fun c =>
    setSat rd.toNat (addRes (c.reg ra.toNat) (c.reg rb.toNat) false) (c.regI ra.toNat + c.regI rb.toNat) c)

/-- SUB (R91): rd = ra − rb. -/
def execSub (i : Issue) (rd ra rb : BitVec 6) (s : State) : Out :=
  .next (s.runLocal i true fun c => setAlu rd.toNat (subRes (c.reg ra.toNat) (c.reg rb.toNat) false) c)

/-- SUBC (R91): rd = ra − rb − (1 − C). -/
def execSubc (i : Issue) (rd ra rb : BitVec 6) (s : State) : Out :=
  .next (s.runLocal i true fun c => setAlu rd.toNat (subRes (c.reg ra.toNat) (c.reg rb.toNat) (!c.c)) c)

/-- SUBS (R91, R93): the saturating difference. -/
def execSubs (i : Issue) (rd ra rb : BitVec 6) (s : State) : Out :=
  .next (s.runLocal i true fun c =>
    setSat rd.toNat (subRes (c.reg ra.toNat) (c.reg rb.toNat) false) (c.regI ra.toNat - c.regI rb.toNat) c)

/-- AND (R91). -/
def execAnd (i : Issue) (rd ra rb : BitVec 6) (s : State) : Out :=
  .next (s.runLocal i true fun c => setZn rd.toNat (c.reg ra.toNat &&& c.reg rb.toNat) 1 c)

/-- OR (R91). -/
def execOr (i : Issue) (rd ra rb : BitVec 6) (s : State) : Out :=
  .next (s.runLocal i true fun c => setZn rd.toNat (c.reg ra.toNat ||| c.reg rb.toNat) 1 c)

/-- XOR (R91). -/
def execXor (i : Issue) (rd ra rb : BitVec 6) (s : State) : Out :=
  .next (s.runLocal i true fun c => setZn rd.toNat (c.reg ra.toNat ^^^ c.reg rb.toNat) 1 c)

/-- SHL (R92). -/
def execShl (i : Issue) (rd ra rb : BitVec 6) (fn : BitVec 8) (s : State) : Out := runShift 0 i rd ra rb fn s
/-- SHR (R92). -/
def execShr (i : Issue) (rd ra rb : BitVec 6) (fn : BitVec 8) (s : State) : Out := runShift 1 i rd ra rb fn s
/-- SRA (R92). -/
def execSra (i : Issue) (rd ra rb : BitVec 6) (fn : BitVec 8) (s : State) : Out := runShift 2 i rd ra rb fn s
/-- ROR (R92). -/
def execRor (i : Issue) (rd ra rb : BitVec 6) (fn : BitVec 8) (s : State) : Out := runShift 3 i rd ra rb fn s

/-- MUL (R91): low 32 bits of the product; C = 0, V = 1 if the signed product does not fit 32 bits. -/
def execMul (i : Issue) (rd ra rb : BitVec 6) (s : State) : Out :=
  .next (s.runLocal i true fun c =>
    let v := c.reg ra.toNat * c.reg rb.toNat
    .done ((c.setReg rd.toNat v).zncv v false (!fitsBits 32 (c.regI ra.toNat * c.regI rb.toNat))) 2)

/-- MULH (R91): high 32 bits of the signed product. -/
def execMulh (i : Issue) (rd ra rb : BitVec 6) (s : State) : Out :=
  .next (s.runLocal i true fun c =>
    setZn rd.toNat (BitVec.ofInt 32 (floorShift (c.regI ra.toNat * c.regI rb.toNat) 32)) 2 c)

/-- MULHU (R91): high 32 bits of the unsigned product. -/
def execMulhu (i : Issue) (rd ra rb : BitVec 6) (s : State) : Out :=
  .next (s.runLocal i true fun c => setZn rd.toNat (BitVec.ofNat 32 (c.regN ra.toNat * c.regN rb.toNat / 2 ^ 32)) 2 c)

/-- MULW (R91): the signed 64-bit product into pair rd. -/
def execMulw (i : Issue) (rd ra rb : BitVec 6) (s : State) : Out :=
  .next (s.runLocal i (isPair rd) fun c =>
    let v := BitVec.ofInt 64 (c.regI ra.toNat * c.regI rb.toNat)
    .done ((c.setPair rd.toNat v).zn v) 2)

/-- CMP (R91): flags of ra − rb; rd must be 0. -/
def execCmp (i : Issue) (rd ra rb : BitVec 6) (s : State) : Out :=
  .next (s.runLocal i (rd == 0) fun c => setAlu 0 (subRes (c.reg ra.toNat) (c.reg rb.toNat) false) c)

/-- MIN (R91): the signed minimum. -/
def execMin (i : Issue) (rd ra rb : BitVec 6) (s : State) : Out :=
  .next (s.runLocal i true fun c =>
    setZn rd.toNat (if c.regI ra.toNat ≤ c.regI rb.toNat then c.reg ra.toNat else c.reg rb.toNat) 1 c)

/-- MAX (R91): the signed maximum. -/
def execMax (i : Issue) (rd ra rb : BitVec 6) (s : State) : Out :=
  .next (s.runLocal i true fun c =>
    setZn rd.toNat (if c.regI ra.toNat ≤ c.regI rb.toNat then c.reg rb.toNat else c.reg ra.toNat) 1 c)

/-- MINU (R91): the unsigned minimum. -/
def execMinu (i : Issue) (rd ra rb : BitVec 6) (s : State) : Out :=
  .next (s.runLocal i true fun c =>
    setZn rd.toNat (if c.regN ra.toNat ≤ c.regN rb.toNat then c.reg ra.toNat else c.reg rb.toNat) 1 c)

/-- MAXU (R91): the unsigned maximum. -/
def execMaxu (i : Issue) (rd ra rb : BitVec 6) (s : State) : Out :=
  .next (s.runLocal i true fun c =>
    setZn rd.toNat (if c.regN ra.toNat ≤ c.regN rb.toNat then c.reg rb.toNat else c.reg ra.toNat) 1 c)

/-- SEL (R91): rd = condition fn[3:0] true ? ra : rb; fn[7:4] must be 0 and condition 15 is reserved (R90). -/
def execSel (i : Issue) (rd ra rb : BitVec 6) (fn : BitVec 8) (s : State) : Out :=
  .next (s.runLocal i (decide (fn.toNat < 15)) fun c =>
    .done (c.setReg rd.toNat (if c.cond fn.toNat 0 then c.reg ra.toNat else c.reg rb.toNat)) 1)

/-- NEG (R91): rd = 0 − ra; rb must be 0. -/
def execNeg (i : Issue) (rd ra rb : BitVec 6) (s : State) : Out :=
  .next (s.runLocal i (rb == 0) fun c => setAlu rd.toNat (subRes 0 (c.reg ra.toNat) false) c)

/-- ABS (R91): rd = sat32(abs(ra)); flags ZN, but the most negative number sets V and saturates. rb must be 0. -/
def execAbs (i : Issue) (rd ra rb : BitVec 6) (s : State) : Out :=
  .next (s.runLocal i (rb == 0) fun c =>
    let x : Int := (c.regI ra.toNat).natAbs
    let v := satTo 32 x
    .done (((c.setReg rd.toNat v).zncv v false (!fitsBits 32 x)).sat (!fitsBits 32 x)) 1)

/-- Leading zeros of a word, 0 to 32 (R91). -/
def clzOf (a : Word) : Nat := if a = 0 then 32 else 31 - a.toNat.log2

/-- CLZ (R91); rb must be 0. -/
def execClz (i : Issue) (rd ra rb : BitVec 6) (s : State) : Out :=
  .next (s.runLocal i (rb == 0) fun c => setZn rd.toNat (BitVec.ofNat 32 (clzOf (c.reg ra.toNat))) 1 c)

/-- SEXB (R91): ra[7:0] sign-extended; rb must be 0. -/
def execSexb (i : Issue) (rd ra rb : BitVec 6) (s : State) : Out :=
  .next (s.runLocal i (rb == 0) fun c => setZn rd.toNat (((c.reg ra.toNat).setWidth 8).signExtend 32) 1 c)

/-- SEXH (R91): ra[15:0] sign-extended; rb must be 0. -/
def execSexh (i : Issue) (rd ra rb : BitVec 6) (s : State) : Out :=
  .next (s.runLocal i (rb == 0) fun c => setZn rd.toNat (((c.reg ra.toNat).setWidth 16).signExtend 32) 1 c)

/-- All three register fields name pairs (R57, R83). -/
def pairs3 (rd ra rb : BitVec 6) : Bool := isPair rd && isPair ra && isPair rb

/-- ADDD (R91): 64-bit sum of pairs. -/
def execAddd (i : Issue) (rd ra rb : BitVec 6) (s : State) : Out :=
  .next (s.runLocal i (pairs3 rd ra rb) fun c => setAluD rd.toNat (addRes (c.pair ra.toNat) (c.pair rb.toNat) false) c)

/-- SUBD (R91): 64-bit difference of pairs. -/
def execSubd (i : Issue) (rd ra rb : BitVec 6) (s : State) : Out :=
  .next (s.runLocal i (pairs3 rd ra rb) fun c => setAluD rd.toNat (subRes (c.pair ra.toNat) (c.pair rb.toNat) false) c)

/-- ADDDS (R91, R93): saturating 64-bit sum. -/
def execAddds (i : Issue) (rd ra rb : BitVec 6) (s : State) : Out :=
  .next (s.runLocal i (pairs3 rd ra rb) fun c =>
    setSatD rd.toNat (addRes (c.pair ra.toNat) (c.pair rb.toNat) false)
      ((c.pair ra.toNat).toInt + (c.pair rb.toNat).toInt) c)

/-- SUBDS (R91, R93): saturating 64-bit difference. -/
def execSubds (i : Issue) (rd ra rb : BitVec 6) (s : State) : Out :=
  .next (s.runLocal i (pairs3 rd ra rb) fun c =>
    setSatD rd.toNat (subRes (c.pair ra.toNat) (c.pair rb.toNat) false)
      ((c.pair ra.toNat).toInt - (c.pair rb.toNat).toInt) c)

/-- ADDI (R94): rd = ra + sext(imm14). -/
def execAddi (i : Issue) (rd ra : BitVec 6) (imm : BitVec 14) (s : State) : Out :=
  .next (s.runLocal i true fun c => setAlu rd.toNat (addRes (c.reg ra.toNat) (sextImm imm) false) c)

/-- ANDI (R94). -/
def execAndi (i : Issue) (rd ra : BitVec 6) (imm : BitVec 14) (s : State) : Out :=
  .next (s.runLocal i true fun c => setZn rd.toNat (c.reg ra.toNat &&& zextImm imm) 1 c)

/-- ORI (R94). -/
def execOri (i : Issue) (rd ra : BitVec 6) (imm : BitVec 14) (s : State) : Out :=
  .next (s.runLocal i true fun c => setZn rd.toNat (c.reg ra.toNat ||| zextImm imm) 1 c)

/-- XORI (R94). -/
def execXori (i : Issue) (rd ra : BitVec 6) (imm : BitVec 14) (s : State) : Out :=
  .next (s.runLocal i true fun c => setZn rd.toNat (c.reg ra.toNat ^^^ zextImm imm) 1 c)

/-- SHI (R94): kind imm14[6:5], amount imm14[4:0]; imm14[13:7] must be 0. -/
def execShi (i : Issue) (rd ra : BitVec 6) (imm : BitVec 14) (s : State) : Out :=
  .next (s.runLocal i (bitsOf imm.toNat 13 7 == 0) fun c =>
    setShift rd.toNat (bitsOf imm.toNat 6 5) (c.reg ra.toNat) (bitsOf imm.toNat 4 0) c)

/-- CMPI (R94): flags of ra − sext(imm14); rd must be 0. -/
def execCmpi (i : Issue) (rd ra : BitVec 6) (imm : BitVec 14) (s : State) : Out :=
  .next (s.runLocal i (rd == 0) fun c => setAlu 0 (subRes (c.reg ra.toNat) (sextImm imm) false) c)

/-- LUI (R94): rd = imm20 × 4,096. -/
def execLui (i : Issue) (rd : BitVec 6) (imm : BitVec 20) (s : State) : Out :=
  .next (s.runLocal i true fun c => .done (c.setRegN rd.toNat (imm.toNat * 4096)) 1)

/-- LI (R94): rd = sext(imm20). -/
def execLi (i : Issue) (rd : BitVec 6) (imm : BitVec 20) (s : State) : Out :=
  .next (s.runLocal i true fun c => .done (c.setReg rd.toNat (imm.signExtend 32)) 1)

/-- NOP (R120); rd and ra must be 0. -/
def execNop (i : Issue) (rd ra : BitVec 6) (s : State) : Out :=
  .next (s.runLocal i (rd == 0 && ra == 0) fun c => .done c 1)

/-- RDSR (R120): rd = the status word; ra must be 0. -/
def execRdsr (i : Issue) (rd ra : BitVec 6) (s : State) : Out :=
  .next (s.runLocal i (ra == 0) fun c => .done (c.setRegN rd.toNat c.status) 1)

/-- WRSR (R120): Z, N, C, V, S from ra[4:0]; rd must be 0. -/
def execWrsr (i : Issue) (rd ra : BitVec 6) (s : State) : Out :=
  .next (s.runLocal i (rd == 0) fun c =>
    let a := c.reg ra.toNat
    .done { c with z := a.getLsbD 0, n := a.getLsbD 1, c := a.getLsbD 2, v := a.getLsbD 3, s := a.getLsbD 4 } 1)

/-- The word RDID returns (R120): duty, physical core, partition and checked bit. -/
def rdidWord (s : State) (p : Nat) : Nat := s.dutyOf p + 16 * p + 256 * s.partOf p + 4096 * b2n (isChecked p)

/-- RDID (R120); ra must be 0. -/
def execRdid (i : Issue) (rd ra : BitVec 6) (s : State) : Out :=
  .next (s.runLocal i (ra == 0) fun c => .done (c.setRegN rd.toNat (rdidWord s i.core.val)) 1)

end Sys2Proof.Machine
end

