-- ==== Sys2Proof/Machine/Tier.lean ====
section
/-! DEFINITION. Ticks, posts, the scoreboard, jobs and their deadlines (01_tiers_and_changeover, R18 to R46). -/

namespace Sys2Proof.Machine

/-! ## Tiers and boundaries (R3, R19) -/

/-- Ticks of a tier unit: 0 tick, 1 frame, 2 round, 3 period (R3). -/
def tierTicks (t : Nat) : Nat := if t = 0 then 1 else if t = 1 then 10 else if t = 2 then 1000 else 100000

def State.boundary (s : State) (t : Nat) : Bool := s.tickN % tierTicks t == 0

/-! ## Posts (R23, R24, R32) -/

def State.setTier (s : State) (t : TierS) : State := { s with tier := t }

/-- The staging buffer of a source. -/
def State.staged (s : State) (src : Nat) : List Post := NMap.get [] s.tier.staging src

/-- A post of a source is checked and accepted or refused whole (R23, R24): the answer is 0 accepted, 1 no room, 2 beyond
the scoreboard. A refusal is counted and raises event 8 to the posting core, or to the supervisor for sources 16 to 23. -/
def State.post (s : State) (src : Nat) (p : Post) : Nat × State :=
  let n := p.data.length
  let refuse (s : State) : State :=
    let s := s.inc (R.TIER_SRCs_STAT_REFUSED src)
    if src < 16 then s.raise 8 [src] false else s.raiseSup 8
  if Config.sbWords < p.idx + n then (2, refuse (s.setBit (R.TIER_SRCs_STAT_BADADDR src)))
  else if 4096 < s.rd (R.TIER_SRCs_STAT_USED src) + 8 * (n + 1) then (1, refuse s)
  else
    (0, { (s.wr (R.TIER_SRCs_STAT_USED src) (s.rd (R.TIER_SRCs_STAT_USED src) + 8 * (n + 1))) with
            tier := { s.tier with staging := NMap.set [] s.tier.staging src (s.staged src ++ [p]) } })

/-- A hardware source posts words from an index; never late (R32). -/
def State.postHw (s : State) (src idx : Nat) (data : List Nat) : State := (s.post src ⟨idx, data, false⟩).2

/-! ## The scoreboard (R20, R21, R26, R27) -/

def SbWord.never : SbWord := ⟨0, 0, 32, false⟩

/-- What the scoreboard holds at a word; source 32 stands for nothing posted. -/
def State.sbAt (s : State) (k : Nat) : SbWord := NMap.get SbWord.never s.tier.sb k

def applyPostAt (tick : DWord) (src : Nat) (late : Bool) : NMap SbWord → Nat → List Nat → NMap SbWord
  | m, _, [] => m
  | m, k, v :: r => applyPostAt tick src late (NMap.set SbWord.never m k ⟨BitVec.ofNat 64 v, tick, src, late⟩) (k + 1) r

/-- Apply one post at the changeover of a tick (R21); a late post that changes a word is counted and raises event 9. -/
def State.applyPost (src : Nat) (s : State) (p : Post) : State :=
  let s := { s with tier := { s.tier with sb := applyPostAt s.tick src p.late s.tier.sb p.idx p.data } }
  if p.late && !p.data.isEmpty then (s.inc (R.TIER_SRCs_STAT_LATE src)).raise 9 [src] false else s

/-- Apply every collected post, sources ascending, each in the order of acceptance (R21). -/
def State.applyPosts (s : State) : State :=
  let c := s.tier.collecting
  let s := { s with tier := { s.tier with collecting := [] } }
  (List.range 24).foldl (fun s src => (NMap.get [] c src).foldl (State.applyPost src) s) s

/-- Is word k marked stale: a mark covers it and nothing has been posted to it since (R27, R35)? -/
def State.isStale (s : State) (k : Nat) : Bool :=
  let w := s.sbAt k
  s.tier.stale.any fun m =>
    decide (m.base ≤ k) && decide (k < m.base + m.len) && (w.src == 32 || decide (w.ptick.toNat ≤ m.tick))

/-- Mark the regions of the jobs that missed a deadline in this tick's edge, after the posts (R35). -/
def State.markRegions (s : State) : State :=
  let ms := s.tier.toMark
  let s := { s with tier := { s.tier with toMark := [] } }
  ms.foldl (fun s m =>
    let keep := s.tier.stale.filter (fun x => !(x.base == m.2.base && x.len == m.2.len))
    ({ s with tier := { s.tier with stale := keep ++ [m.2] } }).wr (R.TIER_JOBn_STAT_STALE m.1) 1) s

/-- The stamp TAKE returns with word k (R27). -/
def State.stamp (s : State) (k : Nat) : Nat :=
  let w := s.sbAt k
  let never := w.src == 32
  let age := if never then 65535 else min 65535 (s.tickN - w.ptick.toNat)
  (if never then 0 else w.ptick.toNat % 2 ^ 32 + 2 ^ 32 * w.src + 2 ^ 37 * b2n w.late)
    + 2 ^ 38 * b2n (s.isStale k) + 2 ^ 39 * b2n never + 2 ^ 48 * age

/-! ## Jobs (R28 to R35) -/

def State.job (s : State) (n : Nat) : JobS := NMap.get JobS.init s.tier.jobs n
def State.setJob (s : State) (n : Nat) (j : JobS) : State :=
  { s with tier := { s.tier with jobs := NMap.set JobS.init s.tier.jobs n j } }

def State.jobUnit (s : State) (n : Nat) : Nat := tierTicks (s.rd (R.TIER_JOBn_CFG_TIER n))

/-- Show a job's running and active bits (R45's table). -/
def State.showJob (s : State) (n : Nat) : State :=
  (s.wrBit (R.TIER_JOBn_STAT_RUN n) (s.job n).run).wrBit (R.TIER_JOBn_STAT_ACTIVE n) (s.job n).active

/-- A job runs in the sense of R8 from its first release after EN is set until, with EN = 0, no release is still short of
its deadline (R33). -/
def State.settleJob (s : State) (n : Nat) : State :=
  let j := s.job n
  let ends := j.run && !s.rdBit (R.TIER_JOBn_CTRL_EN n) && !(j.active && !j.missed)
  ((if ends then s.setJob n { j with run := false } else s)).showJob n

/-- The core's current job has passed its deadline without completing (R32). -/
def State.jobLate (s : State) (c : CoreS) : Bool :=
  match c.job with
  | none => false
  | some n => decide ((s.job n).deadline ≤ s.tickN)

/-- Cycles to the deadline edge of the core's current job, 0 once it has passed; with none, to the next tick edge (R31);
the greatest value while kick-off runs the setup program (R559). -/
def State.slackOf (s : State) (c : CoreS) : Nat :=
  if s.phase == .setup then 0xFFFFFFFF else
  match c.job with
  | none => Config.cyclesPerTick - s.cycle
  | some n => min 0xFFFFFFFF ((s.job n).deadline * Config.cyclesPerTick - s.now)

/-- The sample a completion gives to the slack monitors: cycles left, or minus the cycles past the deadline (R541). -/
def State.slackSample (s : State) (n : Nat) : Int :=
  ((s.job n).deadline * Config.cyclesPerTick : Nat) - (s.now : Int)

/-- Completion of a core's current job in the present cycle (R29, R35): on time before the deadline edge, else late. -/
def State.completeJob (s : State) (p : Nat) : State :=
  match (s.core p).job with
  | none => s
  | some n =>
    let j := s.job n
    let late := decide (j.deadline ≤ s.tickN)
    let start := j.k * s.jobUnit n * Config.cyclesPerTick + Config.changeover
    let s := s.monitor 1 (s.dutyOf p) (s.slackSample n)
    let s := s.monitor 2 n ((s.now : Int) - start)
    let s := s.setCore p { (s.core p) with job := none }
    let s := s.setJob n { (s.job n) with active := false, taken := false, lastOk := !late }
    let s := s.wrBit (R.TIER_JOBn_STAT_LASTLATE n) late
    let s := if late then s else s.wr (R.TIER_JOBn_STAT_STALE n) 0
    s.settleJob n

/-- Release or skip job n at the boundary k of its tier (R28, R30). -/
def State.releaseJob (s : State) (n k : Nat) : State :=
  let j := s.job n
  let dl := (k + s.rd (R.TIER_JOBn_CFG_DIV n)) * s.jobUnit n
  let p := s.rd (R.TIER_JOBn_CFG_CORE n)
  if j.active then
    ((s.setJob n { j with skips := j.skips ++ [dl] }).inc (R.TIER_JOBn_CNT_SKIP n)).raiseCore 7 p
  else
    let s := if j.run then s else s.discardColl 0 .tierJob (some n)
    let s := s.setJob n { j with run := true, active := true, taken := false, k := k, deadline := dl, missed := false }
    (s.showJob n).raiseCore 4 p

/-- The partition of a job's core. -/
def State.jobPart (s : State) (n : Nat) : Nat := s.partOf (s.rd (R.TIER_JOBn_CFG_CORE n))

/-- Is job n due for release in the present tick (R28, R45)? None of a partition's jobs is released in the round after its
restart, or in the first round after a kick-off (R334, R563); a member in SYNC, whose cores are off, releases none (R478). -/
def State.jobDue (s : State) (n : Nat) : Bool :=
  s.rd R.PAIR_STAT_STATE != 3 && (s.job n).isSealed && decide (NMap.get 0 s.rst.holds (s.jobPart n) ≤ s.tickN) && s.rdBit (R.TIER_JOBn_CTRL_EN n) && s.tickN % s.jobUnit n == 0
    && s.tickN / s.jobUnit n % s.rd (R.TIER_JOBn_CFG_DIV n) == s.rd (R.TIER_JOBn_CFG_PHASE n)

/-- All releases of a boundary tick, in ascending job index (R30). -/
def State.releaseJobs (s : State) : State :=
  (List.range 128).foldl (fun s n => if s.jobDue n then s.releaseJob n (s.tickN / s.jobUnit n) else s) s

/-- Is the partition restarted at the present tick edge (R333)? -/
def State.restartsNow (s : State) (part : Nat) : Bool :=
  match s.rst.req with
  | none => false
  | some r => r.1 == part && decide (r.2.2 ≤ s.tickN)

/-- At a tick edge, find the jobs of which a deadline falls now (R28, R30); a restart acts first (R334). -/
def State.markDue (s : State) : State :=
  (List.range 128).foldl (fun s n =>
    let j := s.job n
    if s.restartsNow (s.jobPart n) then s else
    let here := j.active && !j.missed && j.deadline == s.tickN
    let skip := j.skips.contains s.tickN
    if here || skip then
      s.setJob n { j with due := true, missed := j.missed || here, skips := j.skips.filter (· != s.tickN) }
    else s) s

/-- A missed deadline is counted whatever the class (R34, R35). -/
def State.countMiss (s : State) (n : Nat) : State :=
  ((s.setJob n { (s.job n) with due := false, lastOk := false }).inc (R.TIER_JOBn_CNT_OVR n)).settleJob n

/-- The watchdog stop of R34: event 6 reaches every core of the partition, which stops them, every output of the module
is held at its safe value, and on the safety partition fault F1 follows. -/
def State.watchdogStop (s : State) (part : Nat) : State :=
  let ds := (s.dutiesOf part).filter s.isTarget
  ((s.raise 6 ds false).wr R.DIOP_RSTAT_WHOLD 1).when (part == 8) (State.safetyFault · 1)

/-- A class W deadline missed (R34). -/
def State.missW (s : State) (n : Nat) : State :=
  if (s.job n).due && s.rd (R.TIER_JOBn_CFG_CLASS n) == 0 then
    (s.countMiss n).watchdogStop (s.partOf (s.rd (R.TIER_JOBn_CFG_CORE n)))
  else s

/-- A class R deadline missed (R35): event 5 to the job's core and the supervisor partition, the region marked at this
changeover. -/
def State.missR (s : State) (n : Nat) : State :=
  if (s.job n).due && s.rd (R.TIER_JOBn_CFG_CLASS n) == 1 then
    let s := (s.countMiss n).raiseCoreSup 5 (s.rd (R.TIER_JOBn_CFG_CORE n))
    { s with tier := { s.tier with
        toMark := s.tier.toMark
          ++ [(n, ⟨s.rd (R.TIER_JOBn_BASE_BASE n), s.rd (R.TIER_JOBn_LEN_LEN n), s.tickN⟩)] } }
  else s

/-! ## Job and binding seals (R45, R54) -/

/-- Do two regions of words overlap? -/
def regionsOverlap (b1 l1 b2 l2 : Nat) : Bool := decide (b1 < b2 + l2) && decide (b2 < b1 + l1) && l1 != 0 && l2 != 0

/-- The first failing code of a job seal (R45), 0 when every check passes. -/
def State.jobSealCode (s : State) (n : Nat) : Nat :=
  let div := s.rdColl (R.TIER_JOBn_CFG_DIV n)
  let cls := s.rdColl (R.TIER_JOBn_CFG_CLASS n)
  let core := s.rdColl (R.TIER_JOBn_CFG_CORE n)
  let base := s.rdColl (R.TIER_JOBn_BASE_BASE n)
  let len := s.rdColl (R.TIER_JOBn_LEN_LEN n)
  let other (m : Nat) : Bool := m != n && (s.job m).isSealed
    && regionsOverlap base len (s.rd (R.TIER_JOBn_BASE_BASE m)) (s.rd (R.TIER_JOBn_LEN_LEN m))
  if div == 0 || decide (1000 < div) then 1
  else if decide (div ≤ s.rdColl (R.TIER_JOBn_CFG_PHASE n)) then 2
  else if decide (2 ≤ cls) then 3
  else if !s.inService core then 4
  else if cls == 0 && !(s.partOf core == 1 || s.partOf core == 8) then 5
  else if decide (Config.sbWords < base + len) then 6
  else if cls == 1 && len == 0 then 7
  else if (List.range 128).any other then 8
  else 0

/-- A write of GO to a job's seal word from a core (R8, R9, R45). -/
def State.jobSeal (s : State) (n p : Nat) : State :=
  if (s.job n).run then s.raiseCore 14 p
  else
    let code := s.jobSealCode n
    let s' := if code = 0 then (s.applyColl 0 .tierJob (some n)).setJob n { (s.job n) with isSealed := true }
      else (s.discardColl 0 .tierJob (some n)).raiseCore 15 p
    s'.wr (R.TIER_JOBn_SEAL_ERR n) code

/-- The first failing code of a binding seal (R54). -/
def State.bindCode (s : State) (n : Nat) : Nat :=
  let part := s.rdColl (R.CORE_nBIND_PART n)
  if decide (9 ≤ part) then 1
  else if !s.inService n then 2
  else if part == 8 && !isChecked n then 3
  else if part == 8 && (List.range 16).any (fun m => m != n && s.partOf m == 8) then 4
  else 0

/-- A core runs, for its binding group, from the first tick of a kick-off (R53). -/
def State.ticking (s : State) : Bool := s.phase == .running

/-- A write of GO to `CORE_nSEAL` from core p (R53, R54). -/
def State.bindSeal (s : State) (n p : Nat) : State :=
  if s.ticking then s.raiseCore 14 p
  else
    let code := s.bindCode n
    let s' := if code = 0 then s.applyColl 1 .coreBind (some n)
      else (s.discardColl 1 .coreBind (some n)).raiseCore 15 p
    s'.wr (R.CORE_nSEAL_ERR n) code

/-! ## Discipline (R37 to R40) -/

/-- The discipline error: tick edge minus grid instant in ns, saturating at ±50,000 (R37, R44's table). -/
def discError (ns anch : Nat) : Int :=
  let r := (ns + 100000 - anch % 100000) % 100000
  clampInt (-50000) 50000 (if r ≤ 50000 then (r : Int) else (r : Int) - 100000)

end Sys2Proof.Machine
end

