-- ==== Sys2Proof/Machine/Outputs.lean ====
section
/-! DEFINITION. The output stage and the digital and pulse inputs: which output is forced, gated or overridden, what each
digital output takes, overload trips, input filters and pulse frequencies (22, R576 to R579; 10, R293; 16, R430; 18,
R479). -/

namespace Sys2Proof.Machine

def State.setDiop (s : State) (d : DiopS) : State := { s with diop := d }

/-- Is this module a member of a pair (R477)? -/
def State.isMember (s : State) : Bool := s.rd R.PAIR_STAT_STRAP == 1 || s.rd R.PAIR_STAT_STRAP == 2
/-- Is the module gated (R479)? -/
def State.gated (s : State) : Bool := s.isMember && s.rd R.PAIR_STAT_STATE != 1
/-- A member in SYNC, whose cores are off (R478). -/
def State.inSync (s : State) : Bool := s.isMember && s.rd R.PAIR_STAT_STATE == 3
/-- Is this module a pair's standby (R478)? -/
def State.isStandby (s : State) : Bool := s.isMember && s.rd R.PAIR_STAT_STATE == 2
/-- Do the module's own inputs take effect in its blocks as they arrive? On a standby the snapshot's do, or the local inputs it
has kept (R486, R487). -/
def State.ownInputs (s : State) : Bool := !s.isStandby
/-- A standby that takes its inputs from the snapshot (R486, R487). -/
def State.onSnapshot (s : State) : Bool := s.isStandby && !s.rdBit R.PAIR_STAT_LOCALIN

/-- On local inputs, a standby's transmit requests and descriptors stay pending until takeover (R487). -/
def State.txHeld (s : State) : Bool := s.isStandby && s.rdBit R.PAIR_STAT_LOCALIN

/-- A standby keeps what its own receivers take, tagged with its tick count plus 1, for 16 ticks (R486). -/
def State.capture (s : State) (cyc : Nat) (d : LocalData) : State :=
  { s with pair := { s.pair with
      locals := s.pair.locals.filter (fun x => decide (s.tickN + 1 < x.tag + 16)) ++ [⟨s.tickN + 1, cyc, d⟩] } }

/-- Is this module a pair's active (R478)? -/
def State.isActive (s : State) : Bool := s.isMember && s.rd R.PAIR_STAT_STATE == 1

/-- An input takes effect in the active's blocks: it goes into the snapshot of the tick (R484). -/
def State.noteItem (s : State) (kind unit : Nat) : State :=
  if s.isActive then { s with pair := { s.pair with
      taken := s.pair.taken ++ [⟨s.tickN % 2 ^ 32, kind, unit, s.cycle⟩] } }
  else s

/-- The snapshot items of an input, as kind and unit (R484); what a CAN frame or error, an Ethernet frame, an axis's current or a
conversion brings is noted where it takes effect. -/
def localItems : LocalData → List (Nat × Nat)
  | .din _ => [(1, 0)]
  | .pulse p _ => [(2, p.val)]
  | .encoder e _ => [(3, e.val)]
  | .angles _ => (List.range 8).map (Prod.mk 3)
  | .modulators _ => (List.range 32).map (Prod.mk 4)
  | .bextis c _ _ _ => [(8, c.val)]
  | .safeIn _ | .safeBack _ => [(9, 0)]
  | .bridge _ _ | .conversion _ _ _ _ | .canFrame _ _ | .canError _ _ | .frame _ _ _ _ => []

def State.noteItems (s : State) (d : LocalData) : State := (localItems d).foldl (fun s i => s.noteItem i.1 i.2) s

/-- An input reaches the module in a cycle of the tick: it takes effect, or a standby keeps it (R484, R486). -/
def State.input (s : State) (cyc : Nat) (d : LocalData) (f : State → State) : State :=
  let s := s.atCycle cyc
  if s.isStandby then s.capture cyc d else f (s.noteItems d)

/-- A record of the output image is issued (R488): kind, unit and data bytes. -/
def State.outRec (s : State) (kind unit : Nat) (data : List Nat) : State := { s with outs := s.outs ++ [(kind, unit, data)] }

/-- A frame leaves the module on a link. -/
def State.send (s : State) (link : Nat) (bs : List Nat) : State := { s with sent := s.sent ++ [(link, bs)] }

/-- Outputs at their safe values by kick-off, watchdog stop or restart (R34, R335). -/
def State.whold (s : State) : Bool := s.rdBit R.DIOP_RSTAT_WHOLD

/-- The safety override of an output set by its mask and request words (R430). -/
def State.overrideOf (s : State) (mask req : FieldRef) : Nat :=
  if s.rd R.SAFE_STAT_STATE = 0 then s.rd mask else s.rd mask &&& s.rd req
def State.overDo (s : State) : Nat := s.overrideOf R.SAFE_OVMASKA_DO R.SAFE_OVRA_DO
def State.overAx (s : State) : Nat := s.overrideOf R.SAFE_OVMASKA_AX R.SAFE_OVRA_AX
def State.overPo (s : State) : Nat := s.overrideOf R.SAFE_OVMASKB_PO R.SAFE_OVRB_PO

/-- Forced outputs (R293, R324, R400). -/
def State.forcedDo (s : State) (o : Nat) : Bool := s.whold || s.overDo.testBit o
def State.forcedAx (s : State) (a : Nat) : Bool := s.whold || s.overAx.testBit a
def State.forcedPo (s : State) (o : Nat) : Bool := s.whold || s.overPo.testBit o

/-! ## Time-proportioned outputs (R293) -/

def State.loopS (s : State) (n : Nat) : LoopS := NMap.get LoopS.init s.loops.loops n
def State.setLoops (s : State) (l : LoopsS) : State := { s with loops := l }
def State.setLoop (s : State) (n : Nat) (l : LoopS) : State :=
  s.setLoops { s.loops with loops := NMap.set LoopS.init s.loops.loops n l }

/-- n bytes at offset o of a loop's descriptor. -/
def LoopS.f (l : LoopS) (o n : Nat) : Nat := bitsOf (leNat (l.desc.flatMap (leBytes 8))) (8 * (o + n) - 1) (8 * o)
def LoopS.fI (l : LoopS) (o n : Nat) : Int := signedOf (8 * n) (l.f o n)

/-- The running loop whose destination is digital output o, if any. -/
def State.dutyLoop (s : State) (o : Nat) : Option LoopS :=
  (s.loops.loops.find? fun e => s.rdBit (R.LOOP_nSTAT_RUN e.1) && e.2.f 15 1 == 3 && e.2.f 28 2 == o).map Prod.snd

/-- Is the output on in the present tick of its window (R293)? -/
def windowOn (tick tper duty : Nat) : Bool := decide (tick % tper < (2 * duty * tper + 10000) / 20000)

/-- Writes of `DIOP_DOUT` that have not reached the drivers: they take 2 cycles (R576). -/
def State.doutWay (s : State) : List (Nat × Word) := s.diop.dout.filter (fun e => decide (s.now < e.1 + 2))

/-- The output image as the drivers have it. -/
def State.doutNow (s : State) : Nat :=
  match s.doutWay.getLast? with
  | some e => e.2.toNat
  | none => s.rd R.DIOP_DOUT_DOUT

/-- A write of `DIOP_DOUT` sets out for the drivers; `old` is the value before it. -/
def State.doutWrite (s : State) (old : Word) : State := s.setDiop { s.diop with dout := (s.now, old) :: s.doutWay }

/-- What R576 selects for digital output o with an output image, but for the gate of a standby. -/
def State.doFrom (s : State) (image o : Nat) : Bool :=
  if s.forcedDo o then (s.rd R.DIOP_SAFE_DOSAFE).testBit o
  else match (s.dutyLoop o).bind (fun l => l.gov.map (fun d => windowOn s.tickN (l.f 100 4) d)) with
    | some b => b
    | none => image.testBit o

/-- What digital output o takes in the present cycle but for the gate of a standby (R576). -/
def State.doWant (s : State) (o : Nat) : Bool := s.doFrom s.doutNow o

/-- Every output is undriven outside a running tick (R561, R562, R566, R571) and while gated (R479). -/
def State.undriven (s : State) : Bool := !s.ticking || s.gated

/-- What digital output o takes in the present cycle (R576): none when it is undriven. -/
def State.doSelect (s : State) (o : Nat) : Option Bool := if s.undriven then none else some (s.doWant o)

/-- The level a digital output drives, if it is driven: tripped outputs are off (R578). -/
def State.doDriven (s : State) (o : Nat) : Option Bool :=
  (s.doSelect o).map (fun on => on && NMap.get 0 s.diop.trip o == 0)

/-- Trips end where the output is no longer commanded on (R578). -/
def State.settleTrips (s : State) : State :=
  s.setDiop { s.diop with trip := s.diop.trip.filter (fun e => !s.undriven && s.doFrom (s.rd R.DIOP_DOUT_DOUT) e.1) }

/-- Show the forcing of the output stage in `DIOP_FORCED`; trips of outputs that it commands off end (R578). -/
def State.showForced (s : State) : State :=
  let s := s.settleTrips
  let ovr := s.overDo
  let s := s.wr R.DIOP_FORCED_FDO (if s.whold then 0xFFFFFF else ovr)
  let s := (s.wrBit R.DIOP_FORCED_HOLD s.whold).wrBit R.DIOP_FORCED_GATED s.gated
  s.wrBit R.DIOP_FORCED_SOVR (ovr != 0 || s.overAx != 0 || s.overPo != 0)

/-- Governing duties are taken over at the edge of each window's first tick (R293). -/
def State.windowEdges (s : State) : State :=
  (s.loops.loops.filter fun e => e.2.f 15 1 == 3 && s.tickN % e.2.f 100 4 == 0).foldl
    (fun s e => s.setLoop e.1 { e.2 with gov := e.2.duty }) s

/-! ## Digital inputs (R578) -/

def State.din (s : State) : Nat := s.rd R.DIOP_DINLO_DIN + 2 ^ 32 * s.rd R.DIOP_DINHI_DIN
def State.setDin (s : State) (v : Nat) : State := (s.wr R.DIOP_DINLO_DIN v).wr R.DIOP_DINHI_DIN (v / 2 ^ 32)

/-- One input's filter step: the new value and count. -/
def filterStep (filt : Nat) (value raw : Bool) (count : Nat) : Bool × Nat :=
  if raw == value then (value, 0) else if filt ≤ count + 1 then (raw, 0) else (value, count + 1)

/-- The sample of the digital inputs at cycle 0. -/
def State.sampleDin (s : State) (raw : Nat) : State :=
  let filt := s.rd R.DIOP_DIFILT_DIFILT
  let r := (List.range 48).foldl (fun (a : Nat × NMap Nat) i =>
    let f := filterStep filt (a.1.testBit i) (raw.testBit i) (NMap.get 0 s.diop.diff i)
    (putBits a.1 i i (b2n f.1), NMap.set 0 a.2 i f.2)) (s.din, s.diop.diff)
  (s.setDin r.1).setDiop { s.diop with diff := r.2 }

/-- The words that show inputs sampled at cycle 0 from cycle 64 on: safety inputs, digital inputs and pulse frequencies. -/
def inputWords : List Nat := [R.SAFE_IN, R.DIOP_DINLO, R.DIOP_DINHI] ++ (List.range 32).map R.DIOP_PIp_FREQ

/-- A sample at cycle 0: what it changes reads as it did before until cycle 64 (R425, R578, R579). -/
def State.early (s : State) (f : State → State) : State :=
  let t := f s
  let e := inputWords.foldl (fun m a =>
    if s.word a = t.word a ∨ (NMap.get none m a).isSome then m else NMap.set none m a (some (s.word a))) t.diop.early
  t.setDiop { t.diop with early := e }

/-! ## Pulse inputs (R579) -/

def State.edgesOf (s : State) (p : Nat) : List Nat := NMap.get [] s.diop.edges p

/-- num / den rounded half upwards. -/
def roundDiv (num den : Nat) : Nat := (2 * num + den) / (2 * den)

/-- FREQ from the edges, newest first, at time t in 10 ns (R579). -/
def pulseFreq (fwin t : Nat) (edges : List Nat) : Nat :=
  let inWin := edges.filter (fun e => decide (t ≤ e + 10000 * fwin))
  match inWin with
  | last :: _ :: _ => roundDiv ((inWin.length - 1) * 10 ^ 11) (last - inWin.getLastD last)
  | _ =>
    match edges with
    | e2 :: e1 :: _ => if t < e2 + 10 ^ 10 then roundDiv (10 ^ 11) (max (e2 - e1) (t - e2)) else 0
    | _ => 0

/-- The update of FREQ at cycle 0; edges too old to count further are dropped. -/
def State.updateFreq (s : State) : State :=
  let fwin := max 1 (min 1000 (s.rd R.DIOP_PICFG_FWIN))
  let t := 10000 * s.tickN
  s.diop.edges.foldl (fun s e =>
    let s := (s.noteItem 2 e.1).wr (R.DIOP_PIp_FREQ_FREQ e.1) (pulseFreq fwin t e.2)
    let keep := e.2.take 2 ++ (e.2.drop 2).filter (fun x => decide (t ≤ x + 10 ^ 7))
    s.setDiop { s.diop with edges := NMap.set [] s.diop.edges e.1 keep }) s

end Sys2Proof.Machine
end

