-- ==== Sys2Proof/Machine/Trig.lean ====
section
/-! DEFINITION. Sines and cosines to the accuracy the manual states: an exact series, and a free error within the stated
bound, which is a function of the angle (10, R303; 11, R316). -/

namespace Sys2Proof.Machine

/-- π with 60 fraction bits. -/
def piQ60 : Int := 3622009729038561421

/-- Terms of the sine series from term k on: the sum with 60 fraction bits. -/
def sinTerms (x2 : Int) : Nat → Nat → Int → Int
  | 0, _, _ => 0
  | n + 1, k, t => t + sinTerms x2 n (k + 1) (-(t * x2 / 2 ^ 60) / ((2 * k + 2) * (2 * k + 3) : Nat))

/-- sin(2π × r / 2^64) for r up to a quarter turn, with 60 fraction bits. -/
def sinQuarter (r : Nat) : Int :=
  let x := piQ60 * r / 2 ^ 63
  sinTerms (x * x / 2 ^ 60) 12 0 x

/-- sin(2π × p / 2^64), with 60 fraction bits. -/
def sinTurn (p : Nat) : Int :=
  let p := p % 2 ^ 64
  let r := p % 2 ^ 62
  match p / 2 ^ 62 with
  | 0 => sinQuarter r
  | 1 => sinQuarter (2 ^ 62 - r)
  | 2 => -sinQuarter r
  | _ => -sinQuarter (2 ^ 62 - r)

def cosTurn (p : Nat) : Int := sinTurn (p + 2 ^ 62)

/-- A free error in −b to b, a function of its arguments. -/
def freeError (what : Nat) (args : List Nat) (b : Nat) : Int := (Config.freeFun what args % (2 * b + 1) : Nat) - (b : Int)

/-- A sine with 40 fraction bits, exact to 2^−24 (R303). -/
def sinApprox (p : Nat) : Int := sinTurn p / 2 ^ 20 + freeError 50 [p % 2 ^ 64] 65534
def cosApprox (p : Nat) : Int := cosTurn p / 2 ^ 20 + freeError 51 [p % 2 ^ 64] 65534

/-- A phase reference in 1/256 of full scale (R316): exact to 1/1,024 of full scale before rounding half upwards. -/
def phaseRef (i : Nat) (units : Nat) (cosine : Bool) : Int :=
  let p := units % 1024 * 2 ^ 54
  let v := i * (if cosine then cosTurn p else sinTurn p) / 2 ^ 20
  (v + freeError 52 [i, units % 1024, if cosine then 1 else 0] (2 ^ 38 - 2 ^ 20) + 2 ^ 39) / 2 ^ 40

end Sys2Proof.Machine
end

