-- ==== Sys2Proof/Machine/Axes.lean ====
section
/-! DEFINITION. Valve axes, encoders and pulse input edges (11_valve_axes, R310 to R327; 22, R579). -/

namespace Sys2Proof.Machine

def State.axis (s : State) (a : Nat) : AxisS := NMap.get AxisS.init s.axes a
def State.setAxis (s : State) (a : Nat) (x : AxisS) : State := { s with axes := NMap.set AxisS.init s.axes a x }

/-- The axis event with its cause (R326). -/
def State.axisEvent (s : State) (a : Nat) (cause : FieldRef) : State :=
  (s.setBit cause).raise (112 + a) (s.dutiesOf 4) true

/-- Show a flag of the status, with the axis event on its change from 0 to 1. -/
def State.axisFlag (s : State) (a : Nat) (flag cause : FieldRef) (cnt : Option FieldRef) (b : Bool) : State :=
  let was := s.rdBit flag
  let s := s.wrBit flag b
  if b && !was then (match cnt with
    | some c => s.inc c
    | none => s).axisEvent a cause
  else s

/-! ## Targets (R313, R315, R320) -/

/-- Integer square root, rounded down. -/
def isqrtFrom (n : Nat) : Nat → Nat → Nat
  | 0, r => r
  | k + 1, r => let r' := r + 2 ^ k; isqrtFrom n k (if r' * r' ≤ n then r' else r)
def isqrt (n : Nat) : Nat := isqrtFrom n 40 0

/-- Division truncating towards zero. -/
def truncDiv (a b : Int) : Int := if 0 ≤ a then a / b else -((-a) / b)

def signInt (x : Int) : Int := if x < 0 then -1 else if x = 0 then 0 else 1

/-- A sealed loop names the axis as its destination. -/
def State.axisLoop (s : State) (a : Nat) : Bool :=
  s.loops.loops.any fun e => s.rdBit (R.LOOP_nSEAL_SEALED e.1) && e.2.f 15 1 == 2 && e.2.f 28 2 == a

/-- The gearing's target (R320). -/
def State.gearTarget (s : State) (a : Nat) : Int :=
  let c := s.rdI (R.AXIS_ENCe_POS_COUNT (s.rd (R.AXIS_aCFG_ENC a)))
  let dm := signedOf 32 (patternOf 32 (c - s.rdI (R.AXIS_aGMPOS_GMPOS a)))
  let r := if dm < 0 then s.rdI (R.AXIS_aGR1_GR1 a) else s.rdI (R.AXIS_aGR2_GR2 a)
  clampBits 32 (roundShift (r * dm) 24 + s.rdI (R.AXIS_aGOFF_GOFF a))

/-- The step input of the update (R315): new edges move the target, of an axis with EN = 0 as well, and measure tstep. -/
def State.stepInput (s : State) (a : Nat) (x : AxisS) : AxisS :=
  let cnt := s.rd (R.DIOP_PIp_CNT_CNT (s.rd (R.AXIS_aCFG_PIN a)))
  if s.rd (R.AXIS_aCFG_TSRC a) ≠ 2 then
    { x with stepTgt := s.rdI (R.AXIS_aPOS_POS a), tally := cnt, tstep := 65535, since := 65535 }
  else
    let n : Nat := (cnt + 2 ^ 32 - x.tally) % 2 ^ 32
    let down := (s.din.testBit (s.rd (R.AXIS_aCFG_DIN a))) != s.rdBit (R.AXIS_aCFG_DIRINV a)
    let move : Int := n * s.rd (R.AXIS_aCFG_SSIZE a)
    let since := min 65535 (x.since + 1)
    if n = 0 then { x with since := since }
    else { x with stepTgt := if down then x.stepTgt - move else x.stepTgt + move, tally := cnt,
                  tstep := if 2 ≤ n then 1 else since, since := 0 }

/-- The target of the axis's source (R313). -/
def State.sourceTarget (s : State) (a : Nat) (x : AxisS) : Int :=
  match s.rd (R.AXIS_aCFG_TSRC a) with
  | 0 => s.rdI (R.AXIS_aTGT_TGT a)
  | 1 => if s.axisLoop a then x.loopTgt.getD (s.rdI (R.AXIS_aPOS_POS a)) else s.rdI (R.AXIS_aPOS_POS a)
  | 2 => x.stepTgt
  | _ => s.gearTarget a

/-! ## Trajectory (R314) -/

structure Motion where
  pos : Int
  vel : Int
  frac : Int
  moving : Bool

/-- A position in its register; the manual gives none past the register's range (a free value). -/
def posValue (pos st : Int) : Int :=
  if fitsBits 32 (pos + st) then pos + st
  else signedOf 32 (Config.freeFun 26 [patternOf 32 pos, patternOf 64 st] % 2 ^ 32)

/-- One update of the trajectory towards t. -/
def moveTo (t pos vel frac : Int) (vmax amax : Nat) (cap : Option Nat) : Motion :=
  let d := t - pos
  let sp := min vmax (isqrt (2 * amax * 256 * d.natAbs))
  let sp := match cap with
    | some c => min sp c
    | none => sp
  let want := signInt d * sp
  let vel := vel + clampInt (-(amax : Int)) amax (want - vel)
  let f := frac + vel
  let st := f / 256
  let f := f - 256 * st
  if st ≠ 0 ∧ signInt st = signInt d ∧ d.natAbs ≤ st.natAbs then ⟨t, 0, 0, false⟩
  else ⟨posValue pos st, vel, f, vel != 0 || posValue pos st != t⟩

/-! ## Coil current (R321) -/

/-- The demanded current. -/
def demandCurrent (moving : Bool) (rest holddly la lalo lahi ihold irun imax : Nat) : Nat :=
  if !moving && decide (holddly ≤ rest) then ihold
  else if lahi ≤ lalo then (if lalo ≤ la then imax else irun)
  else min imax (irun + (imax - irun) * (la - lalo) / (lahi - lalo))

/-! ## The update (R311) -/

def axisBanked (a : Nat) : List FieldRef :=
  [R.AXIS_aVEL_VMAX a, R.AXIS_aVEL_AMAX a, R.AXIS_aCUR_IHOLD a, R.AXIS_aCUR_IRUN a, R.AXIS_aCUR_IMAX a,
    R.AXIS_aCUR_ISTEP a, R.AXIS_aLOAD_LALO a, R.AXIS_aLOAD_LAHI a, R.AXIS_aLOAD_STALLN a, R.AXIS_aLOAD_HOLDDLY a,
    R.AXIS_aSLO_SLO a, R.AXIS_aSHI_SHI a, R.AXIS_aGR1_GR1 a, R.AXIS_aGR2_GR2 a, R.AXIS_aGMPOS_GMPOS a,
    R.AXIS_aGOFF_GOFF a]

/-- Pending COMMIT, CLR and SETP, in this order (R323, R327); those written in the update's first cycle wait for the following
one. -/
def State.axisPending (s : State) (a : Nat) : State :=
  let x := s.axis a
  let due (t : Nat) : Bool := decide (t < s.now)
  let clr := x.clr.any due
  let setp := x.setp.find? (fun e => due e.1)
  let s := if x.commit.any due then s.swapFields (axisBanked a) else s
  let t0 := s.rd (R.AXIS_aCFG_TSRC a) == 0
  let s := if clr then
      let s := ((s.wr (R.AXIS_aSTAT_STALL a) 0).wr (R.AXIS_aSTAT_FAULT a) 0).wr (R.AXIS_aSTAT_FCODE a) 0
      if t0 then s.wr (R.AXIS_aTGT_TGT a) (s.rd (R.AXIS_aPOS_POS a)) else s
    else s
  let x := { x with
    vel := if clr then 0 else x.vel, clr := x.clr.filter (!due ·), setp := x.setp.filter (!due ·.1),
    commit := x.commit.filter (!due ·) }
  match setp with
  | some (_, v) =>
    let s := (s.wrI (R.AXIS_aPOS_POS a) v).wr (R.AXIS_aSTAT_HOMED a) 1
    let s := if t0 then s.wrI (R.AXIS_aTGT_TGT a) v else s
    s.setAxis a { x with frac := 0, vel := 0, stepTgt := v }
  | none => s.setAxis a x

/-- IRUN′ and IHOLD′ (R321). -/
def State.irun' (s : State) (a : Nat) : Nat := min (s.rd (R.AXIS_aCUR_IRUN a)) (s.rd (R.AXIS_aCUR_IMAX a))
def State.ihold' (s : State) (a : Nat) : Nat := min (s.rd (R.AXIS_aCUR_IHOLD a)) (s.irun' a)

/-- New phase references (R316). -/
def State.setRefs (s : State) (a : Nat) : State :=
  let i := s.rd (R.AXIS_aSTAT_ICUR a)
  let step := 2 ^ (8 - s.rd (R.AXIS_aCFG_MRES a))
  let units := (s.rd (R.AXIS_aPOS_POS a)) % 1024 / step * step
  s.setAxis a { (s.axis a) with refA := phaseRef i units true, refB := phaseRef i units false }

/-- Current, load angle and stall of an axis that has moved as m (R321, R322); `hold` sets the current to IHOLD′ at once. -/
def State.axisCurrent (s : State) (a : Nat) (m : Motion) (hold : Bool) (la : Nat) : State :=
  let x := s.axis a
  let lap := s.rd (R.AXIS_aSTAT_LA a)
  let la := if m.moving then la else 0
  let rest := if m.moving then 0 else satAdd 255 x.rest 1
  let imax := s.rd (R.AXIS_aCUR_IMAX a)
  let idem := demandCurrent m.moving rest (s.rd (R.AXIS_aLOAD_HOLDDLY a)) la (s.rd (R.AXIS_aLOAD_LALO a))
    (s.rd (R.AXIS_aLOAD_LAHI a)) (s.ihold' a) (s.irun' a) imax
  let i0 : Int := s.rd (R.AXIS_aSTAT_ICUR a)
  let step : Int := max 1 (s.rd (R.AXIS_aCUR_ISTEP a))
  let i := if hold then s.ihold' a else (i0 + clampInt (-step) step ((idem : Int) - i0)).toNat
  let cond := m.moving && i == imax && decide (s.rd (R.AXIS_aLOAD_LAHI a) ≤ la) && decide (lap < la)
  let stalls := if cond then x.stalls + 1 else 0
  let s := (s.wrI (R.AXIS_aPOS_POS a) m.pos).wrBit (R.AXIS_aSTAT_MOVING a) m.moving
  let s := (s.wr (R.AXIS_aSTAT_LA a) la).wr (R.AXIS_aSTAT_ICUR a) i
  let s := s.setAxis a { x with vel := m.vel, frac := m.frac, rest := rest, stalls := stalls }
  if max 1 (s.rd (R.AXIS_aLOAD_STALLN a)) ≤ stalls then
    let s := s.setAxis a { (s.axis a) with vel := 0, frac := 0, stalls := 0 }
    ((s.wr (R.AXIS_aSTAT_ICUR a) (s.ihold' a)).wr (R.AXIS_aSTAT_HOMED a) 0).axisFlag a (R.AXIS_aSTAT_STALL a)
      (R.AXIS_aEVC_STALLE a) (some (R.AXIS_aCNT_STALLS a)) true
  else s

/-- An update that ignores the target (R318, R322, R324): the position stands, and no target lies beyond a limit (R314). -/
def State.axisIgnore (s : State) (a : Nat) (hold : Bool) (la : Nat) : State :=
  let x := s.axis a
  ((s.wr (R.AXIS_aSTAT_LIMLO a) 0).wr (R.AXIS_aSTAT_LIMHI a) 0).axisCurrent a
    ⟨s.rdI (R.AXIS_aPOS_POS a), x.vel, x.frac, x.vel != 0⟩ hold la

/-- Motion, current and stall of an axis that follows target tg (R314, R321, R322). -/
def State.axisMove (s : State) (a : Nat) (tg : Int) (la : Nat) : State :=
  let slo := s.rdI (R.AXIS_aSLO_SLO a)
  let shi := s.rdI (R.AXIS_aSHI_SHI a)
  let s := s.axisFlag a (R.AXIS_aSTAT_LIMLO a) (R.AXIS_aEVC_LIMLOE a) (some (R.AXIS_aCNT_LIMS a)) (decide (tg < slo))
  let s := s.axisFlag a (R.AXIS_aSTAT_LIMHI a) (R.AXIS_aEVC_LIMHIE a) (some (R.AXIS_aCNT_LIMS a)) (decide (shi < tg))
  let x := s.axis a
  let t := min (max tg slo) shi
  let cap := if s.rd (R.AXIS_aCFG_TSRC a) = 2 then some (s.rd (R.AXIS_aCFG_SSIZE a) * 256 / x.tstep) else none
  let m := moveTo t (s.rdI (R.AXIS_aPOS_POS a)) x.vel x.frac (max 1 (s.rd (R.AXIS_aVEL_VMAX a)))
    (max 1 (s.rd (R.AXIS_aVEL_AMAX a))) cap
  s.axisCurrent a m false la

/-- The update of one axis (R311 to R324). -/
def State.axisUpdate (la : Nat) (s : State) (a : Nat) : State :=
  let s := s.axisPending a
  let s := s.setAxis a (s.stepInput a (s.axis a))
  let s := s.wrBit (R.AXIS_aSTAT_GATED a) s.gated
  if !s.rdBit (R.AXIS_aCTRL_EN a) then
    let s := ((s.wr (R.AXIS_aSTAT_MOVING a) 0).wr (R.AXIS_aSTAT_FORCED a) 0).wr (R.AXIS_aSTAT_LA a) 0
    let x := s.axis a
    s.setAxis a { x with vel := 0, stalls := 0, rest := satAdd 255 x.rest 1 }
  else
    let forced := s.forcedAx a
    let s := s.axisFlag a (R.AXIS_aSTAT_FORCED a) (R.AXIS_aEVC_FORCEE a) none forced
    let mode := if s.rd (R.AXIS_aCFG_SAFEMODE a) = 0 ∧ !s.rdBit (R.AXIS_aSTAT_HOMED a) then 2
      else s.rd (R.AXIS_aCFG_SAFEMODE a)
    let s := if s.rdBit (R.AXIS_aSTAT_STALL a) || s.rdBit (R.AXIS_aSTAT_FAULT a) then
        s.axisIgnore a (s.rdBit (R.AXIS_aSTAT_STALL a)) la
      else if forced && mode != 0 then
        (s.setAxis a { (s.axis a) with vel := 0, frac := 0 }).axisIgnore a (mode == 2) la
      else s.axisMove a (if forced then s.rdI (R.AXIS_aSAFETGT_SAFETGT a) else s.sourceTarget a (s.axis a)) la
    s.setRefs a

/-- The load angles sensed on the axes, one byte each, as the coming update takes them. -/
def State.takeAngles (s : State) (la : Nat) : State :=
  { s with pair := { s.pair with
      angles := (List.range 8).foldl (fun m a => NMap.set 0 m a (bitsOf la (8 * a + 7) (8 * a))) s.pair.angles } }

/-- AXIS_UPDATE (R311): the update of all axes at cycle 53,000, their sample; byte a of `la` is the load angle sensed on axis
a. A standby keeps it, and takes those of the snapshot or of its local inputs (R325, R487). -/
def execAxisUpdate (la : BitVec 64) (s : State) : Out :=
  .next ((s.input 53000 (.angles la) (State.takeAngles · la.toNat)).sampled fun s =>
    (List.range 8).foldl (fun s a => s.axisUpdate (NMap.get 0 s.pair.angles a) a) s)

/-! ## Bridges and choppers (R310, R317, R318) -/

/-- Every gate of the axis is off (R310, R318, R324, R325). -/
def State.gatesOff (s : State) (a : Nat) : Bool :=
  !s.rdBit (R.AXIS_aCTRL_EN a) || s.rdBit (R.AXIS_aSTAT_FAULT a) || s.gated
    || (s.forcedAx a && s.rd (R.AXIS_aCFG_SAFEMODE a) == 1)

/-- A fault of an axis with a code from 1 to 5 (R318): FAULT and FCODE, HOMED cleared, the axis event. -/
def State.chopper (s : State) (a code : Nat) : State :=
  if decide (1 ≤ code) && decide (code ≤ 5) && !s.rdBit (R.AXIS_aSTAT_FAULT a) then
    let s := ((s.noteItem 3 a).wr (R.AXIS_aSTAT_FCODE a) code).wr (R.AXIS_aSTAT_HOMED a) 0
    s.axisFlag a (R.AXIS_aSTAT_FAULT a) (R.AXIS_aEVC_FAULTE a) (some (R.AXIS_aCNT_FAULTS a)) true
  else s

/-- The chopper times of an axis, in 10 ns steps, and FASTF. -/
structure ChopCfg where
  toff : Nat
  tblank : Nat
  tonmax : Nat
  fastf : Nat
deriving DecidableEq, Repr

def State.chopCfg (s : State) (a : Nat) : ChopCfg :=
  ⟨10 * s.rd (R.AXIS_aCHOP_TOFF a), 10 * s.rd (R.AXIS_aCHOP_TBLANK a), 100 * s.rd (R.AXIS_aCHOP_TONMAX a),
    s.rd (R.AXIS_aCHOP_FASTF a)⟩

/-- The sensed current is ignored: blanking after switch-on (R317). -/
def ChopS.blanked (x : ChopS) (c : ChopCfg) : Bool := x.phase == .drive && decide (x.t < c.tblank)

/-- One 10 ns step of a phase's chopper with its reference and the sensed magnitude, both in 1/256 of full scale (R317, R318). With
a reference of 0 the phase waits at the start of an on phase, in slow decay. -/
def ChopS.step (c : ChopCfg) (ref : Int) (m : Nat) (x : ChopS) : ChopS :=
  if ref = 0 then { x with phase := .drive, t := 0 }
  else match x.phase with
    | .drive =>
      if !x.blanked c && decide (ref.natAbs ≤ m) then ⟨.slow, 0, 0⟩
      else if c.tonmax ≤ x.t + 1 then ⟨.slow, 0, if 32 ≤ ref.natAbs then x.run + 1 else x.run⟩
      else { x with t := x.t + 1 }
    | _ =>
      if c.toff ≤ x.t + 1 then { x with phase := .drive, t := 0 }
      else { x with phase := if 16 * (x.t + 1) < (16 - c.fastf) * c.toff then .slow else .fast, t := x.t + 1 }

/-- The gates of a phase's two legs that its chopper asks for (true: the high side): a diagonal by the sign of the reference, both
low sides in slow decay, the opposite diagonal in fast decay. -/
def ChopS.legs (ref : Int) (x : ChopS) : Bool × Bool :=
  if ref = 0 then (false, false)
  else match x.phase with
    | .drive => (decide (0 < ref), decide (ref < 0))
    | .slow => (false, false)
    | .fast => (decide (ref < 0), decide (0 < ref))

/-- One 10 ns step of a leg: a gate that is to change goes off at once, and the other comes on after the dead time of 200 ns
(R310). -/
def LegS.step (want : Bool) (l : LegS) : LegS :=
  if l.on = some want then l
  else if l.on.isSome then ⟨none, 20⟩
  else if 1 < l.dead then ⟨none, l.dead - 1⟩
  else ⟨some want, 0⟩

/-- The eight gate outputs of an axis, high and low side of each leg in turn (R310). -/
def State.axisGates (s : State) (a : Nat) : List Bool :=
  if s.gatesOff a then List.replicate 8 false
  else (s.axis a).legs.flatMap fun l => [l.on == some true, l.on == some false]

/-- The code of the fault that a step shows, 0 for none (R318): overcurrent outside blanking, eight on phases ended by TONMAX, the
bridge-fault input low for 1 µs. -/
def chopCode (x : AxisS) (blankA blankB : Bool) (w : ChopSense) : Nat :=
  if !blankA && decide (320 < w.a) then 1
  else if !blankB && decide (320 < w.b) then 2
  else if 8 ≤ x.chopA.run then 3
  else if 8 ≤ x.chopB.run then 4
  else if 100 ≤ x.low then 5
  else 0

/-- One 10 ns step of an axis port (R310, R317, R318). With every gate off no current is sensed, and only the bridge-fault input
counts. -/
def State.chopStep (a : Nat) (s : State) (w : ChopSense) : State :=
  let x := s.axis a
  let low := if w.low then min 100 (x.low + 1) else 0
  let off := s.gatesOff a
  let c := s.chopCfg a
  let ca := if off then ChopS.init else x.chopA.step c x.refA w.a
  let cb := if off then ChopS.init else x.chopB.step c x.refB w.b
  let la := ca.legs x.refA
  let lb := cb.legs x.refB
  let legs := if off then List.replicate 4 LegS.off
    else (x.legs.zip [la.1, la.2, lb.1, lb.2]).map fun e => e.1.step e.2
  let y := { x with chopA := ca, chopB := cb, legs := legs, low := low }
  (s.setAxis a y).chopper a (chopCode y (off || x.chopA.blanked c) (off || x.chopB.blanked c) w)

/-- CHOPPER_FAULT (R318, R325): what the axis port has sensed, in 10 ns steps up to a cycle. -/
def execChopperFault (a : Fin 8) (w : List ChopSense) (cyc : Nat) (s : State) : Out :=
  .next (s.input cyc (.bridge a w) fun s => w.foldl (State.chopStep a.val) s)

/-! ## Writes (R323, R327) -/

def State.axisClr (s : State) (a : Nat) : State := s.setAxis a { (s.axis a) with clr := s.now :: (s.axis a).clr }
def State.axisSetp (s : State) (a v : Nat) : State :=
  s.setAxis a { (s.axis a) with setp := (s.now, signedOf 32 v) :: (s.axis a).setp }
def State.axisCommit (s : State) (a : Nat) : State :=
  s.setAxis a { (s.axis a) with commit := s.now :: (s.axis a).commit }

/-- AXIS_CLR (R323). -/
def execAxisClr (p : Port) (a : Fin 8) (s : State) : Out := .next (s.byCore p fun s => s.axisClr a.val)
/-- AXIS_SETP (R323). -/
def execAxisSetp (p : Port) (a : Fin 8) (v : Word) (s : State) : Out := .next (s.byCore p fun s =>
  (s.hold (R.AXIS_aSETP a.val) v.toNat).axisSetp a.val v.toNat)
/-- AXIS_COMMIT (R327). -/
def execAxisCommit (p : Port) (a : Fin 8) (s : State) : Out := .next (s.byCore p fun s => s.axisCommit a.val)

/-- The first failing code of an axis seal (R327). -/
def State.axisSealCode (s : State) (a : Nat) : Nat :=
  let c (f : FieldRef) : Nat := s.rdColl f
  let ssize := c (R.AXIS_aCFG_SSIZE a)
  let toff := c (R.AXIS_aCHOP_TOFF a)
  let ok := decide (c (R.AXIS_aCFG_MRES a) ≤ 8) && c (R.AXIS_aCFG_SAFEMODE a) != 3
    && decide (c (R.AXIS_aCFG_DIN a) < 48) && ssize != 0 && decide (ssize ≤ 256) && decide (10 ≤ toff)
    && decide (5 ≤ c (R.AXIS_aCHOP_TBLANK a)) && c (R.AXIS_aCHOP_TONMAX a) != 0
  let other (b : Nat) : Bool := b != a && (s.axis b).isSealed && s.rd (R.AXIS_aCFG_TSRC b) == 2
    && s.rd (R.AXIS_aCFG_PIN b) == c (R.AXIS_aCFG_PIN a)
  if !ok then 1 else if (List.range 8).any other then 2 else 0

/-- A sealed write to a running axis is refused and reported in ERR (R326), with a code the manual does not state. -/
def State.axisRefused (s : State) (a : Nat) : State :=
  let d := s.draw
  (d.2.wr (R.AXIS_aSEAL_ERR a) (1 + Config.freeNat 6 d.1 % 15)).axisEvent a (R.AXIS_aEVC_SEALE a)

/-- A write of GO to `AXIS_aSEAL` (R326, R327). -/
def State.axisSeal (s : State) (a : Nat) : State :=
  if s.rdBit (R.AXIS_aCTRL_EN a) then s.axisRefused a
  else
    let code := s.axisSealCode a
    let s := if code = 0 then (s.applyColl 6 .axis (some a)).setAxis a { (s.axis a) with isSealed := true }
      else (s.discardColl 6 .axis (some a)).axisEvent a (R.AXIS_aEVC_SEALE a)
    s.wr (R.AXIS_aSEAL_ERR a) code

/-- AXIS_SEAL (R327). -/
def execAxisSeal (p : Port) (a : Fin 8) (s : State) : Out := .next (s.byCore p fun s => s.axisSeal a.val)

/-! ## Encoder and pulse edges (R319, R579) -/

def State.encoderEdge (s : State) (e : Nat) (k : EncEdge) : State :=
  match k with
  | .forward => s.wr (R.AXIS_ENCe_POS_COUNT e) (s.rd (R.AXIS_ENCe_POS_COUNT e) + 1)
  | .reverse => s.wr (R.AXIS_ENCe_POS_COUNT e) (s.rd (R.AXIS_ENCe_POS_COUNT e) + 2 ^ 32 - 1)
  | .double => s.inc (R.AXIS_ENCe_STAT_QERR e)

/-- ENCODER_EDGE (R319, R486). -/
def execEncoderEdge (e : Fin 4) (k : EncEdge) (s : State) : Out :=
  .next (s.input s.cycle (.encoder e k) (State.encoderEdge · e.val k))

/-- A rising edge of pulse input p at t, in 10 ns from tick 0 (R579). -/
def State.pulseEdge (s : State) (p t : Nat) : State :=
  let s := s.wr (R.DIOP_PIp_CNT_CNT p) (s.rd (R.DIOP_PIp_CNT_CNT p) + 1)
  s.setDiop { s.diop with edges := NMap.set [] s.diop.edges p (t :: s.edgesOf p) }

/-- PULSE_INPUT_EDGE (R579): a rising edge `ten` 10 ns units into the present tick. -/
def execPulseInputEdge (p : Fin 32) (ten : Fin 10000) (s : State) : Out :=
  .next (s.input (6 * ten.val) (.pulse p ten.val) (State.pulseEdge · p.val (10000 * s.tickN + ten.val)))

end Sys2Proof.Machine
end

