-- ==== Sys2Proof/Machine/MeterMath.lean ====
section
/-! DEFINITION. The arithmetic of metering: channel correction, products, means, phase corrections and the water
properties (14_metering, R379 to R382, R388, R389). -/

namespace Sys2Proof.Machine

/-- The channel correction (R379). -/
def chanCorrect (gain : Int) (gsh : Nat) (x off : Int) : Int := clampBits 32 (roundShift (gain * (x - off)) (26 + gsh))

def colAt (k : Nat) (l : List Int) : Int := l.getD k 0
/-- The sum of column k over the first n entries. -/
def colSum (n k : Nat) (ls : List (List Int)) : Int := ((ls.take n).map (colAt k)).sum

/-! ## The sinc3 filter (R377) -/

def triangular (n : Nat) : Nat := n * (n + 1) / 2

/-- The weight of the j-th of the filter's 2,998 bits: the coefficient of z^j in (1 + z + … + z^999)³. -/
def sincWeight (j : Nat) : Int :=
  (triangular (j + 1) : Int) + 3 * triangular (j - 1999) - 3 * triangular (j - 999)

/-- The filter's output from its bits, oldest first; a 1 counts +1 and a 0 counts −1 (R376). -/
def sinc3 (bits : List Bool) : Int :=
  (bits.zipIdx.map fun b => if b.1 then sincWeight b.2 else -sincWeight b.2).sum

/-- The 1,000 bits sampled from a tick's levels with a delay of mdly core cycles (R376). -/
def sampleBits (mdly levels : Nat) : List Bool := (List.range 1000).map fun n => levels.testBit (60 * n + mdly)

/-- The bits of three ticks of levels that the filter takes, oldest first. -/
def filterBits (mdly c b a : Nat) : List Bool := ((sampleBits mdly c).drop 2) ++ sampleBits mdly b ++ sampleBits mdly a

/-! ## Channels, phases and totals -/

/-- A tap of the Hilbert transformer in 2^-30. The manual states no taps (free). -/
def hilbertTap (k : Nat) : Int := signedOf 32 (Config.freeFun 70 [k])

/-- The Hilbert transformer's output from its 127 latest inputs, newest first, in 2^-12 V (R380): a linear filter whose taps are
odd about the middle one, which is what turns the phase by exactly 90° at every frequency. How its output is rounded is not
stated: one of the two nearest (free). -/
def hilbert (w : List Int) : Int :=
  let y := ((List.range 63).map fun k => hilbertTap k * (w.getD k 0 - w.getD (126 - k) 0)).sum
  y / 2 ^ 30 + Config.freeFun 82 [patternOf 128 y] % 2

/-- The products of one phase from the corrected samples, newest first (R380): p, q, v² and i². -/
def phaseProducts (hist : List (List Int)) (x : Nat) : List Int :=
  let old := hist.getD 63 []
  let v := colAt x old
  let i := colAt (3 + x) old
  [v * i, hilbert (hist.map (colAt x)) * i, v * v, i * i]

/-- The products of a group in one tick, with the neutral's square. -/
def groupProducts (hist : List (List Int)) : List Int :=
  let n := colAt 6 (hist.getD 63 [])
  phaseProducts hist 0 ++ phaseProducts hist 1 ++ phaseProducts hist 2 ++ [n * n]

/-- A phase's corrections (R381). -/
structure PhaseCfg where
  gp : Nat
  op : Int
  gq : Nat
  oq : Int
  gs : Nat
  os : Int
  gv : Nat
  ov : Nat
  gi : Nat
  oi : Nat
  xp : Int
  xq : Int

/-- What the manual leaves open below 16 fraction bits of a mean: the value is one of the two nearest (R380). -/
def openLow (what : Nat) (args : List Int) (v : Int) : Int :=
  v + Config.freeFun what (args.map (patternOf 128)) % 2

/-- P or Q in 2^-44 W: g × (own + x × other) + o, with the sums over n ticks (R381). -/
def crossPower (n g : Nat) (own other x o : Int) : Int :=
  let num := (g : Int) * (own * 2 ^ 31 + x * other) * 2 ^ 16 * 1000 + o * 2 ^ 44 * (n : Int) * 2 ^ 61
  openLow 71 [own, other, x, o, g, n] (num / ((n : Int) * 2 ^ 61 * 1000))

/-- Vrms or Irms in 2^-28: g × sqrt(max(0, ms − o²)), where ms is sum / n in 2^-lsb of the squared unit and o is in
thousandths (R381). -/
def rmsOf (n g lsb : Nat) (sum : Int) (o : Nat) : Nat :=
  let num := (sum * 10 ^ 6 - (o : Int) ^ 2 * (n : Int) * 2 ^ lsb).toNat
  let r := isqrtFrom (g * g * num * 2 ^ 56 / (n * 2 ^ lsb * 10 ^ 6 * 2 ^ 60)) 64 0
  r + Config.freeFun 72 [n, g, lsb, num] % 2

/-- S in 2^-44 VA (R381). -/
def apparent (g v i : Nat) (o : Int) : Int :=
  openLow 73 [g, v, i, o] (((g : Int) * v * i * 1000 + o * 2 ^ 86) / (2 ^ 42 * 1000))

/-- A phase's quantities from the sums of its products (R381). -/
def phaseResult (n : Nat) (c : PhaseCfg) (sp sq sv si : Int) : PhaseRes :=
  let v := rmsOf n c.gv 24 sv c.ov
  let i := rmsOf n c.gi 32 si c.oi
  ⟨crossPower n c.gp sp sq c.xp c.op, crossPower n c.gq sq sp c.xq c.oq, apparent c.gs v i c.os, v, i⟩

/-- The places of the zero crossings in a history: the k-th is between its entries k and k + 1 (R382). -/
def crossings (va : List Int) : List Nat :=
  (List.range (va.length - 1)).filter fun k => decide (va.getD k 0 < 0) != decide (va.getD (k + 1) 0 < 0)

/-- The frequency in 0.001 Hz from the zero crossings of the last 1,000 ticks (R382): 0 without a crossing. Between the two ticks
of a crossing its instant is not stated, so the frequency of m crossings that span d ticks is free between the values that spans of
d + 1 and d − 1 ticks give. -/
def lineFreq (va : List Int) : Nat :=
  let x := crossings va
  let m := x.length - 1
  let d := x.getLastD 0 - x.headD 0
  let lo := m * 5000000 / (d + 1)
  let hi := if d ≤ 1 then 65535 else min 65535 ((m * 5000000 + d - 2) / (d - 1))
  if x.isEmpty then 0 else min 65535 (lo + Config.freeFun 78 (va.map (patternOf 32)) % (hi + 1 - min hi lo))

/-! ## Temperatures (R388) -/

/-- R0 of a sensor type in mΩ. -/
def rtdZero (rtype : Nat) : Nat := if rtype = 0 then 100000 else if rtype = 1 then 500000 else 1000000

/-- Temperature in 2^-32 °C from the sum of n conversions in mΩ of an RTD of a type: the mean by the Callendar–Van Dusen relation
R = R0 (1 + A t + B t²) with the A and B of IEC 60751 (R388; PRESUMED, notes/assumptions/56), to one of the two nearest values
(free). -/
def rtdTemp (rtype : Nat) (sum : Int) (n : Nat) : Int :=
  let d := (n * rtdZero rtype : Nat)
  let disc := (1527480889 * d + 231000000 * (d - sum)).toNat
  let q := isqrtFrom (disc * 2 ^ 80 / d) 64 0
  (39083 * 2 ^ 40 - q) * 20 / (231 * 2 ^ 8) + Config.freeFun 74 [rtype, patternOf 64 sum, n] % 2

/-! ## Water (R389)

The tables of EN 1434-1 are not in the manual. The model takes the properties of water from IAPWS-IF97, region 1 (PRESUMED,
notes/assumptions/56), and leaves every value free within 1/800 of them, which takes in the manual's own example. -/

/-- A term of the region's equation: the powers of 7.1 − π and τ − 1.222, and its coefficient in 10^-39. -/
structure WaterTerm where
  i : Nat
  j : Int
  n : Int

def waterTerms : List WaterTerm := [
  ⟨0, -2, 146329712131670000000000000000000000000⟩,
  ⟨0, -1, -845481871691140000000000000000000000000⟩,
  ⟨0, 0, -3756360367204000000000000000000000000000⟩,
  ⟨0, 1, 3385516916838500000000000000000000000000⟩,
  ⟨0, 2, -957919633878720000000000000000000000000⟩,
  ⟨0, 3, 157720385132280000000000000000000000000⟩,
  ⟨0, 4, -16616417199501000000000000000000000000⟩,
  ⟨0, 5, 812146299835680000000000000000000000⟩,
  ⟨1, -9, 283190801238040000000000000000000000⟩,
  ⟨1, -7, -607063015658740000000000000000000000⟩,
  ⟨1, -1, -18990068218419000000000000000000000000⟩,
  ⟨1, 0, -32529748770505000000000000000000000000⟩,
  ⟨1, 1, -21841717175414000000000000000000000000⟩,
  ⟨1, 3, -52838357969930000000000000000000000⟩,
  ⟨2, -3, -471843210732670000000000000000000000⟩,
  ⟨2, 0, -300017807930260000000000000000000000⟩,
  ⟨2, 1, 47661393906987000000000000000000000⟩,
  ⟨2, 3, -4414184533084600000000000000000000⟩,
  ⟨2, 17, -726949962975940000000000⟩,
  ⟨3, -4, -31679644845054000000000000000000000⟩,
  ⟨3, 0, -2827079798531200000000000000000000⟩,
  ⟨3, 6, -852051281201030000000000000000⟩,
  ⟨4, -5, -2242528190800000000000000000000000⟩,
  ⟨4, -2, -651712228956010000000000000000000⟩,
  ⟨4, 10, -143417299379240000000000000⟩,
  ⟨5, -8, -405169968601170000000000000000000⟩,
  ⟨8, -11, -1273430174164100000000000000000⟩,
  ⟨8, -6, -174248712306340000000000000000⟩,
  ⟨21, -29, -687621312955310000000⟩,
  ⟨23, -31, 14478307828521000000⟩,
  ⟨29, -38, 26335781662795000⟩,
  ⟨30, -39, -11947622640071000⟩,
  ⟨31, -40, 1822809458140400⟩,
  ⟨32, -41, -93537087292458⟩]

/-- x^k for a signed power, in 2^-128. -/
def powFix (x : Int) : Int → Int
  | .ofNat k => if k = 0 then 2 ^ 128 else x ^ k / 2 ^ (128 * (k - 1))
  | .negSucc k => 2 ^ (128 * (k + 2)) / x ^ (k + 1)

/-- One of the equation's derivatives in 2^-128: f gives a term's factor and its two powers. -/
def waterSum (t : Int) (pbar : Nat) (f : WaterTerm → Int × Nat × Int) : Int :=
  let kelvin := 100 * t + 27315 * 2 ^ 32
  let a := 71 * 2 ^ 128 / 10 - (pbar : Int) * 1000 * 2 ^ 128 / 165300
  let b := 138600 * 2 ^ 160 / kelvin - 1222 * 2 ^ 128 / 1000
  (waterTerms.map fun x =>
    let e := f x
    e.1 * x.n * powFix a e.2.1 * powFix b e.2.2 / (10 ^ 39 * 2 ^ 128)).sum

/-- The specific volume in 2^-128 m³/kg and the specific enthalpy in 2^-128 kJ/kg. -/
def waterVolume (t : Int) (pbar : Nat) : Int :=
  let g := waterSum t pbar fun x => (-(x.i : Int), x.i - 1, x.j)
  g * 461526 * (100 * t + 27315 * 2 ^ 32) / (100 * 2 ^ 32 * 16530 * 10 ^ 6)
def waterEnthalpy (t : Int) (pbar : Nat) : Int :=
  waterSum t pbar (fun x => (x.j, x.i, x.j - 1)) * 461526 * 1386 / 10 ^ 6

/-- A value left free within 1/800 of c. -/
def nearWater (what : Nat) (args : List Nat) (c : Nat) : Nat :=
  let d := c / 800
  c - d + Config.freeFun what args % (2 * d + 1)

/-- The heat coefficient in 2^-48 Wh/(L·K), with the flow sensor at temperature t (R389). -/
def heatCoef (ts tr t : Int) (pbar : Nat) : Nat :=
  let dh := waterEnthalpy ts pbar - waterEnthalpy tr pbar
  let c := if ts = tr then 0 else dh * 2 ^ 80 / (waterVolume t pbar * (ts - tr) * 3600)
  nearWater 75 [patternOf 48 ts, patternOf 48 tr, patternOf 48 t, pbar] c.toNat

/-- The density in 2^-48 kg/L (R389). -/
def density (t : Int) (pbar : Nat) : Nat :=
  nearWater 76 [patternOf 48 t, pbar] (2 ^ 176 / (1000 * waterVolume t pbar)).toNat

/-- x / 2^n rounded half upwards. -/
def roundBits (x : Int) (n : Nat) : Int := roundShift x n

end Sys2Proof.Machine
end

