-- ==== Sys2Proof/Machine/TwoCopy.lean ====
section
/-! DEFINITION. Areas of MRAM held in two copies and written so that one is always whole (12, R338, R591). -/

namespace Sys2Proof.Machine

def mramBase : Nat := 0x20000000
def mramBytes : Nat := 0x1000000

/-- The words of a memory from an address. -/
def memWords (m : NMap Byte) (a n : Nat) : List Nat := (List.range n).map (fun i => memRead m (a + 8 * i) 8)

/-- Write words to a memory from an address. -/
def memPutWords (m : NMap Byte) : Nat → List Nat → NMap Byte
  | _, [] => m
  | a, v :: r => memPutWords (memWrite m a 8 v) (a + 8) r

/-- GEN of the copy of n data words at an address, where the copy is valid: its check word, MAGIC and FORMAT 1. -/
def copyGen (m : NMap Byte) (a n magic : Nat) : Option Nat :=
  let ws := memWords m a n
  if verifyCheck ws (memRead m (a + 8 * n) 8) = 0 ∧ memRead m a 2 = magic ∧ memRead m (a + 2) 2 = 1 then
    some (memRead m (a + 4) 4)
  else none

/-- GEN x is not behind GEN y, as signed 32-bit differences. -/
def genAhead (x y : Nat) : Bool := decide ((x + 2 ^ 32 - y) % 2 ^ 32 < 2 ^ 31)

/-- The chosen copy of two, 0 for A and 1 for B, with its GEN (R591). -/
def chooseCopy (ga gb : Option Nat) : Option (Nat × Nat) :=
  match ga, gb with
  | some x, some y => if genAhead x y then some (0, x) else some (1, y)
  | some x, none => some (0, x)
  | none, some y => some (1, y)
  | none, none => none

/-- The copy a write goes to and the GEN it writes (R591). -/
def writeCopy (c : Option (Nat × Nat)) : Nat × Nat :=
  match c with
  | none => (0, 1)
  | some (k, g) => (1 - k, (g + 1) % 2 ^ 32)

/-- The first step of a write (R338): the check word of the copy with MARK 0. -/
def copyOpen (m : NMap Byte) (a n : Nat) : NMap Byte := memWrite m (a + 8 * n) 8 (memRead m (a + 8 * n) 7)

/-- The rest of a write: the data words and then the check word. -/
def copyClose (m : NMap Byte) (a : Nat) (ws : List Nat) : NMap Byte :=
  memWrite (memPutWords m a ws) (a + 8 * ws.length) 8 (carryWord ws)

/-! ## The bench state (R547) -/

/-- Register bits of a word that keep their value over a warm kick-off (R14). -/
def keepMask (h : RegHit) : Nat :=
  (h.fam.fields.filter (fun f => f.keep)).foldl (fun m f => m ||| ((2 ^ (f.hi + 1 - f.lo) - 1) <<< f.lo)) 0
    >>> (if 4 ≤ h.byte then 32 else 0)

/-- The bits of a word that a warm start keeps. -/
def warmMask (a : Nat) : Nat := ((findReg a).map keepMask).getD 0

/-- The register bits that show the bench state: the stored fields of the BNCH window (R552), the cores in service and on the
bench, the bench rows of each bank, and the lanes (R547). -/
def benchMask (a : Nat) : Nat :=
  if 0x40150000 ≤ a ∧ a < 0x40160000 then warmMask a
  else if a = R.CORE_SVC then 0xFFFFFFFF
  else if R.CMNS_BANKb 0 ≤ a ∧ a < R.CMNS_BANKb 32 then 0x3F
  else if R.SOLV_LANEk 0 ≤ a ∧ a < R.SOLV_LANEk 5 then 0x1F
  else if a = R.SOLV_STAT then 0xE0000
  else 0

/-- The chosen copy, 0 for A and 1 for B, with its GEN (R591). -/
def BnchS.chosen (b : BnchS) : Option (Nat × Nat) := chooseCopy (b.copyA.map BenchCopy.gen) (b.copyB.map BenchCopy.gen)

/-- What the chosen copy holds. -/
def BnchS.stored (b : BnchS) : Option BenchCopy := b.chosen.bind fun c => if c.1 = 0 then b.copyA else b.copyB

/-- The bench state as it stands. -/
def State.benchNow (s : State) (gen : Nat) : BenchCopy :=
  { gen := gen
    regs := s.regs.foldl (fun r e => planeSet r e.1 (mergeBits (coldWord e.1) e.2 (BitVec.ofNat 32 (benchMask e.1)))) []
    worn := s.bnch.worn.filter (fun e => e.2 == 2), rowSub := s.cmns.rowSub, vacant := s.solv.vacant }

/-- The bench state is written, to the copy that R591 names and with its GEN (R547). -/
def State.saveBench (s : State) : State :=
  let w := writeCopy s.bnch.chosen
  let c := some (s.benchNow w.2)
  { s with bnch := if w.1 = 0 then { s.bnch with copyA := c } else { s.bnch with copyB := c } }

end Sys2Proof.Machine
end

