-- ==== Sys2Proof/Machine/Meter.lean ====
section
/-! DEFINITION. Metering: modulator faults, the group and calculator updates, the energy registers, saves, pulse outputs
and posts (14_metering, R375 to R405). -/

namespace Sys2Proof.Machine

def State.setMetr (s : State) (m : MetrS) : State := { s with metr := m }
def State.grpS (s : State) (g : Nat) : GrpS := NMap.get GrpS.init s.metr.grp g
def State.setGrp (s : State) (g : Nat) (x : GrpS) : State :=
  s.setMetr { s.metr with grp := NMap.set GrpS.init s.metr.grp g x }
def State.tcS (s : State) (c : Nat) : TcS := NMap.get TcS.init s.metr.tc c
def State.setTc (s : State) (c : Nat) (x : TcS) : State :=
  s.setMetr { s.metr with tc := NMap.set TcS.init s.metr.tc c x }
def State.poS (s : State) (o : Nat) : PoS := NMap.get PoS.init s.metr.po o
def State.setPo (s : State) (o : Nat) (x : PoS) : State :=
  s.setMetr { s.metr with po := NMap.set PoS.init s.metr.po o x }

/-! ## Events (R403) -/

/-- The group event with a cause of `METR_GgEVC`. -/
def State.groupEvent (s : State) (g cause : Nat) : State :=
  (s.setBit ⟨R.METR_GgEVC g, cause, cause⟩).raise (152 + g) (s.dutiesOf 5) true
/-- The calculator event with a cause of `METR_TCc_EVC`. -/
def State.calcEvent (s : State) (c cause : Nat) : State :=
  (s.setBit ⟨R.METR_TCc_EVC c, cause, cause⟩).raise (156 + c) (s.dutiesOf 5) true
/-- Event 164 for output o. -/
def State.pulseEvent (s : State) (o : Nat) : State :=
  (s.setBit ⟨R.METR_POEVC, o, o⟩).raise 164 (s.dutiesOf 5) false

/-! ## Modulator inputs (R375 to R378) -/

/-- The input that feeds channel k of group g (R375). -/
def State.metrInput (s : State) (g k : Nat) : Nat :=
  if k < 6 then s.rd ⟨R.METR_GgMAP g, 5 * k + 4, 5 * k⟩ else s.rd (R.METR_GgMAPN_IN g)

def State.feeds (s : State) (g inp : Nat) : Bool := (List.range 7).any fun k => s.metrInput g k == inp

def State.faultsOf (s : State) (inp : Nat) : List (Nat × Option Nat) := NMap.get [] s.metr.fault inp
/-- Is the input in fault now? -/
def State.inFault (s : State) (inp : Nat) : Bool :=
  match s.faultsOf inp with
  | (_, none) :: _ => true
  | _ => false

/-- Show in every group whether one of its inputs is in fault. -/
def State.showInf (s : State) : State :=
  (List.range 4).foldl (fun s g =>
    s.wrBit (R.METR_GgSTAT_INF g) ((List.range 7).any fun k => s.inFault (s.metrInput g k))) s

/-- A stretch in fault begins at a clock; nothing while one lasts. -/
def openFault (l : List (Nat × Option Nat)) (clk : Nat) : List (Nat × Option Nat) :=
  match l with
  | (_, none) :: _ => l
  | _ => (clk, none) :: l

/-- A stretch in fault ends at a clock. -/
def closeFault (l : List (Nat × Option Nat)) (clk : Nat) : List (Nat × Option Nat) :=
  match l with
  | (a, none) :: r => (a, some clk) :: r
  | _ => l

/-- An input goes into fault at a clock counted from tick 0: its bit in `METR_MODF` and the event of every group it feeds
(R378). -/
def State.faultOn (s : State) (inp clk : Nat) : State :=
  if s.inFault inp then s
  else
    let s := s.setMetr { s.metr with fault := NMap.modify [] s.metr.fault inp (openFault · clk) }
    let s := s.setBit ⟨R.METR_MODF, inp, inp⟩
    ((List.range 4).foldl (fun s g => if s.feeds g inp then s.groupEvent g 0 else s) s).showInf

/-- An input's fault ends. -/
def State.faultOff (s : State) (inp clk : Nat) : State :=
  (s.setMetr { s.metr with fault := NMap.modify [] s.metr.fault inp (closeFault · clk) }).showInf

/-- MODULATOR_FAULT (R378): an input's stream has held for 128 clocks at clock `clk` of the tick. A standby in step takes its
faults from the snapshot (R402). -/
def execModulatorFault (k : Fin 32) (clk : Fin 1000) (s : State) : Out :=
  .next (
    let c := 1000 * s.tickN + clk.val
    let s := s.setMetr { s.metr with ownFault := NMap.modify [] s.metr.ownFault k.val (openFault · c) }
    if s.onSnapshot then s else s.faultOn k.val c)

/-- MODULATOR_FAULT_END (R378): the first change of the stream. -/
def execModulatorFaultEnd (k : Fin 32) (clk : Fin 1000) (s : State) : Out :=
  .next (
    let c := 1000 * s.tickN + clk.val
    let s := s.setMetr { s.metr with ownFault := NMap.modify [] s.metr.ownFault k.val (closeFault · c) }
    if s.onSnapshot then s else s.faultOff k.val c)

/-- Did any of the 2,998 bits that end with the bit at this tick's edge fall while the module's input was in fault (R378)? -/
def State.sampleVoid (s : State) (inp : Nat) : Bool :=
  let last := 1000 * s.tickN
  (NMap.get [] s.metr.ownFault inp).any fun f => decide (f.1 ≤ last) && (match f.2 with
    | none => true
    | some e => decide (last ≤ e + 2996))

/-- Stretches too old to count are forgotten. -/
def State.pruneFaults (s : State) : State :=
  let last := 1000 * s.tickN
  let prune (m : NMap (List (Nat × Option Nat))) := m.filterMap fun e =>
    let l := e.2.filter (fun f => match f.2 with
      | none => true
      | some x => decide (last ≤ x + 2996))
    if l.isEmpty then none else some (e.1, l)
  s.setMetr { s.metr with fault := prune s.metr.fault, ownFault := prune s.metr.ownFault }

/-- Does the module drive its modulator clocks? Of a pair the member that is ACTIVE does (R376, R402). -/
def State.drivesMclk (s : State) : Bool := s.ticking && !s.gated

/-- A rising edge of MCLK0 to MCLK3: 10 MHz, with one at every tick edge (R376). -/
def State.mclkRises (s : State) : Bool := s.drivesMclk && s.cycle % 60 == 0

/-- The group whose clock and MDLY sample an input: the lowest that it feeds, or that of the reset mapping (R375, R376; DEDUCED:
notes/assumptions/32). -/
def State.groupOf (s : State) (inp : Nat) : Nat :=
  ((List.range 4).find? (fun g => s.feeds g inp)).getD (min 3 (inp / 7))

/-- The levels of the tick that ends reach the inputs' filters. -/
def State.takeStream (s : State) (x : List Nat) : State :=
  s.setMetr { s.metr with stream := (List.range 32).foldl (fun m k =>
    NMap.modify [] m k (fun l => (x.getD k 0 :: l).take 3)) s.metr.stream }

/-- The decimated sample of an input at this update (R377, R378). Before three ticks have filled the filter it is not stated
(free). -/
def State.modSample (s : State) (inp : Nat) : Int :=
  if s.sampleVoid inp then 0
  else match NMap.get [] s.metr.stream inp with
    | a :: b :: c :: _ => sinc3 (filterBits (s.rd (R.METR_GgCFG_MDLY (s.groupOf inp))) c b a)
    | _ => (Config.freeFun 81 [inp, s.tickN] % 2000000001 : Nat) - 1000000000

/-! ## Energy registers (R392 to R395) -/

def State.energy (s : State) (i : Nat) : Nat := NMap.get 0 s.metr.reg i
/-- Bits [87:48] of a register. -/
def State.summary (s : State) (i : Nat) : Nat := bitsOf (s.energy i) 87 48
/-- DW (R395). -/
def State.doubleWrap (s : State) (i : Nat) : Bool :=
  decide (2 ^ 32 ≤ (s.summary i + 2 ^ 40 - NMap.get 0 s.metr.ack i) % 2 ^ 40)

/-- The registers a program reads for register i. -/
def State.showEnergy (s : State) (i : Nat) : State :=
  let s := s.wr (R.METR_Ei_E i) (s.energy i / 2 ^ 32)
  let s := (s.wr (R.METR_SUMi_SUM i) (s.summary i)).wr (R.METR_SUMi_WCNT i) (s.summary i / 2 ^ 32)
  s.wrBit (R.METR_SUMi_DW i) (s.doubleWrap i)

/-- Add num / den LSBs to register i, carrying the remainder (R385). -/
def State.addEnergy (s : State) (i : Nat) (num : Int) (den : Nat) : State :=
  let t := ((NMap.get 0 s.metr.rem i : Nat) : Int) + num
  let d := t / (den : Int)
  let was := s.doubleWrap i
  let s := s.setMetr { s.metr with
    reg := NMap.set 0 s.metr.reg i (((s.energy i : Int) + d) % 2 ^ 96).toNat,
    rem := NMap.set 0 s.metr.rem i (t % (den : Int)).toNat,
    inc := NMap.set 0 s.metr.inc i (NMap.get 0 s.metr.inc i + d) }
  let s := s.showEnergy i
  if s.doubleWrap i && !was then s.raise 167 (s.dutiesOf 5) false else s

/-- A 64-bit load of `METR_Ei` (R393): the value, with the fraction latched for the reading core. -/
def State.energyLoad (s : State) (i p : Nat) : Nat × State :=
  (s.energy i / 2 ^ 32, s.setCore p { s.core p with efrac := BitVec.ofNat 32 (s.energy i) })

/-- ENERGY_REGISTER_READ (R393). -/
def execEnergyRegisterRead (p : Port) (n : Fin 192) (s : State) : Out :=
  .next (s.byCore p fun s =>
    let r := s.energyLoad n.val p.core.val
    { r.2 with readData := BitVec.ofNat 64 r.1 })

/-- A 64-bit load of `METR_SUMi` (R395): SUM, WCNT and DW; the register is acknowledged. -/
def State.summaryLoad (s : State) (i : Nat) : Nat × State :=
  let v := s.summary i + 2 ^ 40 * b2n (s.doubleWrap i)
  (v, (s.setMetr { s.metr with ack := NMap.set 0 s.metr.ack i (s.summary i) }).showEnergy i)

/-- SUMMARY_READ (R395). -/
def execSummaryRead (p : Port) (n : Fin 192) (s : State) : Out :=
  .next (s.byCore p fun s =>
    let r := s.summaryLoad n.val
    { r.2 with readData := BitVec.ofNat 64 r.1 })

/-! ## Electrical groups (R379 to R386) -/

def State.metrRun (s : State) : Bool := s.rdBit R.METR_STAT_RUN
def State.grpRun (s : State) (g : Nat) : Bool := s.rdBit (R.METR_GgSTAT_RUN g)

/-- The banked fields of a group (R383). -/
def grpBank (g : Nat) : List FieldRef :=
  [R.METR_GgMAP_VA g, R.METR_GgMAP_VB g, R.METR_GgMAP_VC g, R.METR_GgMAP_IA g, R.METR_GgMAP_IB g, R.METR_GgMAP_IC g,
   R.METR_GgMAPN_IN g]
    ++ (List.range 7).flatMap (fun k => [R.METR_GgCHk_GAIN_GAIN g k, R.METR_GgCHk_GAIN_GSH g k, R.METR_GgCHk_OFF_OFF g k])
    ++ (List.range 3).flatMap (fun x => [R.METR_GgPHx_GP_GP g x, R.METR_GgPHx_OP_OP g x, R.METR_GgPHx_GQ_GQ g x,
        R.METR_GgPHx_OQ_OQ g x, R.METR_GgPHx_GS_GS g x, R.METR_GgPHx_OS_OS g x, R.METR_GgPHx_GV_GV g x,
        R.METR_GgPHx_OV_OV g x, R.METR_GgPHx_GI_GI g x, R.METR_GgPHx_OI_OI g x, R.METR_GgPHx_XP_XP g x,
        R.METR_GgPHx_XQ_XQ g x])

/-- A write of COMMIT (R383). -/
def State.grpCommit (s : State) (g : Nat) : State := s.wrLater (R.METR_GgSTAT_PEND g) 1

/-- GROUP_COMMIT (R383). -/
def execGroupCommit (p : Port) (g : Fin 4) (s : State) : Out := .next (s.byCore p fun s => s.grpCommit g.val)

def State.phaseCfg (s : State) (g x : Nat) : PhaseCfg :=
  { gp := s.rd (R.METR_GgPHx_GP_GP g x), op := s.rdI (R.METR_GgPHx_OP_OP g x), gq := s.rd (R.METR_GgPHx_GQ_GQ g x),
    oq := s.rdI (R.METR_GgPHx_OQ_OQ g x), gs := s.rd (R.METR_GgPHx_GS_GS g x), os := s.rdI (R.METR_GgPHx_OS_OS g x),
    gv := s.rd (R.METR_GgPHx_GV_GV g x), ov := s.rd (R.METR_GgPHx_OV_OV g x), gi := s.rd (R.METR_GgPHx_GI_GI g x),
    oi := s.rd (R.METR_GgPHx_OI_OI g x), xp := s.rdI (R.METR_GgPHx_XP_XP g x), xq := s.rdI (R.METR_GgPHx_XQ_XQ g x) }

/-- The corrected sample of a channel from the raw samples of the tick (R379). -/
def State.channelSample (s : State) (g : Nat) (raw : Nat → Int) (k : Nat) : Int :=
  chanCorrect (s.rdI (R.METR_GgCHk_GAIN_GAIN g k)) (s.rd (R.METR_GgCHk_GAIN_GSH g k)) (raw (s.metrInput g k))
    (s.rdI (R.METR_GgCHk_OFF_OFF g k))

/-- Is a phase in creep (R386): Irms below ISTART × INOM / 10,000? -/
def State.inCreep (s : State) (g : Nat) (r : PhaseRes) : Bool :=
  decide (r.i * 10 ^ 7 < s.rd (R.METR_GgCFG_ISTART g) * s.rd (R.METR_GgINOM_INOM g) * 2 ^ 28)

/-- The register a power increment goes to by the signs of P and Q (R385): active, reactive, apparent. -/
def powerRegs (p q : Int) : Nat × Nat × Nat :=
  (if 0 ≤ p then 0 else 1,
   if 0 ≤ p then (if 0 ≤ q then 2 else 5) else if 0 ≤ q then 3 else 4,
   if 0 ≤ p then 6 else 7)

/-- The increments of one phase or the total (R385), with values in 2^-44 W. -/
def State.addPower (s : State) (base : Nat) (r : PhaseRes) : State :=
  let k := powerRegs r.p r.q
  let den := 36000000 * 2 ^ 16
  let s := s.addEnergy (base + k.1) (r.p.natAbs * 2 ^ 20) den
  let s := s.addEnergy (base + k.2.1) (r.q.natAbs * 2 ^ 20) den
  s.addEnergy (base + k.2.2) (r.s * 2 ^ 20) den

/-- The bit of a phase in CREEP. -/
def creepBit (g x : Nat) : FieldRef := ⟨R.METR_GgSTAT g, 2 + x, 2 + x⟩

/-- What a phase counts for accumulation and the totals (R386). -/
def State.effective (s : State) (g : Nat) (r : PhaseRes) : PhaseRes :=
  if s.inCreep g r then { r with p := 0, q := 0, s := 0 } else r

def PhaseRes.plus (a b : PhaseRes) : PhaseRes := { a with p := a.p + b.p, q := a.q + b.q, s := a.s + b.s }

/-- Show a phase's creep; a change raises the group event (R386). -/
def State.noteCreep (s : State) (g x : Nat) (r : PhaseRes) : State :=
  let now := s.inCreep g r
  if s.rdBit (creepBit g x) == now then s else (s.wrBit (creepBit g x) now).groupEvent g 1

/-- The new history of a group with the tick's samples. -/
def GrpS.extend (x : GrpS) (n : Nat) (c : List Int) : GrpS :=
  let hist := (c :: x.hist).take 127
  { x with hist := hist, prods := (groupProducts hist :: x.prods).take (max 1 n), va := (colAt 0 c :: x.va).take 1001 }

/-- The results of a group from its history (R380 to R382). -/
def State.grpResults (s : State) (g : Nat) (x : GrpS) : GrpS :=
  let n := max 1 (s.rd (R.METR_GgCFG_NWIN g))
  let col (k : Nat) : Int := colSum n k x.prods
  let ph := (List.range 3).map fun k =>
    phaseResult n (s.phaseCfg g k) (col (4 * k)) (col (4 * k + 1)) (col (4 * k + 2)) (col (4 * k + 3))
  let tot := (ph.map (s.effective g)).foldl PhaseRes.plus ⟨0, 0, 0, 0, 0⟩
  { x with ph := ph, tot := tot, neutral := rmsOf n (2 ^ 30) 32 (col 12) 0, freq := lineFreq x.va }

/-- The update of a running group (R383). -/
def State.updateGroup (raw : Nat → Int) (s : State) (g : Nat) : State :=
  if !s.grpRun g then s
  else
    let s := if s.rdBit (R.METR_GgSTAT_PEND g) then ((s.swapFields (grpBank g)).wr (R.METR_GgSTAT_PEND g) 0).showInf
      else s
    let c := (List.range 7).map (s.channelSample g raw)
    let x := s.grpResults g ((s.grpS g).extend (s.rd (R.METR_GgCFG_NWIN g)) c)
    let s := s.setGrp g x
    let s := (List.range 3).foldl (fun s k => s.noteCreep g k (x.ph.getD k ⟨0, 0, 0, 0, 0⟩)) s
    let s := (List.range 3).foldl (fun s k =>
      s.addPower (32 * g + 8 * k) (s.effective g (x.ph.getD k ⟨0, 0, 0, 0, 0⟩))) s
    s.addPower (32 * g + 24) x.tot

/-! ## Calculators (R387 to R391) -/

def State.tcRun (s : State) (c : Nat) : Bool := s.rdBit (R.METR_TCc_STAT_RUN c)

/-- Every conversion of an ADC channel is delivered to the running calculators that name it (R387, R388). -/
def State.deliverConversion (s : State) (ch : Nat) (v : Int) : State :=
  (List.range 8).foldl (fun s c =>
    if !s.tcRun c then s
    else
      let x := s.tcS c
      let x := if s.rdBit (R.METR_TCc_CFG_FSRC c) && s.rd (R.METR_TCc_SRC_ACH c) == ch then { x with m := v, fresh := true }
        else x
      let x := if 32 + s.rd (R.METR_TCc_SRC_RS c) = ch then { x with sumS := x.sumS + v, nS := x.nS + 1 } else x
      let x := if 32 + s.rd (R.METR_TCc_SRC_RR c) = ch then { x with sumR := x.sumR + v, nR := x.nR + 1 } else x
      s.setTc c x) s

/-- A temperature from 0 to 180 °C. -/
def tempOk (t : Int) : Bool := decide (0 ≤ t) && decide (t ≤ 180 * 2 ^ 32)

/-- The temperatures of a calculator at a frame boundary (R388, R391). -/
def State.tcFrame (s : State) (c : Nat) : State :=
  if !s.tcRun c then s
  else
    let x := s.tcS c
    let ty := s.rd (R.METR_TCc_CFG_RTYPE c)
    let ts := rtdTemp ty x.sumS x.nS
    let tr := rtdTemp ty x.sumR x.nR
    let ok := x.nS != 0 && x.nR != 0 && tempOk ts && tempOk tr
    let y := { x with sumS := 0, nS := 0, sumR := 0, nR := 0 }
    if ok then (s.setTc c { y with ts := ts, tr := tr, tvalid := true, missT := 0 }).wr (R.METR_TCc_STAT_TLOST c) 0
    else
      let s := s.setTc c { y with missT := x.missT + 1 }
      if 10 ≤ x.missT + 1 && !s.rdBit (R.METR_TCc_STAT_TLOST c) then
        ((s.wr (R.METR_TCc_STAT_TLOST c) 1).inc (R.METR_TCc_STAT_TLOSTS c)).calcEvent c 1
      else s

/-- The flow side of a tick without a conversion (R391). -/
def State.noteFlow (s : State) (c : Nat) : State :=
  if !s.rdBit (R.METR_TCc_CFG_FSRC c) then s
  else
    let x := s.tcS c
    if x.fresh then (s.setTc c { x with fresh := false, missF := 0 }).wr (R.METR_TCc_STAT_FLOWLOST c) 0
    else
      let s := s.setTc c { x with missF := x.missF + 1 }
      if 10 ≤ x.missF + 1 && !s.rdBit (R.METR_TCc_STAT_FLOWLOST c) then
        ((s.wr (R.METR_TCc_STAT_FLOWLOST c) 1).inc (R.METR_TCc_STAT_FLOSTS c)).calcEvent c 0
      else s

/-- ΔV of a tick in 2^-24 × 10^-7 litres (R387). -/
def State.deltaV (s : State) (c : Nat) : Int :=
  if s.rdBit (R.METR_TCc_CFG_FSRC c) then
    if s.rdBit (R.METR_TCc_STAT_FLOWLOST c) then 0
    else s.rdI (R.METR_TCc_FG_FG c) * (s.tcS c).m + s.rdI (R.METR_TCc_FOFF_FOFF c) * 2 ^ 24
  else
    let pin := s.rd (R.METR_TCc_SRC_PIN c)
    let n := (NMap.get 0 s.metr.cnt1 pin + 2 ^ 32 - NMap.get 0 s.metr.cnt0 pin) % 2 ^ 32
    let v : Int := (s.rd (R.METR_TCc_KVOL_KVOL c) * n * 10 ^ 7 : Nat)
    let rev := s.metr.din.testBit (s.rd (R.METR_TCc_SRC_DIN c)) != s.rdBit (R.METR_TCc_CFG_DIRINV c)
    if rev then -v else v

/-- REV shows the sign of the latest non-zero ΔV (R390). -/
def State.noteRev (s : State) (c : Nat) (dv : Int) : State :=
  if dv = 0 then s
  else
    let rev := decide (dv < 0)
    if s.rdBit (R.METR_TCc_STAT_REV c) == rev then s
    else ((s.wrBit (R.METR_TCc_STAT_REV c) rev).inc (R.METR_TCc_STAT_REVS c)).calcEvent c 2

/-- What a tick's ΔV adds to a calculator's registers (R389, R390). -/
def State.addHeat (s : State) (c : Nat) (dv : Int) : State :=
  let x := s.tcS c
  let b := 128 + 8 * c
  let r := b2n (decide (dv < 0))
  let a := dv.natAbs
  let pbar := s.rd (R.METR_TCc_CFG_PBAR c)
  let side := if s.rdBit (R.METR_TCc_CFG_FLOC c) then x.tr else x.ts
  let rho := density side pbar
  let s := s.addEnergy (b + 4 + r) (a * 2 ^ 24) (10 ^ 7)
  let s := s.addEnergy (b + 6 + r) (a * rho) (2 ^ 24 * 10 ^ 7)
  let th := x.ts - x.tr
  let dt : Int := ((s.rd (R.METR_TCc_CFG_DTMIN c)) * 2 ^ 32 : Nat)
  let kind := s.rd (R.METR_TCc_CFG_KIND c)
  let e := a * heatCoef x.ts x.tr side pbar * th.natAbs
  if s.rdBit (R.METR_TCc_STAT_TLOST c) || !x.tvalid then s
  else
    let s := if dt ≤ 100 * th && kind.testBit 0 then s.addEnergy (b + r) e (2 ^ 56 * 10 ^ 7) else s
    if 100 * th ≤ -dt && kind.testBit 1 then s.addEnergy (b + 2 + r) e (2 ^ 56 * 10 ^ 7) else s

/-- The update of a running calculator: its tick's ΔV, and the sums of the frame (R401). -/
def State.updateCalc (s : State) (c : Nat) : State :=
  if !s.tcRun c then s
  else
    let s := s.noteFlow c
    let dv := s.deltaV c
    let s := s.noteRev c dv
    let s := if dv = 0 then s else s.addHeat c dv
    let i (q : Nat) : Int := NMap.get 0 s.metr.inc (128 + 8 * c + q)
    let de := i 0 - i 1 - i 2 + i 3
    let x := s.tcS c
    if s.boundary 1 then s.setTc c { x with fv := dv, fe := de }
    else s.setTc c { x with fv := x.fv + dv, fe := x.fe + de }

/-! ## Pulse outputs (R398 to R400) -/

def State.poRun (s : State) (o : Nat) : Bool := s.metrRun && (s.rd R.METR_POEN_EN).testBit o

/-- KP in register LSBs. -/
def State.poKp (s : State) (o : Nat) : Nat := s.rd (R.METR_POo_KP_KP o) * 2 ^ 32

def State.showOwed (s : State) (o : Nat) : State := s.wr (R.METR_POo_STAT_OWED o) (min 65535 (s.poS o).owed)

/-- The crossings of output o in this update (R398). -/
def State.updatePulse (s : State) (o : Nat) : State :=
  if !s.poRun o then s
  else
    let x := s.poS o
    let inc := NMap.get 0 s.metr.inc (s.rd (R.METR_POo_CFG_SRC o))
    let kp := s.poKp o
    let n := (x.r + inc) / (kp : Int)
    let due := if decide (0 < n) && x.owed == 0 then
        10000 * (s.tickN + 1) + (10000 * ((kp : Int) - x.r) / inc).toNat else x.due
    (s.setPo o { x with r := (x.r + inc - n * kp).toNat, owed := x.owed + n.toNat, due := due, inc := inc }).showOwed o

/-- The width of a pulse in 10 ns (R399). -/
def State.pulseWidth (s : State) (o : Nat) (inc : Int) : Nat :=
  let pw := 100000 * s.rd (R.METR_POo_CFG_PW o)
  if inc = 0 then pw else max 5000 (min pw (truncDiv (5000 * s.poKp o) inc).toNat)

/-- PULSE_OUTPUT_START (R399, R400): at a 10 ns step of the tick an owed pulse starts, if it is due and spaced. One that starts
while the pin is held low is counted and not emitted later. -/
def execPulseOutputStart (o : Fin 16) (ten : Fin 10000) (s : State) : Out :=
  .next (
    let n := o.val
    let x := s.poS n
    let t := 10000 * s.tickN + ten.val
    let w := s.pulseWidth n x.inc
    if x.owed = 0 || decide (t < x.due) || (x.start != 0 && decide (t < x.start - 1 + 2 * w)) || !s.poRun n then s
    else
      let late := decide (x.due < t)
      let held := s.forcedPo n || s.gated
      let s := s.setPo n { x with owed := x.owed - 1, due := t, start := t + 1, width := w, on := !held,
                                  deferred := x.deferred || late }
      let s := (s.showOwed n).outRec 3 n (leBytes 2 ten.val)
      let s := s.when late fun s => s.inc (R.METR_POo_STAT_DEFER n)
      let s := s.when (late && !x.deferred) fun s => s.pulseEvent n
      if held then
        let first := s.rd (R.METR_POo_STAT_SUPP n) == 0
        (s.inc (R.METR_POo_STAT_SUPP n)).when first fun s => s.pulseEvent n
      else s)

/-- PULSE_OUTPUT_END (R399): a pulse ends in the cycle in which its width has passed, where that lies in this tick. -/
def execPulseOutputEnd (o : Fin 16) (s : State) : Out :=
  .next (
    let x := s.poS o.val
    let t := x.start - 1 + x.width - 10000 * s.tickN
    if x.on && decide (t < 10000) then (s.atCycle (max s.cycle (6 * t))).setPo o.val { x with on := false } else s)

/-- What the pin of pulse output o drives (R400). -/
def State.poDriven (s : State) (o : Nat) : Bool := (s.poS o).on && !s.forcedPo o && !s.undriven

/-! ## The update (R383) -/

/-- Enables are sampled at an update; a part that stops or starts begins afresh (R404). -/
def State.sampleMeter (s : State) : State :=
  let run := s.rdBit R.METR_CTRL_EN
  let s := s.wrBit R.METR_STAT_RUN run
  let s := (List.range 4).foldl (fun s g =>
    let on := run && s.rdBit (R.METR_GgCTRL_EN g)
    let s := if s.grpRun g == on then s else s.setGrp g GrpS.init
    s.wrBit (R.METR_GgSTAT_RUN g) on) s
  (List.range 8).foldl (fun s c =>
    let on := run && s.rdBit (R.METR_TCc_CTRL_EN c)
    let s := if s.tcRun c == on then s else s.setTc c TcS.init
    s.wrBit (R.METR_TCc_STAT_RUN c) on) s

/-- The update from the samples of the 32 inputs (R383, R385, R398): it uses the fields and commits written in earlier cycles. -/
def State.meterUpdate (s : State) (raw : Nat → Int) : State :=
  s.sampled fun s =>
    let s := s.sampleMeter
    if !s.metrRun then s
    else
      let s := s.setMetr { s.metr with inc := [] }
      let s := (List.range 4).foldl (State.updateGroup raw) s
      let s := (List.range 8).foldl State.updateCalc s
      ((List.range 16).foldl State.updatePulse s).pruneFaults

/-- METERING_UPDATE (R376, R377, R383): the update of the tick, with the levels of the 32 modulator inputs from cycle 60 of the
tick before to cycle 59 of this one. A standby keeps its own samples and takes those of the snapshot (R402). -/
def execMeteringUpdate (x : List Nat) (s : State) : Out :=
  .next (
    let s := (s.atCycle 2000).takeStream x
    let own := (List.range 32).map s.modSample
    if s.isStandby then
      (s.capture 2000 (.modulators (own.map (BitVec.ofInt 32)))).meterUpdate fun k => signedOf 32 (NMap.get 0 s.pair.mods k)
    else (s.noteItems (.modulators [])).meterUpdate fun k => own.getD k 0)

/-- Metering's part of a tick edge: the pulse counts and direction inputs of the tick just ended, and at a frame boundary
the temperatures of the frame just ended (R388, R390). -/
def State.meterEdge (s : State) : State :=
  let c := (List.range 32).foldl (fun m k => NMap.set 0 m k (s.rd (R.DIOP_PIp_CNT_CNT k))) []
  let s := s.setMetr { s.metr with cnt0 := s.metr.cnt1, cnt1 := c, din := s.din }
  if s.boundary 1 then (List.range 8).foldl State.tcFrame s else s

/-! ## Saving and restoring (R396, R397) -/

def saveWords : Nat := 424
def State.saveArea (s : State) : Nat := mramBase + s.rd R.METR_SBASE_SBASE

/-- The chosen copy of the save area at a device address (R591). -/
def State.savedAt (s : State) (a : Nat) : Option (Nat × Nat) :=
  chooseCopy (copyGen s.mem a saveWords 0x4D53) (copyGen s.mem (a + 0x1000) saveWords 0x4D53)
def State.saveChosen (s : State) : Option (Nat × Nat) := s.savedAt s.saveArea

/-- The data words of a save (R396). -/
def State.saveImage (s : State) (gen : Nat) : List Nat :=
  let hdr := [0x4D53 + 2 ^ 16 + 2 ^ 32 * gen, s.tickN % 2 ^ 32, s.rd R.RTCB_TIME_SEC, 0, 0, 0, 0, 0]
  let regs := (List.range 192).flatMap fun i => [s.energy i % 2 ^ 64, s.energy i / 2 ^ 64]
  let outs := (List.range 16).flatMap fun o =>
    let x := s.poS o
    [x.r % 2 ^ 64, x.r / 2 ^ 64 % 2 ^ 32 + 2 ^ 32 * (x.owed % 2 ^ 32)]
  hdr ++ regs ++ outs

/-- METERING_SAVE (R396): at the update of a round-boundary tick the snapshot is taken and the write begins, or is
skipped. -/
def execMeteringSave (s : State) : Out :=
  .next (
    if !s.metrRun || !s.rdBit R.METR_CTRL_SAVEN || !s.boundary 2 then s
    else if s.rdBit R.METR_SVST_SBUSY then s.inc R.METR_SVST_SKIP
    else
      let w := writeCopy s.saveChosen
      let a := s.saveArea + 0x1000 * w.1
      let s := (s.wr R.METR_SVST_SBUSY 1).setMetr { s.metr with save := some (a, w.2, s.saveImage w.2) }
      { s with mem := copyOpen s.mem a saveWords })

/-- METERING_SAVE_COMPLETE (R396): the copy's words and its check word are written, or a store failed and the copy keeps
MARK 0; event 165. -/
def execMeteringSaveComplete (ok : Bool) (s : State) : Out :=
  .next (match s.metr.save with
    | none => s
    | some (a, gen, ws) =>
      let s := (s.wr R.METR_SVST_SBUSY 0).setMetr { s.metr with save := none }
      let s := if ok then
          (({ s with mem := copyClose s.mem a ws }).wr R.METR_SVST_SFAIL 0).wr R.METR_SVGEN_GEN gen
        else s.wr R.METR_SVST_SFAIL 1
      s.raise 165 (s.dutiesOf 5) false)

/-- A write of RESTORE (1) or ZERO (2) (R397). -/
def State.meterOp (s : State) (op p : Nat) : State :=
  if s.rdBit R.METR_CTRL_EN || s.rdBit R.METR_STAT_RBUSY then s.wr R.METR_STAT_RSTAT 4
  else (s.wr R.METR_STAT_RBUSY 1).setMetr { s.metr with op := some (op, s.dutyOf p), opArea := s.saveArea }

/-- METERING_RESTORE (R397). -/
def execMeteringRestore (p : Port) (s : State) : Out := .next (s.byCore p fun s => s.meterOp 1 p.core.val)
/-- METERING_ZERO (R397). -/
def execMeteringZero (p : Port) (s : State) : Out := .next (s.byCore p fun s => s.meterOp 2 p.core.val)

/-- Every register, residue and OWED takes the value of a list of data words (R396, R397). -/
def State.loadSave (s : State) (ws : List Nat) : State :=
  let w (k : Nat) : Nat := ws.getD k 0
  let s := (List.range 192).foldl (fun s i =>
    let v := w (8 + 2 * i) + 2 ^ 64 * (w (9 + 2 * i) % 2 ^ 32)
    let s := s.setMetr { s.metr with reg := NMap.set 0 s.metr.reg i v, rem := NMap.set 0 s.metr.rem i 0,
                                     ack := NMap.set 0 s.metr.ack i (bitsOf v 87 48) }
    s.showEnergy i) s
  (List.range 16).foldl (fun s o =>
    let r := w (392 + 2 * o) + 2 ^ 64 * (w (393 + 2 * o) % 2 ^ 32)
    (s.setPo o { s.poS o with r := r, owed := w (393 + 2 * o) / 2 ^ 32 }).showOwed o) s

/-- RESTORE_OR_ZERO_COMPLETE (R397): the end of a restore or zero, with RSTAT and event 166 to the writing core. -/
def execRestoreOrZeroComplete (s : State) : Out :=
  .next (match s.metr.op with
    | none => s
    | some (op, duty) =>
      let s := (s.wr R.METR_STAT_RBUSY 0).setMetr { s.metr with op := none }
      let s := if op = 2 then (s.loadSave []).wr R.METR_STAT_RSTAT 3
        else match s.savedAt s.metr.opArea with
          | none => s.wr R.METR_STAT_RSTAT 2
          | some (k, _) =>
            let s := s.loadSave (memWords s.mem (s.metr.opArea + 0x1000 * k) saveWords)
            (s.wr R.METR_STAT_RSTAT 1).setMetr { s.metr with restored := true }
      s.raise 166 [duty] false)

/-! ## Publication (R401) -/

/-- Two signed or unsigned 32-bit values as one word. -/
def pairWord (lo hi : Int) : Nat := patternOf 32 lo + 2 ^ 32 * patternOf 32 hi

/-- The ten words of a group (R401). -/
def State.grpWords (s : State) (g : Nat) : List Nat :=
  let x := s.grpS g
  let r (k : Nat) : PhaseRes := x.ph.getD k ⟨0, 0, 0, 0, 0⟩
  let w (v : Int) : Int := roundBits v 44
  let milli (v : Nat) : Int := roundBits ((v * 1000 : Nat) : Int) 28
  let phase (k : Nat) : List Nat := [pairWord (milli (r k).v) (milli (r k).i), pairWord (w (r k).p) (w (r k).q)]
  phase 0 ++ phase 1 ++ phase 2
    ++ [patternOf 32 (milli x.neutral) + 2 ^ 32 * (x.freq % 65536) + 2 ^ 48 * s.rd (R.METR_GgSTAT_CREEP g)
          + 2 ^ 51 * s.rd (R.METR_GgSTAT_INF g),
        pairWord (w x.tot.p) (w x.tot.q), pairWord (w (r 0).s) (w (r 1).s), pairWord (w (r 2).s) (w x.tot.s)]

/-- The two words of a calculator (R401). -/
def State.calcWords (s : State) (c : Nat) : List Nat :=
  let x := s.tcS c
  let flow := (2 * x.fv + 10 * 2 ^ 24) / (2 * (10 * 2 ^ 24))
  let power := roundBits (x.fe * 36000) 48
  let temp (t : Int) : Nat := patternOf 16 (roundBits (t * 100) 32)
  [pairWord flow power,
   temp x.ts + 2 ^ 16 * temp x.tr + 2 ^ 32 * s.rd (R.METR_TCc_STAT_REV c) + 2 ^ 33 * s.rd (R.METR_TCc_STAT_FLOWLOST c)
     + 2 ^ 34 * s.rd (R.METR_TCc_STAT_TLOST c)]

/-- The 256 words of the metering region (R401). -/
def State.meterWords (s : State) : List Nat :=
  let run := (List.range 4).foldl (fun a g => a + 2 ^ g * s.rd (R.METR_GgSTAT_RUN g)) 0
  [s.tickN % 2 ^ 32 + 2 ^ 32 * run + 2 ^ 36 * b2n s.metr.restored, s.rd R.METR_SVGEN_GEN]
    ++ (List.range 4).flatMap s.grpWords ++ (List.range 8).flatMap s.calcWords
    ++ List.replicate 6 0 ++ (List.range 192).map s.summary

/-- METERING_POST (R401): at cycle 56,000 of a tick whose count mod 10 is 9. -/
def execMeteringPost (s : State) : Out :=
  .next (if s.metrRun && s.tickN % 10 == 9 then
      (s.atCycle 56000).postHw 21 (s.rd R.METR_PBASE_PBASE) s.meterWords
    else s)

/-! ## Seals (R404, R405) -/

def inSpan (lo hi x : Nat) : Bool := decide (lo ≤ x) && decide (x ≤ hi)

/-- Is the unit running in the sense of R8 (R404)? -/
def State.unitRuns (s : State) (u : MeterUnit) : Bool :=
  let blk := s.rdBit R.METR_CTRL_EN
  match u with
  | .block => blk
  | .group g => blk && s.rdBit (R.METR_GgCTRL_EN g.val)
  | .calc c => blk && s.rdBit (R.METR_TCc_CTRL_EN c.val)
  | .output o => blk && (s.rd R.METR_POEN_EN).testBit o.val

/-- The first failing code of a unit's seal (R405). -/
def State.unitCode (s : State) (u : MeterUnit) : Nat :=
  match u with
  | .block =>
    let b := s.rdColl R.METR_SBASE_SBASE
    if 262144 < s.rdColl R.METR_PBASE_PBASE + 256 then 1
    else if b % 4096 ≠ 0 ∨ mramBytes < b + 0x1000 + 8 * (saveWords + 1) ∨ b < 0x600000 then 2 else 0
  | .group g =>
    if !(inSpan 1 1000 (s.rdColl (R.METR_GgCFG_NWIN g.val)) && inSpan 5 100 (s.rdColl (R.METR_GgCFG_ISTART g.val))
        && inSpan 0 59 (s.rdColl (R.METR_GgCFG_MDLY g.val))) then 1
    else if s.rdColl (R.METR_GgINOM_INOM g.val) = 0 then 2 else 0
  | .calc c =>
    let c := c.val
    if s.rdColl (R.METR_TCc_CFG_RTYPE c) == 3 || !inSpan 1 25 (s.rdColl (R.METR_TCc_CFG_PBAR c))
        || decide (48 ≤ s.rdColl (R.METR_TCc_SRC_DIN c)) then 1
    else if (s.rdColl (R.METR_TCc_CFG_FSRC c) == 1 && decide (32 ≤ s.rdColl (R.METR_TCc_SRC_ACH c)))
        || s.rdColl (R.METR_TCc_SRC_RS c) == s.rdColl (R.METR_TCc_SRC_RR c) then 2
    else if s.rdColl (R.METR_TCc_CFG_KIND c) == 0
        || (s.rdColl (R.METR_TCc_CFG_FSRC c) == 0 && s.rdColl (R.METR_TCc_KVOL_KVOL c) == 0) then 3 else 0
  | .output o =>
    if 191 < s.rdColl (R.METR_POo_CFG_SRC o.val) || s.rdColl (R.METR_POo_KP_KP o.val) == 0
        || !inSpan 1 500 (s.rdColl (R.METR_POo_CFG_PW o.val)) then 1 else 0

/-- The unit's seal-refused and seal-rejected events (R403); the block and the outputs own none. -/
def State.unitRefused (s : State) : MeterUnit → State
  | .group g => s.groupEvent g.val 2
  | .calc c => s.calcEvent c.val 3
  | _ => s
def State.unitRejected (s : State) : MeterUnit → State
  | .group g => s.groupEvent g.val 3
  | .calc c => s.calcEvent c.val 4
  | _ => s

/-- A write of GO to a metering seal word (R405). -/
def State.meterSeal (s : State) (u : MeterUnit) : State :=
  if s.unitRuns u then s.unitRefused u
  else
    let code := s.unitCode u
    let k : Grp × Option Nat × FieldRef := match u with
      | .block => (.metrBlk, none, R.METR_SEAL_ERR)
      | .group g => (.metrGrp, some g.val, R.METR_GgSEAL_ERR g.val)
      | .calc c => (.metrTc, some c.val, R.METR_TCc_SEAL_ERR c.val)
      | .output o => (.metrPo, some o.val, R.METR_POo_SEAL_ERR o.val)
    let s := if code = 0 then s.applyColl 8 k.1 k.2.1 else (s.discardColl 8 k.1 k.2.1).unitRejected u
    s.wr k.2.2 code

/-- METERING_SEAL (R405). -/
def execMeteringSeal (p : Port) (u : MeterUnit) (s : State) : Out := .next (s.byCore p fun s => s.meterSeal u)

end Sys2Proof.Machine
end

