-- ==== Sys2Proof/Machine/Commons.lean ====
section
/-! DEFINITION. The commons' own work: scrubbing, row switches and the check unit (R133, R135, R141, R142). -/

namespace Sys2Proof.Machine

def busPort : Nat := 23

/-- COMMONS_SCRUB (R133): a bank without a request checks its next word; a word found uncorrectable and not yet poisoned
is poisoned and recorded with port 31; a poisoned word is passed over. -/
def execCommonsScrub (bank : Fin 32) (s : State) : Out :=
  .next (if s.rdBit R.CMNS_CFG_SCRUB then
      let k := NMap.get 0 s.cmns.scrub bank.val
      let w := 32 * k + bank.val
      let s := { s with cmns := { s.cmns with scrub := NMap.set 0 s.cmns.scrub bank.val ((k + 1) % 32768) } }
      match s.wordMark w with
      | .single => s.countCorrected w
      | .double => s.poisonedRead 31 w
      | _ => s
    else s)

/-- The BNCH block decides to substitute a row: the bank begins to copy it (R135). -/
def State.beginRow (s : State) (bank row : Nat) : State :=
  s.setCmns { s.cmns with rowCopy := NMap.modify [] s.cmns.rowCopy bank (· ++ [(row, s.tickN)]) }

/-- COMMONS_ROW_SWITCH (R135): at the round boundary after its copy has ended, the bank switches the row to a bench row. -/
def execCommonsRowSwitch (bank : Fin 32) (s : State) : Out :=
  .next (
    let b := bank.val
    match NMap.get [] s.cmns.rowCopy b with
    | [] => s
    | x :: rest =>
      if s.tickN % 1000 != 0 || decide (s.tickN ≤ x.2) then s
      else
        let s := s.setCmns { s.cmns with rowCopy := NMap.set [] s.cmns.rowCopy b rest }
        if s.rd (R.CMNS_BANKb_BROWS b) < 32 then
          let s := s.setCmns { s.cmns with
            rowSub := NMap.set 0 s.cmns.rowSub (256 * b + x.1) (s.rd (R.CMNS_BANKb_BROWS b) + 1) }
          (s.inc (R.CMNS_BANKb_BROWS b)).saveBench.raiseSup 54
        else s)

/-- A write of OP 1, 2 or 3 to a check-unit channel (R141, R142). -/
def State.ckStart (s : State) (op k p : Nat) : State :=
  if s.rdBit (R.CMNS_CKkCMD_BUSY k) then (s.wr (R.CMNS_CKkCMD_ERR k) 4).raiseCoreSup 53 p
  else
    let run : CkRun := ⟨op, s.rd (R.CMNS_CKkSRC_SRC k), s.rd (R.CMNS_CKkDST_DST k), s.rd (R.CMNS_CKkLEN_LEN k), s.dutyOf p⟩
    (s.wr (R.CMNS_CKkCMD_BUSY k) 1).setCmns { s.cmns with ck := NMap.set none s.cmns.ck k (some run) }

def commonsBytes : Nat := 0x800000

/-- The checks before a command's first access (R142, codes 1 to 3). -/
def CkRun.code (r : CkRun) : Nat :=
  let n := 8 * (r.len + 1)
  if r.len == 0 then 1
  else if r.src % 8 != 0 || decide (commonsBytes < r.src + n)
      || (r.op == 3 && (r.dst % 8 != 0 || decide (commonsBytes < r.dst + n))) then 2
  else if r.op == 3 && decide (r.src < r.dst + n) && decide (r.dst < r.src + n) then 3
  else 0

/-- The result code of a verification and a poisoned read (R142, codes 5 to 7). -/
def ckCode (verify : Nat) (bad : Bool) : Nat := if verify ≠ 0 then verify else if bad then 7 else 0

/-- The work of a command whose checks passed; the answer is its code (R141). -/
def State.ckWork (s : State) (r : CkRun) : Nat × State :=
  let a := s.readWords busPort r.src r.len
  let ws := a.1
  if r.op = 1 then
    (if a.2.1 then 7 else 0,
     a.2.2.commonsWrite busPort (r.src + 8 * r.len) 8
       (checkWordOf (crc32c (wordsBytes ws)) r.len (if a.2.1 then 0 else 0x5C)))
  else
    let cw := a.2.2.commonsRead busPort (r.src + 8 * r.len) 8
    let code := ckCode (verifyCheck ws cw.1) (a.2.1 || cw.2.1)
    if r.op = 2 then (code, cw.2.2)
    else
      (code, (cw.2.2.writeWords busPort r.dst ws).commonsWrite busPort (r.dst + 8 * r.len) 8
        (checkWordOf (crc32c (wordsBytes ws)) r.len (if code = 0 then 0x5C else 0)))

/-- The end of a check-unit command (R141, R142): ERR, and event 52, or 53 with event 50 for a stage 2 failure. -/
def State.ckEnd (s : State) (k : Nat) (r : CkRun) (code : Nat) : State :=
  let s := s.setCmns { s.cmns with ck := NMap.set none s.cmns.ck k none }
  let s := (s.wr (R.CMNS_CKkCMD_BUSY k) 0).wr (R.CMNS_CKkCMD_ERR k) code
  let s := s.when (code == 5 || code == 6) (State.carriedFail · (r.src + 8 * r.len) 2 false)
  if code = 0 then s.raise 52 [r.core] false else s.raise 53 [r.core] true

/-- CHECK_UNIT_COMPLETE (R141, R142): the running command's accesses and its end. -/
def execCheckUnitComplete (k : Fin 4) (s : State) : Out :=
  .next (match NMap.get none s.cmns.ck k.val with
    | none => s
    | some r =>
      if r.code ≠ 0 then s.ckEnd k.val r r.code
      else
        let w := s.ckWork r
        w.2.ckEnd k.val r w.1)

/-- CK_SEAL (R141): a write of OP 1. -/
def execCkSeal (p : Port) (k : Fin 4) (s : State) : Out := .next (s.byCore p fun s => s.ckStart 1 k.val p.core.val)
/-- CK_VERIFY (R141): a write of OP 2. -/
def execCkVerify (p : Port) (k : Fin 4) (s : State) : Out := .next (s.byCore p fun s => s.ckStart 2 k.val p.core.val)
/-- CK_COPY (R141): a write of OP 3. -/
def execCkCopy (p : Port) (k : Fin 4) (s : State) : Out := .next (s.byCore p fun s => s.ckStart 3 k.val p.core.val)

end Sys2Proof.Machine
end

