-- ==== Sys2Proof/Machine/Crypto.lean ====
section
/-! DEFINITION. What the standards compute that the manual names: SHA-512 (R510), HMAC-SHA-512 (RFC 2104, R437, R529),
HKDF-SHA-512 (RFC 5869, R511), AES-256-GCM (R514, R529), and ECDSA over P-521 with the nonces of RFC 6979 (FIPS 186-5, R519).
The manual names the standards and does not print them (PRESUMED: notes/assumptions/44). -/

namespace Sys2Proof.Machine

/-! ## Bytes, most significant first (R523) -/

def beNat (bs : List Nat) : Nat := bs.foldl (fun n b => 256 * n + b % 256) 0
def beBytes (n v : Nat) : List Nat := (leBytes n v).reverse
def slice (bs : List Nat) (from' n : Nat) : List Nat := (bs.drop from').take n
def beAt (bs : List Nat) (from' n : Nat) : Nat := beNat (slice bs from' n)
def leAt (bs : List Nat) (from' n : Nat) : Nat := leNat (slice bs from' n)
def allZero (bs : List Nat) : Bool := bs.all (· == 0)
def xorBytes (xs ys : List Nat) : List Nat := List.zipWith (· ^^^ ·) xs ys

/-! ## SHA-512 -/

/-- The round constants: the first 64 bits of the fractional parts of the cube roots of the first 80 primes. -/
def shaRound : List Nat :=
  [0x428A2F98D728AE22, 0x7137449123EF65CD, 0xB5C0FBCFEC4D3B2F, 0xE9B5DBA58189DBBC]
    ++ [0x3956C25BF348B538, 0x59F111F1B605D019, 0x923F82A4AF194F9B, 0xAB1C5ED5DA6D8118]
    ++ [0xD807AA98A3030242, 0x12835B0145706FBE, 0x243185BE4EE4B28C, 0x550C7DC3D5FFB4E2]
    ++ [0x72BE5D74F27B896F, 0x80DEB1FE3B1696B1, 0x9BDC06A725C71235, 0xC19BF174CF692694]
    ++ [0xE49B69C19EF14AD2, 0xEFBE4786384F25E3, 0x0FC19DC68B8CD5B5, 0x240CA1CC77AC9C65]
    ++ [0x2DE92C6F592B0275, 0x4A7484AA6EA6E483, 0x5CB0A9DCBD41FBD4, 0x76F988DA831153B5]
    ++ [0x983E5152EE66DFAB, 0xA831C66D2DB43210, 0xB00327C898FB213F, 0xBF597FC7BEEF0EE4]
    ++ [0xC6E00BF33DA88FC2, 0xD5A79147930AA725, 0x06CA6351E003826F, 0x142929670A0E6E70]
    ++ [0x27B70A8546D22FFC, 0x2E1B21385C26C926, 0x4D2C6DFC5AC42AED, 0x53380D139D95B3DF]
    ++ [0x650A73548BAF63DE, 0x766A0ABB3C77B2A8, 0x81C2C92E47EDAEE6, 0x92722C851482353B]
    ++ [0xA2BFE8A14CF10364, 0xA81A664BBC423001, 0xC24B8B70D0F89791, 0xC76C51A30654BE30]
    ++ [0xD192E819D6EF5218, 0xD69906245565A910, 0xF40E35855771202A, 0x106AA07032BBD1B8]
    ++ [0x19A4C116B8D2D0C8, 0x1E376C085141AB53, 0x2748774CDF8EEB99, 0x34B0BCB5E19B48A8]
    ++ [0x391C0CB3C5C95A63, 0x4ED8AA4AE3418ACB, 0x5B9CCA4F7763E373, 0x682E6FF3D6B2B8A3]
    ++ [0x748F82EE5DEFB2FC, 0x78A5636F43172F60, 0x84C87814A1F0AB72, 0x8CC702081A6439EC]
    ++ [0x90BEFFFA23631E28, 0xA4506CEBDE82BDE9, 0xBEF9A3F7B2C67915, 0xC67178F2E372532B]
    ++ [0xCA273ECEEA26619C, 0xD186B8C721C0C207, 0xEADA7DD6CDE0EB1E, 0xF57D4F7FEE6ED178]
    ++ [0x06F067AA72176FBA, 0x0A637DC5A2C898A6, 0x113F9804BEF90DAE, 0x1B710B35131C471B]
    ++ [0x28DB77F523047D84, 0x32CAAB7B40C72493, 0x3C9EBE0A15C9BEBC, 0x431D67C49C100D4C]
    ++ [0x4CC5D4BECB3E42B6, 0x597F299CFC657E2A, 0x5FCB6FAB3AD6FAEC, 0x6C44198C4A475817]

/-- The initial hash words: the same of the square roots of the first 8 primes. -/
def shaInit : List Nat :=
  [0x6A09E667F3BCC908, 0xBB67AE8584CAA73B, 0x3C6EF372FE94F82B, 0xA54FF53A5F1D36F1]
    ++ [0x510E527FADE682D1, 0x9B05688C2B3E6C1F, 0x1F83D9ABFB41BD6B, 0x5BE0CD19137E2179]

def rotr64 (n x : Nat) : Nat := x / 2 ^ n ||| x * 2 ^ (64 - n) % 2 ^ 64

/-- The message schedule, newest word first, with n words still to come. -/
def shaSchedule : Nat → List Nat → List Nat
  | 0, w => w
  | n + 1, w =>
    let x := w.getD 1 0
    let y := w.getD 14 0
    let s1 := rotr64 19 x ^^^ rotr64 61 x ^^^ x / 2 ^ 6
    let s0 := rotr64 1 y ^^^ rotr64 8 y ^^^ y / 2 ^ 7
    shaSchedule n ((s1 + w.getD 6 0 + s0 + w.getD 15 0) % 2 ^ 64 :: w)

/-- One round on the eight working words, with its constant and its schedule word. -/
def shaStep (v : List Nat) (kw : Nat × Nat) : List Nat :=
  match v with
  | [a, b, c, d, e, f, g, h] =>
    let ch := (e &&& f) ^^^ ((2 ^ 64 - 1 ^^^ e) &&& g)
    let maj := (a &&& b) ^^^ (a &&& c) ^^^ (b &&& c)
    let t1 := h + (rotr64 14 e ^^^ rotr64 18 e ^^^ rotr64 41 e) + ch + kw.1 + kw.2
    let t2 := (rotr64 28 a ^^^ rotr64 34 a ^^^ rotr64 39 a) + maj
    [(t1 + t2) % 2 ^ 64, a, b, c, (d + t1) % 2 ^ 64, e, f, g]
  | _ => v

/-- The hash words after one block of 128 bytes. -/
def shaBlock (h block : List Nat) : List Nat :=
  let w := shaSchedule 64 ((List.range 16).map (fun i => beAt block (8 * i) 8)).reverse
  List.zipWith (fun x y => (x + y) % 2 ^ 64) h ((shaRound.zip w.reverse).foldl shaStep h)

/-- The hash words after n blocks. -/
def shaRun : Nat → List Nat → List Nat → List Nat
  | 0, h, _ => h
  | n + 1, h, bs => shaRun n (shaBlock h (bs.take 128)) (bs.drop 128)

/-- SHA-512 of bytes, as a number of 64 bytes. -/
@[irreducible] def sha512 (bs : List Nat) : Nat :=
  let m := bs ++ 0x80 :: List.replicate ((239 - bs.length % 128) % 128) 0 ++ beBytes 16 (8 * bs.length)
  (shaRun (m.length / 128) shaInit m).foldl (fun n w => 2 ^ 64 * n + w) 0

/-! ## HMAC and HKDF -/

/-- HMAC-SHA-512 under a key given as bytes (RFC 2104). -/
def hmacBytes (key bs : List Nat) : Nat :=
  let k := if 128 < key.length then beBytes 64 (sha512 key) else key
  let k := k ++ List.replicate (128 - k.length) 0
  sha512 (k.map (· ^^^ 0x5C) ++ beBytes 64 (sha512 (k.map (· ^^^ 0x36) ++ bs)))

/-- HMAC-SHA-512 under a key of 64 bytes (R514: TYPE 2). -/
def hmac512 (key : Nat) (bs : List Nat) : Nat := hmacBytes (beBytes 64 key) bs

/-- The bytes of HKDF-Expand: n blocks from the i-th on, after the block t. -/
def hkdfExpand (prk info : List Nat) : Nat → Nat → List Nat → List Nat
  | 0, _, _ => []
  | n + 1, i, t =>
    let u := beBytes 64 (hmacBytes prk (t ++ info ++ [i]))
    u ++ hkdfExpand prk info n (i + 1) u

/-- HKDF-SHA-512 (RFC 5869): l bytes from a salt, input key material and info. -/
def hkdf (l : Nat) (salt ikm info : List Nat) : Nat :=
  beNat ((hkdfExpand (beBytes 64 (hmacBytes salt ikm)) info ((l + 63) / 64) 1 []).take l)

/-! ## AES-256 and GCM -/

def aesSbox : List Nat :=
  [0x63, 0x7C, 0x77, 0x7B, 0xF2, 0x6B, 0x6F, 0xC5, 0x30, 0x01, 0x67, 0x2B, 0xFE, 0xD7, 0xAB, 0x76]
    ++ [0xCA, 0x82, 0xC9, 0x7D, 0xFA, 0x59, 0x47, 0xF0, 0xAD, 0xD4, 0xA2, 0xAF, 0x9C, 0xA4, 0x72, 0xC0]
    ++ [0xB7, 0xFD, 0x93, 0x26, 0x36, 0x3F, 0xF7, 0xCC, 0x34, 0xA5, 0xE5, 0xF1, 0x71, 0xD8, 0x31, 0x15]
    ++ [0x04, 0xC7, 0x23, 0xC3, 0x18, 0x96, 0x05, 0x9A, 0x07, 0x12, 0x80, 0xE2, 0xEB, 0x27, 0xB2, 0x75]
    ++ [0x09, 0x83, 0x2C, 0x1A, 0x1B, 0x6E, 0x5A, 0xA0, 0x52, 0x3B, 0xD6, 0xB3, 0x29, 0xE3, 0x2F, 0x84]
    ++ [0x53, 0xD1, 0x00, 0xED, 0x20, 0xFC, 0xB1, 0x5B, 0x6A, 0xCB, 0xBE, 0x39, 0x4A, 0x4C, 0x58, 0xCF]
    ++ [0xD0, 0xEF, 0xAA, 0xFB, 0x43, 0x4D, 0x33, 0x85, 0x45, 0xF9, 0x02, 0x7F, 0x50, 0x3C, 0x9F, 0xA8]
    ++ [0x51, 0xA3, 0x40, 0x8F, 0x92, 0x9D, 0x38, 0xF5, 0xBC, 0xB6, 0xDA, 0x21, 0x10, 0xFF, 0xF3, 0xD2]
    ++ [0xCD, 0x0C, 0x13, 0xEC, 0x5F, 0x97, 0x44, 0x17, 0xC4, 0xA7, 0x7E, 0x3D, 0x64, 0x5D, 0x19, 0x73]
    ++ [0x60, 0x81, 0x4F, 0xDC, 0x22, 0x2A, 0x90, 0x88, 0x46, 0xEE, 0xB8, 0x14, 0xDE, 0x5E, 0x0B, 0xDB]
    ++ [0xE0, 0x32, 0x3A, 0x0A, 0x49, 0x06, 0x24, 0x5C, 0xC2, 0xD3, 0xAC, 0x62, 0x91, 0x95, 0xE4, 0x79]
    ++ [0xE7, 0xC8, 0x37, 0x6D, 0x8D, 0xD5, 0x4E, 0xA9, 0x6C, 0x56, 0xF4, 0xEA, 0x65, 0x7A, 0xAE, 0x08]
    ++ [0xBA, 0x78, 0x25, 0x2E, 0x1C, 0xA6, 0xB4, 0xC6, 0xE8, 0xDD, 0x74, 0x1F, 0x4B, 0xBD, 0x8B, 0x8A]
    ++ [0x70, 0x3E, 0xB5, 0x66, 0x48, 0x03, 0xF6, 0x0E, 0x61, 0x35, 0x57, 0xB9, 0x86, 0xC1, 0x1D, 0x9E]
    ++ [0xE1, 0xF8, 0x98, 0x11, 0x69, 0xD9, 0x8E, 0x94, 0x9B, 0x1E, 0x87, 0xE9, 0xCE, 0x55, 0x28, 0xDF]
    ++ [0x8C, 0xA1, 0x89, 0x0D, 0xBF, 0xE6, 0x42, 0x68, 0x41, 0x99, 0x2D, 0x0F, 0xB0, 0x54, 0xBB, 0x16]

def subByte (b : Nat) : Nat := aesSbox.getD b 0
/-- Multiplication by x in the field of AES. -/
def xtime (b : Nat) : Nat := if 128 ≤ b then (2 * b) % 256 ^^^ 0x1B else 2 * b

def subWord (w : Nat) : Nat := beNat ((beBytes 4 w).map subByte)
/-- The round constant of the i-th key word group. -/
def aesRcon : Nat → Nat
  | 0 => 1
  | n + 1 => xtime (aesRcon n)

/-- The expanded key words, newest first, up to the 60th, with n still to come. -/
def aesExpand : Nat → List Nat → List Nat
  | 0, w => w
  | n + 1, w =>
    let i := w.length
    let t := w.getD 0 0
    let t := if i % 8 = 0 then subWord (t * 256 % 2 ^ 32 + t / 2 ^ 24) ^^^ aesRcon (i / 8 - 1) * 2 ^ 24
      else if i % 8 = 4 then subWord t else t
    aesExpand n ((w.getD 7 0 ^^^ t) :: w)

/-- The round keys of a 256-bit key, as bytes. -/
def aesKeys (key : Nat) : List Nat :=
  (aesExpand 52 ((List.range 8).map (fun i => beAt (beBytes 32 key) (4 * i) 4)).reverse).reverse.flatMap (beBytes 4)

def shiftRows (b : List Nat) : List Nat :=
  [0, 5, 10, 15, 4, 9, 14, 3, 8, 13, 2, 7, 12, 1, 6, 11].map (fun i => b.getD i 0)

def mixColumns : List Nat → List Nat
  | a :: b :: c :: d :: r =>
    let t := a ^^^ b ^^^ c ^^^ d
    (a ^^^ t ^^^ xtime (a ^^^ b)) :: (b ^^^ t ^^^ xtime (b ^^^ c)) :: (c ^^^ t ^^^ xtime (c ^^^ d))
      :: (d ^^^ t ^^^ xtime (d ^^^ a)) :: mixColumns r
  | _ => []

/-- AES-256 of one block of 16 bytes under expanded round keys. -/
def aesBlock (ks block : List Nat) : List Nat :=
  let b := (List.range 13).foldl (fun b r => xorBytes (mixColumns (shiftRows (b.map subByte))) (slice ks (16 * (r + 1)) 16))
    (xorBytes block (slice ks 0 16))
  xorBytes (shiftRows (b.map subByte)) (slice ks 224 16)

/-- The field multiplication of GHASH, over the n low bits of x, most significant first. -/
def ghashMul : Nat → Nat → Nat → Nat → Nat
  | 0, _, _, z => z
  | n + 1, x, v, z =>
    ghashMul n x (if v % 2 = 1 then v / 2 ^^^ 0xE1 * 2 ^ 120 else v / 2) (if x.testBit n then z ^^^ v else z)

/-- GHASH over n blocks of bytes, after y. -/
def ghash (h : Nat) : Nat → List Nat → Nat → Nat
  | 0, _, y => y
  | n + 1, bs, y => ghash h n (bs.drop 16) (ghashMul 128 (y ^^^ beAt bs 0 16) h 0)

def padBlock (bs : List Nat) : List Nat := bs ++ List.replicate ((16 - bs.length % 16) % 16) 0

/-- The key stream of AES-256-GCM for n bytes, under a nonce of 12 bytes. -/
def gcmStream (key nonce n : Nat) : List Nat :=
  let ks := aesKeys key
  ((List.range ((n + 15) / 16)).flatMap fun i => aesBlock ks (beBytes 12 nonce ++ beBytes 4 (i + 2))).take n

@[irreducible] def gcmCrypt (key nonce : Nat) (bs : List Nat) : List Nat := xorBytes bs (gcmStream key nonce bs.length)

/-- The tag over additional data and ciphertext. -/
@[irreducible] def gcmTag (key nonce : Nat) (aad text : List Nat) : Nat :=
  let ks := aesKeys key
  let h := beNat (aesBlock ks (List.replicate 16 0))
  let m := padBlock aad ++ padBlock text ++ beBytes 8 (8 * aad.length) ++ beBytes 8 (8 * text.length)
  ghash h (m.length / 16) m 0 ^^^ beNat (aesBlock ks (beBytes 12 nonce ++ beBytes 4 1))

/-! ## P-521 -/

def p521 : Nat := 2 ^ 521 - 1
/-- The order of the P-521 group. -/
def groupOrder : Nat :=
  0x1FFFFFFFFFFFFFFFFFFFFFFFFFFFFFFFFFFFFFFFFFFFFFFFFFFFFFFFFFFFFFFFFFA51868783BF2F966B7FCC0148F709A5D03BB5C9B8899C47AEBB6FB71E91386409
def curveB : Nat :=
  0x51953EB9618E1C9A1F929A21A0B68540EEA2DA725B99B315F3B8B489918EF109E156193951EC7E937B1652C0BD3BB1BF073573DF883D2C34F1EF451FD46B503F00
def basePoint : Nat × Nat :=
  (0xC6858E06B70404E9CD9E3ECB662395B4429C648139053FB521F828AF606B4D3DBAA14B5E77EFE75928FE1DC127A2FFA8DE3348B3C1856A429BF97E7E31C2E5BD66,
   0x11839296A789A3BC0045C8A5FB42C7D1BD998F54449579B446817AFBD17273E662C97EE72995EF42640C550B9013FAD0761353C7086A272C24088BE94769FD16650)

/-- b to the power of the n low bits of e, modulo m. -/
def powMod (m : Nat) : Nat → Nat → Nat → Nat
  | 0, _, _ => 1
  | n + 1, b, e =>
    let r := powMod m n (b * b % m) (e / 2)
    if e % 2 = 1 then b * r % m else r

/-- The inverse modulo an odd prime of 521 bits. -/
def invMod (m x : Nat) : Nat := powMod m 521 (x % m) (m - 2)

/-- x − y modulo the field's prime. -/
def subP (x y : Nat) : Nat := (x + p521 - y % p521) % p521

/-- The third point of a line of slope l through p, mirrored; x2 is the second point's abscissa. -/
def chord (l : Nat) (p : Nat × Nat) (x2 : Nat) : Nat × Nat :=
  let x := subP (l * l) (p.1 + x2)
  (x, subP (l * subP p.1 x) p.2)

/-- Addition on the curve; none is the point at infinity. -/
def addPoint (a b : Option (Nat × Nat)) : Option (Nat × Nat) :=
  match a, b with
  | none, q => q
  | p, none => p
  | some p, some q =>
    if p.1 = q.1 then
      if (p.2 + q.2) % p521 = 0 then none
      else some (chord (subP (3 * p.1 * p.1) 3 * invMod p521 (2 * p.2) % p521) p q.1)
    else some (chord (subP q.2 p.2 * invMod p521 (subP q.1 p.1) % p521) p q.1)

/-- The multiple of a point by the n low bits of k. -/
def mulPoint : Nat → Nat → Option (Nat × Nat) → Option (Nat × Nat)
  | 0, _, _ => none
  | n + 1, k, p =>
    let r := mulPoint n (k / 2) (addPoint p p)
    if k % 2 = 1 then addPoint p r else r

/-- The point of a public key of 133 bytes (R519), if it is one. -/
def pointOf (pub : List Nat) : Option (Nat × Nat) :=
  let x := beAt pub 1 66
  let y := beAt pub 67 66
  if pub.length = 133 ∧ beAt pub 0 1 = 4 ∧ x < p521 ∧ y < p521 ∧ y * y % p521 = (x * x * x + curveB + subP 0 (3 * x)) % p521 then
    some (x, y)
  else none

/-- The public key of a P-521 private key, 133 bytes (R519). -/
@[irreducible] def publicKey (key : Nat) : List Nat :=
  let p := (mulPoint 521 key (some basePoint)).getD (0, 0)
  4 :: (beBytes 66 p.1 ++ beBytes 66 p.2)

/-- The X coordinate of a private key times a public key (R525); the manual states none for bytes that are no point of the curve. -/
@[irreducible] def sharedX (key : Nat) (pub : List Nat) : Nat :=
  match pointOf pub with
  | some p => ((mulPoint 521 key (some p)).getD (0, 0)).1
  | none => Config.freeFun 109 (key :: pub) % 2 ^ 528

/-- One attempt of RFC 6979 at a nonce: K and V, with r and s if they are fit; n attempts are left. -/
def ecdsaTry (key e : Nat) : Nat → List Nat → List Nat → Nat × Nat
  | 0, _, _ => (0, 0)
  | n + 1, k, v =>
    let v1 := beBytes 64 (hmacBytes k v)
    let v2 := beBytes 64 (hmacBytes k v1)
    let c := beNat (v1 ++ v2) / 2 ^ 503
    let r := ((mulPoint 521 c (some basePoint)).getD (0, 0)).1 % groupOrder
    let x := invMod groupOrder c * (e + r * key) % groupOrder
    if 0 < c ∧ c < groupOrder ∧ r ≠ 0 ∧ x ≠ 0 then (r, x)
    else
      let k := beBytes 64 (hmacBytes k (v2 ++ [0]))
      ecdsaTry key e n k (beBytes 64 (hmacBytes k v2))

/-- The ECDSA signature of bytes, 132 bytes (R519). -/
@[irreducible] def ecdsaSign (key : Nat) (bs : List Nat) : List Nat :=
  let e := sha512 bs
  let seed := beBytes 66 key ++ beBytes 66 e
  let v := List.replicate 64 1
  let k := beBytes 64 (hmacBytes (List.replicate 64 0) (v ++ [0] ++ seed))
  let v := beBytes 64 (hmacBytes k v)
  let k := beBytes 64 (hmacBytes k (v ++ [1] ++ seed))
  let q := ecdsaTry key e 64 k (beBytes 64 (hmacBytes k v))
  beBytes 66 q.1 ++ beBytes 66 q.2

/-- Does a signature of 132 bytes verify under a public key of 133 bytes (R519)? -/
@[irreducible] def ecdsaVerify (pub bs sig : List Nat) : Bool :=
  let r := beAt sig 0 66
  let x := beAt sig 66 66
  match pointOf pub with
  | none => false
  | some p =>
    let w := invMod groupOrder x
    let q := addPoint (mulPoint 521 (sha512 bs * w % groupOrder) (some basePoint))
      (mulPoint 521 (r * w % groupOrder) (some p))
    sig.length == 132 && decide (0 < r) && decide (r < groupOrder) && decide (0 < x) && decide (x < groupOrder)
      && (match q with
          | some c => c.1 % groupOrder == r
          | none => false)

/-- The module's root (R508). -/
def rootKey : Nat := Config.freeFun 90 [] % 2 ^ 256

end Sys2Proof.Machine
end

