-- ==== Sys2Proof/Machine/Control.lean ====
section
/-! DEFINITION. Control transfer: branches, jumps, calls, returns and hardware loops (R66 to R69, R82, R102 to R106). -/

namespace Sys2Proof.Machine

/-- A trap an instruction meets: its cause and the address recorded. -/
abbrev Cand := Nat × Option Nat

/-- The trap with the lowest code takes precedence (R73). -/
def firstTrap : List Cand → Option Cand
  | [] => none
  | a :: r => match firstTrap r with
    | none => some a
    | some b => if b.1 < a.1 then some b else some a

/-- Trap with the first candidate, or complete. -/
def trapOr (cs : List Cand) (c : CoreS) (cost : Nat) : Eff :=
  match firstTrap cs with
  | some t => .trap t.1 t.2
  | none => .done c cost

/-- A candidate where a condition holds. -/
def candIf (b : Bool) (cause : Nat) (fa : Option Nat) : List Cand := if b then [(cause, fa)] else []

/-- A transfer as the last body word of an active loop opened at the present depth (R105). -/
def loopEndCand (c : CoreS) : List Cand := candIf c.atLoopEnd 4 none

/-- Loops closed by a forward transfer to t: every loop opened at depth d whose body t lies outside, with every loop
inside it (R68). The list is innermost first. -/
def closeLoops (t d : Nat) : List LoopEnt → List LoopEnt
  | [] => []
  | e :: r =>
    let r' := closeLoops t d r
    if r'.length < r.length then r'
    else if e.depth == d && !(decide (e.first ≤ t) && decide (t ≤ e.last)) then r'
    else e :: r

/-- A backward target is legal when it is the first body word of the innermost active loop, opened at the present call
depth (R67). -/
def legalBack (c : CoreS) (t : Int) : Bool :=
  match c.lstack with
  | [] => false
  | e :: _ => decide ((e.first : Int) = t) && e.depth == c.rstack.length

/-- The end of an iteration by a legal backward transfer: as if the last body word had executed (R67). -/
def endIteration (c : CoreS) : Nat × List LoopEnt :=
  match c.lstack with
  | [] => (c.pc + 4, [])
  | e :: r => stepPast e.last c.rstack.length (e :: r)

/-- A taken branch or jump to t, with the candidates already met (R67, R68, R102, R103). A legal backward transfer that ends the
last iteration of a loop whose last word is 0xFFFC would run past it: it meets cause 2 at the transfer (DEDUCED from R82, which
speaks of the word at 0xFFFC: notes/assumptions/15). -/
def jumpTo (c : CoreS) (t : Int) (cs : List Cand) : Eff :=
  if t ≤ c.pc then
    if legalBack c t then
      let r := endIteration c
      trapOr (cs ++ candIf (decide (0xFFFC < r.1)) 2 none) { c with pc := r.1, lstack := r.2 } 2
    else trapOr (cs ++ [(3, none)]) c 2
  else
    trapOr (cs ++ candIf (decide ((0xFFFC : Int) < t)) 8 (some (patternOf 32 t)))
      { c with pc := t.toNat, lstack := closeLoops t.toNat c.rstack.length c.lstack } 2

/-- A control transfer runs in the frame of every instruction, with its own step to the next instruction. -/
def State.runXfer (s : State) (i : Issue) (legal : Bool) (f : CoreS → Eff) : State :=
  s.runInstr i legal fun s c => s.settle i.core.val (f c)

/-- B (R102): taken when its condition holds, to its own address plus 4 × sext(off16). -/
def execB (i : Issue) (cond : BitVec 4) (ra : BitVec 6) (off : BitVec 16) (s : State) : Out :=
  .next (s.runXfer i (cond == 15 || ra == 0) fun c =>
    if c.cond cond.toNat ra.toNat then jumpTo c (c.pc + 4 * off.toInt) (loopEndCand c)
    else trapOr (loopEndCand c ++ candIf c.runsOut 2 none) c.advance 1)

/-- The candidate of a call with the return stack full (R69). -/
def callCand (c : CoreS) : List Cand := candIf (decide (16 ≤ c.rstack.length)) 5 none

/-- CALL (R103): push address + 4 and go to 4 × imm20[13:0]. -/
def execCall (i : Issue) (rd : BitVec 6) (imm : BitVec 20) (s : State) : Out :=
  .next (s.runXfer i (rd == 0 && decide (imm.toNat < 16384)) fun c =>
    trapOr (loopEndCand c ++ callCand c) { c with pc := 4 * imm.toNat, rstack := (c.pc + 4) :: c.rstack } 2)

/-- The candidate of a register target that is not word-aligned (R103). -/
def alignCand (t : Nat) : List Cand := candIf (t % 4 != 0) 7 (some t)

/-- JR (R103): go to ra, under R67 and R68. -/
def execJr (i : Issue) (rd ra rb : BitVec 6) (s : State) : Out :=
  .next (s.runXfer i (rd == 0 && rb == 0) fun c =>
    jumpTo c (c.regN ra.toNat : Nat) (loopEndCand c ++ alignCand (c.regN ra.toNat)))

/-- CALLR (R103): push address + 4 and go to ra. -/
def execCallr (i : Issue) (rd ra rb : BitVec 6) (s : State) : Out :=
  .next (s.runXfer i (rd == 0 && rb == 0) fun c =>
    let t := c.regN ra.toNat
    trapOr (loopEndCand c ++ callCand c ++ alignCand t ++ candIf (decide (0xFFFC < t)) 8 (some t))
      { c with pc := t, rstack := (c.pc + 4) :: c.rstack } 2)

/-- RET closes every loop opened at the present call depth (R68). -/
def dropDepth (d : Nat) : List LoopEnt → List LoopEnt
  | [] => []
  | e :: r => if e.depth == d then dropDepth d r else e :: r

/-- RET (R103): pop and go to the popped address; an address above 0xFFFC stays on the stack and traps. -/
def execRet (i : Issue) (rd ra rb : BitVec 6) (s : State) : Out :=
  .next (s.runXfer i (rd == 0 && ra == 0 && rb == 0) fun c =>
    match c.rstack with
    | [] => trapOr (loopEndCand c ++ [(6, none)]) c 2
    | a :: r =>
      trapOr (loopEndCand c ++ candIf (decide (0xFFFC < a)) 8 (some a))
        { c with pc := a, rstack := r, lstack := dropDepth c.rstack.length c.lstack } 2)

/-- The last word of the innermost loop opened at the present call depth, if any (R105). -/
def innerLast (c : CoreS) : Option Nat := (c.lstack.find? (fun e => e.depth == c.rstack.length)).map LoopEnt.last

/-- LOOP opens a loop (R66, R104, R105): the loop-limit trap on a count of 0 or above 65,536, a full loop stack, a body
past 0xFFFC or past the enclosing loop of the same depth, or as the last word of an active body. -/
def openLoop (c : CoreS) (count len : Nat) : Eff :=
  let last := c.pc + 4 * len
  let ovr := match innerLast c with
    | none => false
    | some l => decide (l < last)
  if c.atLoopEnd || count == 0 || decide (65536 < count) || decide (4 ≤ c.lstack.length) || decide (0xFFFC < last) || ovr
  then .trap 4 none
  else .done { c with pc := c.pc + 4, lstack := ⟨c.pc + 4, last, count, c.rstack.length⟩ :: c.lstack } 1

/-- LOOP (R104): R = 0 takes the count [24:10] + 1; R = 1 takes the register named in [24:19], and [18:10] must be 0. It is no
transfer, so at 0xFFFC it meets the illegal-instruction trap of R82 first. -/
def execLoop (i : Issue) (r : BitVec 1) (mid : BitVec 15) (len : BitVec 10) (s : State) : Out :=
  .next (s.runXfer i (r == 0 || bitsOf mid.toNat 8 0 == 0) fun c =>
    if c.runsOut then .trap 2 none
    else openLoop c (if r == 0 then mid.toNat + 1 else c.regN (bitsOf mid.toNat 14 9)) (len.toNat + 1))

/-- TRAP (R119): the program trap, with sel14 recorded as its address; rd and ra must be 0. At 0xFFFC it meets the
illegal-instruction trap of R82 first. -/
def execTrap (i : Issue) (rd ra : BitVec 6) (sel : BitVec 14) (s : State) : Out :=
  .next (s.runLocal i (rd == 0 && ra == 0) fun _ => .trap 11 (some sel.toNat))

end Sys2Proof.Machine
end

