-- ==== Sys2Proof/Machine/Stack.lean ====
section
/-! DEFINITION. Own local data memory with its error handling, and the data stack (R61, R63, R65, R96). -/

namespace Sys2Proof.Machine

def localBase : Nat := 0x08000000

/-- Does an access of n bytes at a device address lie in own local data (R64)? -/
def inLocal (a n : Nat) : Bool := decide (localBase ≤ a) && decide (a + n ≤ localBase + 0x10000)

/-- The 32-bit words of local data an access touches. -/
def localWords (off n : Nat) : List Nat := (List.range ((n + 3) / 4)).map (off / 4 + ·)

/-- An access meets an uncorrectable word (R63). -/
def CoreS.dmemBad (c : CoreS) (off n : Nat) : Bool :=
  (localWords off n).any fun w => NMap.get .clean c.dmemErr w == .double || NMap.get .clean c.dmemErr w == .poisoned

/-- How many corrected errors an access meets (R63). -/
def CoreS.dmemSingles (c : CoreS) (off n : Nat) : Nat :=
  ((localWords off n).filter fun w => NMap.get .clean c.dmemErr w == .single).length

/-- The words of an access made sound: by the write-back of corrected data or by fresh data (R63). -/
def CoreS.dmemSound (c : CoreS) (off n : Nat) : CoreS :=
  { c with dmemErr := (localWords off n).foldl (fun m w => NMap.set .clean m w .clean) c.dmemErr }

/-- A load from own local data: the value and the core after the write-back of corrected words. -/
def CoreS.dload (c : CoreS) (off n : Nat) : Nat × CoreS := (memRead c.dmem off n, c.dmemSound off n)

/-- A store to own local data; the words it touches are sound afterwards (R63). -/
def CoreS.dstore (c : CoreS) (off n v : Nat) : CoreS :=
  { (c.dmemSound off n) with dmem := memWrite c.dmem off n v }

/-- Count corrected local-memory errors (R63). -/
def State.countEcc (s : State) (p n : Nat) : State := if n = 0 then s else s.incBy (R.CORE_nCNT_ECCCOR p) n

/-- The traps of an access to own local data by a stack operation (R65, R96), with the error of a load (R63). -/
def stackCands (c : CoreS) (a n : Nat) (load : Bool) : List Cand :=
  candIf c.runsOut 2 none ++ candIf (a % n != 0) 7 (some a) ++ candIf (!inLocal a n) 8 (some a)
    ++ candIf (load && inLocal a n && a % n == 0 && c.dmemBad (a - localBase) n) 1 (some a)

/-- Push n bytes: w63 falls by n and v is stored there (R96). -/
def State.pushN (s : State) (i : Issue) (legal : Bool) (n : Nat) (v : CoreS → Nat) : State :=
  s.runInstr i legal fun s c =>
    let a := (c.reg 63 - BitVec.ofNat 32 n).toNat
    s.settle i.core.val (trapOr (stackCands c a n false)
      ((c.dstore (a - localBase) n (v c)).setRegN 63 a).advance 1)

/-- Pop n bytes from w63, which rises by n; the loaded value stays where the destination is w63 (R96). -/
def State.popN (s : State) (i : Issue) (legal : Bool) (n : Nat) (put : CoreS → Nat → CoreS) : State :=
  s.runInstr i legal fun s c =>
    let a := c.regN 63
    let off := a - localBase
    let r := c.dload off n
    match firstTrap (stackCands c a n true) with
    | some t => s.enterTrap i.core.val t.1 t.2
    | none => (s.finish i.core.val (put (r.2.setReg 63 (c.reg 63 + BitVec.ofNat 32 n)) r.1) 2).countEcc i.core.val
        (c.dmemSingles off n)

/-- PUSH (R96): w63 = w63 − 4; store ra at w63. -/
def execPush (i : Issue) (rd ra rb : BitVec 6) (s : State) : Host.Outcome State Fault Refusal :=
  .next (s.pushN i (rd == 0 && rb == 0) 4 fun c => c.regN ra.toNat)

/-- POP (R96): load rd from w63; w63 = w63 + 4. -/
def execPop (i : Issue) (rd ra rb : BitVec 6) (s : State) : Host.Outcome State Fault Refusal :=
  .next (s.popN i (ra == 0 && rb == 0) 4 fun c v => c.setRegN rd.toNat v)

/-- PUSHD (R96): w63 = w63 − 8; store pair ra at w63. -/
def execPushd (i : Issue) (rd ra rb : BitVec 6) (s : State) : Host.Outcome State Fault Refusal :=
  .next (s.pushN i (rd == 0 && rb == 0 && isPair ra) 8 fun c => (c.pair ra.toNat).toNat)

/-- POPD (R96): load pair rd from w63; w63 = w63 + 8. -/
def execPopd (i : Issue) (rd ra rb : BitVec 6) (s : State) : Host.Outcome State Fault Refusal :=
  .next (s.popN i (ra == 0 && rb == 0 && isPair rd) 8 fun c v => c.setPair rd.toNat (BitVec.ofNat 64 v))

end Sys2Proof.Machine
end

