-- ==== Sys2Proof/Machine/EventInstr.lean ====
section
/-! DEFINITION. The block instructions on events, posts and the scoreboard: SLACK, PUB, TAKE, EVT, EVWAIT, EVGET, with
the ends of their waits (R107 to R114). -/

namespace Sys2Proof.Machine

/-- An instruction that acts outside its core and does not transfer: the R82 check, then the body. -/
def State.runBlock (s : State) (i : Issue) (legal : Bool) (body : State → CoreS → State) : State :=
  s.runInstr i legal fun s c => if c.runsOut then s.enterTrap i.core.val 2 none else body s c

/-- A write leaves the core, and has its effect in that cycle. On a checked core it is held 2 cycles, a stop-class event that reaches the core before it leaves
discards it (R79), and the shadow checker may disagree (R48, R49). -/
def State.release (s : State) (i : Issue) (body : State → State) : State :=
  if isChecked i.core.val && s.stopBy i.core.val (s.now + 1) then s
  else if isChecked i.core.val && i.chk then (s.setCycle (i.cyc + 2)).checkMismatch i.core.val
  else body (s.setCycle (i.cyc + holdCost i))

/-! ## SLACK, PUB, TAKE -/

/-- SLACK (R108): the value of R31; ra and sel14 must be 0. -/
def execSlack (i : Issue) (rd ra : BitVec 6) (sel : BitVec 14) (s : State) : Out :=
  .next (s.runBlock i (ra == 0 && sel == 0) fun s c => s.finish i.core.val (c.setRegN rd.toNat (s.slackOf c)) 1)

/-- The data words of a post in own local data after its header. -/
def postWords (m : NMap Byte) (off : Nat) : Nat → List Nat
  | 0 => []
  | n + 1 => memRead m off 8 :: postWords m (off + 8) n

/-- A post leaves the core and is checked in that cycle (R109, R32): its status goes to rd. -/
def State.leavePost (s : State) (p rd : Nat) (post : Post) (extra : Nat) : State :=
  let c := s.core p
  let r := s.post (s.dutyOf p) { post with late := s.jobLate c }
  let cost := (if r.1 = 0 then 3 + post.data.length else 2) + extra
  r.2.setCore p { (c.setRegN rd r.1).advance with cost := cost, wait := .none }

/-- The cycle in which a post would leave (R109). -/
def leaveCycle (i : Issue) : Nat := i.cyc + holdCost i

/-- PUB's traps: a header or data word outside own local data, a misaligned header, an uncorrectable word (R109, R63). The data
address recorded is the header's, whichever word it is (R71 names no other; DEDUCED: notes/assumptions/15). -/
def pubCands (c : CoreS) (a n : Nat) : List Cand :=
  candIf (a % 8 != 0) 7 (some a) ++ candIf (!inLocal a (8 * (n + 1))) 8 (some a)
    ++ candIf (a % 8 == 0 && inLocal a (8 * (n + 1)) && c.dmemBad (a - localBase) (8 * (n + 1))) 1 (some a)
    ++ candIf c.runsOut 2 none

/-- PUB (R109): post from own local data; sel14 must be 0. A post that cannot leave in its tick waits for cycle 0 of the
next; on a checked core it leaves 2 cycles after the cycle in which an unchecked core would let it leave, if it then can. -/
def execPub (i : Issue) (rd ra : BitVec 6) (sel : BitVec 14) (s : State) : Out :=
  .next (s.runInstr i (sel == 0) fun s c =>
    let p := i.core.val
    let a := c.regN ra.toNat
    let off := a - localBase
    let hdr := if inLocal a 8 then memRead c.dmem off 8 else 0
    let n := bitsOf hdr 28 20
    match firstTrap (pubCands c a n) with
    | some t => s.enterTrap p t.1 t.2
    | none =>
      let s := s.countEcc p (c.dmemSingles off (8 * (n + 1)))
      let c := c.dmemSound off (8 * (n + 1))
      let post : Post := ⟨bitsOf hdr 17 0, postWords c.dmem (off + 8) n, false⟩
      let s := s.setCore p c
      if leaveCycle i + n ≤ 59998 ∨ s.phase = .setup then
        s.release i fun s => s.leavePost p rd.toNat post (holdCost i)
      else
        let cyc := if i.cyc + n ≤ 59998 then 0 else holdCost i
        s.setCore p { c with wait := .post rd.toNat post cyc i.chk })

/-- PUB_DEFERRED_LEAVE (R109): a held post leaves in cycle 0 of the tick, or in cycle 2; its shadow checker may disagree (R49). -/
def execPubDeferredLeave (core : Fin 16) (s : State) : Out :=
  .next (match (s.core core.val).wait with
    | .post rd post cyc chk =>
      let s := s.atCycle cyc
      if (s.core core.val).wait == .none then s
      else if isChecked core.val && chk then s.checkMismatch core.val
      else s.noteBegan core.val (s.leavePost core.val rd post (if isChecked core.val then 2 else 0))
    | _ => s)

/-- TAKE (R110): scoreboard word ra + sel14 to pair rd, its stamp to pair rd + 2. The sum is not reduced modulo 2^32, so one past
it traps (DEDUCED: notes/assumptions/15). -/
def execTake (i : Issue) (rd ra : BitVec 6) (sel : BitVec 14) (s : State) : Out :=
  .next (s.runBlock i (rd.toNat % 4 == 0) fun s c =>
    let k := c.regN ra.toNat + sel.toNat
    if Config.sbWords ≤ k then s.enterTrap i.core.val 8 (some (0x0C000000 + 8 * k))
    else s.finish i.core.val
      ((c.setPair rd.toNat (s.sbAt k).val).setPair (rd.toNat + 2) (BitVec.ofNat 64 (s.stamp k))) 5)

/-! ## Events -/

/-- EVT (R112): raise software event 16 + sel14[3:0] to the duties of ra[15:0]; sel14[13:4] and rd must be 0. -/
def execEvt (i : Issue) (rd ra : BitVec 6) (sel : BitVec 14) (s : State) : Out :=
  .next (s.runBlock i (rd == 0 && decide (sel.toNat < 16)) fun s c =>
    s.release i fun s =>
      let ds := (List.range 16).filter (fun d => (c.reg ra.toNat).getLsbD d)
      (s.finish i.core.val c (1 + holdCost i)).raise (16 + sel.toNat) ds false)

/-- The mask words of a duty (R81). -/
def State.eventMasks (s : State) (d : Nat) : List Word := (List.range 8).map fun w => s.word (R.EVNT_nMASKw d w)

/-- The lowest pending event of a duty that the masks select (R78). -/
def State.lowestOf (s : State) (d : Nat) (masks : List Word) : Option Nat :=
  (List.range 8).findSome? fun w =>
    let m := s.word (R.EVNT_nPENDw d w) &&& masks.getD w 0
    if m = 0 then none else ((List.range 32).find? (fun b => m.getLsbD b)).map (32 * w + ·)

/-- The lowest pending event of a duty that its mask selects (R78). -/
def State.lowestEvent (s : State) (d : Nat) : Option Nat := s.lowestOf d (s.eventMasks d)

/-- A waiting core goes on: rd takes the result and the instruction ends (R113, R116). -/
def State.endWait (s : State) (p rd v : Nat) : State :=
  s.setCore p { ((s.core p).setRegN rd v).advance with wait := .none }

/-- EVWAIT (R113): return the lowest masked pending event, or wait for one with the limit of ra; sel14 must be 0. -/
def execEvwait (i : Issue) (rd ra : BitVec 6) (sel : BitVec 14) (s : State) : Out :=
  .next (s.runBlock i (sel == 0) fun s c =>
    match s.lowestEvent (s.dutyOf i.core.val) with
    | some e => s.finish i.core.val (c.setRegN rd.toNat e) 1
    | none => s.setCore i.core.val
        { c with
          wait := .event rd.toNat (if c.reg ra.toNat = 0 then none else some (s.now + c.regN ra.toNat))
            (s.eventMasks (s.dutyOf i.core.val)) })

/-- Everything due before a cycle has arrived. -/
def State.beforeCycle (s : State) (c : Nat) : State := if c = 0 then s.setCycle 0 else s.atCycle (c - 1)

/-- EVWAIT_RESUME (R113): the wait ends in the cycle after a masked pending bit is set, within the limit. -/
def execEvwaitResume (core : Fin 16) (cyc : Nat) (s : State) : Out :=
  .next (match (s.core core.val).wait with
    | .event rd limit masks =>
      let s' := s.beforeCycle cyc
      match s'.lowestOf (s'.dutyOf core.val) masks with
      | some e =>
        if (s'.core core.val).wait != .none && limit.all (fun l => decide ((s'.setCycle cyc).now ≤ l + 1)) then
          (s'.endWait core.val rd e).atCycle cyc
        else s
      | none => s
    | _ => s)

/-- EVWAIT_TIMEOUT (R113): the limit has run out with no masked event pending by its last cycle; rd = 0x100. -/
def execEvwaitTimeout (core : Fin 16) (cyc : Nat) (s : State) : Out :=
  .next (match (s.core core.val).wait with
    | .event rd (some l) masks =>
      let s' := s.beforeCycle cyc
      if decide (l < (s'.setCycle cyc).now) && (s'.core core.val).wait != .none
          && (s'.lowestOf (s'.dutyOf core.val) masks).isNone then
        (s'.endWait core.val rd 0x100).atCycle cyc
      else s
    | _ => s)

/-- EVGET's field rules (R114). -/
def evgetLegal (ra : BitVec 6) (sel : BitVec 14) : Bool :=
  let num := bitsOf sel.toNat 7 0
  let nreg := sel.getLsbD 9
  bitsOf sel.toNat 13 11 == 0 &&
    (if sel.getLsbD 8 then (if nreg then num == 0 else ra == 0) else !nreg && num == 0 && ra == 0)

/-- EVGET of one event: its number, NONE and overflow bit; the pending bit clears, and with OCLR the overflow bit. A raise that
arrives in the same cycle leaves the pending bit set and the overflow bit as it was (R74). -/
def State.getEvent (s : State) (p rd e : Nat) (oclr : Bool) : State :=
  let d := s.dutyOf p
  let a := NMap.get 0 s.evAt (256 * d + e)
  let o := if a / 2 == s.now then a % 2 == 1 else s.rdBit (ovfBit d e)
  let v := e + 256 * b2n (!s.rdBit (pendBit d e)) + 512 * b2n o
  let s := if a / 2 == s.now then s.wrBit (ovfBit d e) o else s.wr (pendBit d e) 0
  let s := if oclr then s.wr (ovfBit d e) 0 else s
  s.finish p ((s.core p).setRegN rd v) 1

/-- EVGET (R114): the lowest pending masked event, or the named one. -/
def execEvget (i : Issue) (rd ra : BitVec 6) (sel : BitVec 14) (s : State) : Out :=
  .next (s.runBlock i (evgetLegal ra sel) fun s c =>
    let p := i.core.val
    let oclr := sel.getLsbD 10
    if sel.getLsbD 8 then
      s.getEvent p rd.toNat (if sel.getLsbD 9 then c.regN ra.toNat % 256 else bitsOf sel.toNat 7 0) oclr
    else match s.lowestEvent (s.dutyOf p) with
      | some e => s.getEvent p rd.toNat e oclr
      | none => s.finish p (c.setRegN rd.toNat 0x100) 1)

end Sys2Proof.Machine
end

