-- ==== Sys2Proof/Machine/Trust.lean ====
section
/-! DEFINITION. The trust core (19_keys_and_trust; TRUST of R117): measurements, derivation, the working key, key slots,
signed commands and requests. -/

namespace Sys2Proof.Machine

def trustPort : Nat := 22

def State.setTrst (s : State) (t : TrstS) : State := { s with trst := t }

/-! ## Measurements and derivation (R510, R511) -/

def State.mr (s : State) (k : Nat) : Nat := NMap.get 0 s.trst.mr k
/-- Extending MRk with data (R510). -/
def State.extendMr (s : State) (k : Nat) (d : List Nat) : State :=
  let v := sha512 (beBytes 64 (s.mr k) ++ beBytes 64 (sha512 d))
  s.setTrst { s.trst with mr := NMap.set 0 s.trst.mr k v }

/-- The salt of a measurement mask (R511). -/
def State.mrSalt (s : State) (mask : Nat) : Nat :=
  if mask = 0 then 0
  else sha512 (((List.range 8).filter mask.testBit).flatMap (fun k => beBytes 64 (s.mr k)))

/-- A private key from 80 bytes of output (R511). -/
def privateOf (c : Nat) : Nat := c % (groupOrder - 1) + 1

/-- A derived key of a type (R511). -/
def State.deriveKey (s : State) (typ mask : Nat) (ctx : List Nat) : Nat :=
  let okm (l : Nat) := hkdf l (beBytes 64 (s.mrSalt mask)) (beBytes 32 rootKey) (ctx ++ [mask])
  if typ = 1 then okm 32 else if typ = 2 then okm 64 else privateOf (okm 80)

/-- The wrapping key of a slot (R514): the context is "slot" and the slot number. -/
def State.wrapKey (s : State) (slot bind : Nat) : Nat := s.deriveKey 1 bind [115, 108, 111, 116, slot]

/-- "identity" and "transport" (R521). -/
def identityInfo : List Nat := [105, 100, 101, 110, 116, 105, 116, 121]
def transportInfo : List Nat := [116, 114, 97, 110, 115, 112, 111, 114, 116]
def State.identityKey (s : State) : Nat := privateOf (hkdf 80 (beBytes 64 s.trst.enonce) (beBytes 32 rootKey) identityInfo)
def State.transportKey (s : State) : Nat := privateOf (hkdf 80 (beBytes 64 s.trst.enonce) (beBytes 32 rootKey) transportInfo)
def State.identityPub (s : State) : List Nat := publicKey s.identityKey
/-- The identity hash: the first 32 bytes of the digest (R519). -/
def State.identityHash (s : State) : Nat := sha512 s.identityPub / 2 ^ 256

def State.rootOk (s : State) : Bool := s.rdBit R.TRST_STAT_ROOTOK

/-! ## The working key register (R512, R513) -/

/-- What the block shows of its queue, its working key and its owner (R533). -/
def State.showTrust (s : State) : State :=
  let t := s.trst
  let s := (s.wr R.TRST_STAT_NREQ t.queue.length).wrBit R.TRST_STAT_BUSY (!t.queue.isEmpty)
  let s := (s.wrBit R.TRST_STAT_KVALID t.work.isSome).wr R.TRST_STAT_KTYPE (t.work.elim 0 WorkKey.typ)
  let s := (s.wr R.TRST_STAT_LOADID (t.work.elim 0 WorkKey.loadid)).wrBit R.TRST_STAT_ENROL (!t.owner.isEmpty)
  (s.wr R.TRST_CSEQLO_CSEQ t.cseq).wr R.TRST_CSEQHI_CSEQ (t.cseq / 2 ^ 32)

/-- Replace or empty the working key (R512): event 234 goes to the core that loaded the previous key. -/
def State.setWork (s : State) (w : Option WorkKey) : State :=
  let old := s.trst.work
  let s := (s.setTrst { s.trst with work := w }).showTrust
  match old with
  | none => s
  | some k => s.raise 234 [k.duty] false

/-! ## Key slots (R514 to R518) -/

def State.slotCopy (s : State) (i : Nat) : SlotCopy := NMap.get SlotCopy.zero s.trst.slots i
def State.setCopy (s : State) (i : Nat) (c : SlotCopy) : State :=
  s.setTrst { s.trst with slots := NMap.set SlotCopy.zero s.trst.slots i c }

/-- Is a copy valid (R515): GCHK, GEN and the tag under the present wrapping key? -/
def State.copyValid (s : State) (slot : Nat) (c : SlotCopy) : Bool :=
  !c.torn && c.gen != 0 && c.wrap == s.wrapKey slot c.bind

/-- The chosen copy of a slot: the valid one with the greater GEN, or A. -/
def State.chosenCopy (s : State) (slot : Nat) : Option Nat :=
  let a := s.slotCopy (2 * slot)
  let b := s.slotCopy (2 * slot + 1)
  if s.copyValid slot a && (!s.copyValid slot b || decide (b.gen ≤ a.gen)) then some 0
  else if s.copyValid slot b then some 1 else none

/-- Show a slot's state (R515, R533). -/
def State.showSlot (s : State) (slot : Nat) : State :=
  match s.chosenCopy slot with
  | some k =>
    let c := s.slotCopy (2 * slot + k)
    let s := (s.wr (R.TRST_SLOTs_STATE slot) (if c.typ = 0 then 0 else 1)).wr (R.TRST_SLOTs_COPY slot) k
    let s := (s.wr (R.TRST_SLOTs_TYPE slot) c.typ).wr (R.TRST_SLOTs_BIND slot) c.bind
    (s.wr (R.TRST_SLOTs_USE slot) c.use).wr (R.TRST_SLOTs_GENLO slot) c.gen
  | none =>
    let bad := !(s.slotCopy (2 * slot) == SlotCopy.zero && s.slotCopy (2 * slot + 1) == SlotCopy.zero)
    s.setWord (R.TRST_SLOTs slot) (if bad then 2 else 0)

/-- A copy older than a valid tombstone of its slot is overwritten with zeros at kick-off (R517). -/
def State.buryCopies (s : State) (slot : Nat) : State :=
  let a := s.slotCopy (2 * slot)
  let b := s.slotCopy (2 * slot + 1)
  let s := s.when (s.copyValid slot a && a.typ == 0 && decide (b.gen < a.gen)) (State.setCopy · (2 * slot + 1) SlotCopy.zero)
  s.when (s.copyValid slot b && b.typ == 0 && decide (a.gen < b.gen)) (State.setCopy · (2 * slot) SlotCopy.zero)

/-- The examination of one slot at kick-off (R515). -/
def State.examineSlot (s : State) (slot : Nat) : State :=
  let s := (s.buryCopies slot).showSlot slot
  if s.rd (R.TRST_SLOTs_STATE slot) = 2 then
    (s.inc R.TRST_CNT_TAGFAIL).setTrst { s.trst with owed230 := true }
  else s

/-- With ROOTOK = 0 every slot reads unusable (R509); else each is examined. -/
def State.examineSlots (s : State) : State :=
  if s.rootOk then (List.range 64).foldl State.examineSlot s
  else (List.range 64).foldl (fun s k => s.setWord (R.TRST_SLOTs k) 2) s

/-- The greater GEN of a slot's two copies. -/
def State.slotGen (s : State) (slot : Nat) : Nat := max (s.slotCopy (2 * slot)).gen (s.slotCopy (2 * slot + 1)).gen

/-- The copy a write goes to: the one not chosen, or B (R516). -/
def State.writeTo (s : State) (slot : Nat) : Nat :=
  2 * slot + (match s.chosenCopy slot with
    | some 1 => 0
    | _ => 1)

/-- Write a slot copy (R516), cut short after the first step or complete. -/
def State.putSlot (s : State) (slot : Nat) (c : SlotCopy) (w : TrustWrite) : State :=
  let c := { c with gen := s.slotGen slot + 1, wrap := s.wrapKey slot c.bind }
  let i := s.writeTo slot
  if w = .cut1 then s.setCopy i { c with gen := (s.slotCopy i).gen, torn := true } else s.setCopy i c

/-- Replace or destroy a slot's key: the working key that came from it goes (R512). -/
def State.dropWorkOf (s : State) (slot : Nat) : State :=
  s.when (s.trst.work.any (fun k => k.slot == slot)) (State.setWork · none)

/-- A destroy (R517): a tombstone, then zeros over the other copy. -/
def State.destroySlot (s : State) (slot : Nat) (w : TrustWrite) : State :=
  let i := s.writeTo slot
  let s := s.putSlot slot SlotCopy.zero w
  let s := if w = .done then s.setCopy (4 * slot + 1 - i) SlotCopy.zero else s
  s.showSlot slot

/-- The key of a usable slot, with its copy (R515, R529). -/
def State.openSlot (s : State) (slot : Nat) : Option SlotCopy :=
  if s.rd (R.TRST_SLOTs_STATE slot) ≠ 1 then none
  else (s.chosenCopy slot).map (fun k => s.slotCopy (2 * slot + k))

/-- The transfer of a slot's key into a block (R518): use bit 0 for SAFE, 1 for PAIR. -/
def State.keyTransfer (s : State) (slot bit : Nat) : Option Nat :=
  match s.openSlot slot with
  | some c => if c.typ = 2 ∧ c.use.testBit bit then some c.key else none
  | none => none

/-! ## Enrolment and kick-off (R508, R520) -/

/-- Enrol an owner key (R520): ECNT advances and ENONCE follows. -/
def State.enrol (s : State) (pub : List Nat) : State :=
  let n := s.trst.ecnt + 1
  (s.setTrst { s.trst with owner := pub, ecnt := n, enonce := sha512 (pub ++ beBytes 4 n) }).showTrust

/-- PUF regeneration and slot examination at kick-off (R508, R510, R512, R515): the copies whose CRC fails, whether the
check value confirms, and the bits corrected. -/
def State.trustKickOff (s : State) (badA badB confirmed : Bool) (corr : Nat) : State :=
  let ok := !(badA && badB) && confirmed
  let owed := (if badA || badB || (ok && decide (800 < corr)) then [(232, none)] else [])
    ++ (match s.trst.work with
        | some k => [(234, some k.duty)]
        | none => [])
  let s := s.setTrst { s.trst with queue := [], mr := [], work := none, owed := owed, owed230 := false }
  let s := (s.wrBit R.TRST_STAT_ROOTOK ok).wr R.TRST_PUF_CORR (if ok then corr else 0)
  let s := (s.wrBit R.TRST_PUF_HCOPY badA).wrBit R.TRST_PUF_HFAIL (badA || badB)
  (s.setWord R.TRST_CNT 0).examineSlots.showTrust

/-- The trust events owed at the edge of tick 0, and event 230 at its cycle 1,536. -/
def State.trustTickZero (s : State) : State :=
  let es := s.trst.owed
  es.foldl (fun s e => match e.2 with
    | none => s.raiseSup e.1
    | some d => s.raise e.1 [d] false) (s.setTrst { s.trst with owed := [] })

def State.trustSlotEvent (s : State) : State :=
  if s.trst.owed230 then (s.setTrst { s.trst with owed230 := false }).raiseSup 230 else s

/-! ## Requests (R117, R528 to R530) -/

/-- TRUST (R117): refused with code 1 where 8 requests are held, also with a bad address, and with code 2 for the address alone;
the other bits of rd are 0, and tickets are counted modulo 256 (notes/assumptions/24). -/
def State.trustSubmit (s : State) (code addr duty : Nat) : Nat × State :=
  if 8 ≤ s.trst.queue.length then (2 ^ 31 + 2 ^ 24, s)
  else if addr % 64 ≠ 0 ∨ commonsBytes ≤ addr then (2 ^ 31 + 2 ^ 25, s)
  else
    let t := s.trst
    (t.ticket, (s.setTrst { t with queue := t.queue ++ [⟨code, addr, duty, t.ticket, none⟩],
                                   ticket := (t.ticket + 1) % 256 }).showTrust)

def execTrust (i : Issue) (rd ra : BitVec 6) (sel : BitVec 14) (s : State) : Out :=
  .next (s.runBlock i true fun s c =>
    s.release i fun s =>
      let r := s.trustSubmit sel.toNat (c.regN ra.toNat) (s.dutyOf i.core.val)
      r.2.finish i.core.val (c.setRegN rd.toNat r.1) (3 + holdCost i))

/-- Read n bytes of the commons from an aligned address; the Bool tells that a poisoned word was read. -/
def State.trGet (s : State) (a n : Nat) : List Nat × Bool × State :=
  let r := s.readWords trustPort a ((n + 7) / 8)
  ((wordsBytes r.1).take n, r.2)

/-- Write bytes to the commons from an aligned address: whole words, and the last bytes in a word of their own. -/
def State.trPut (s : State) (a : Nat) (bs : List Nat) : State :=
  let n := bs.length / 8
  let s := s.writeWords trustPort a ((List.range n).map (fun i => leAt bs (8 * i) 8))
  if bs.length % 8 = 0 then s
  else s.commonsWrite trustPort (a + 8 * n) (bs.length % 8) (leNat (bs.drop (8 * n)))

/-- Seal the words of OUT as a carried buffer (R138, R528). -/
def State.trSeal (s : State) (a n : Nat) : State :=
  let w := (n + 7) / 8
  let r := s.readWords trustPort a w
  r.2.2.commonsWrite trustPort (a + 8 * w) 8 (carryWord r.1)

/-- A request block as read (R528). -/
structure TrIn where
  arg0 : Nat
  arg1 : Nat
  src : Nat
  len : Nat
  out : Nat
  outMax : Nat
  loadid : Nat
  chk : Bool
  duty : Nat
  ticket : Nat
deriving DecidableEq, Repr

def trIn (r : TrReq) (b : List Nat) : TrIn :=
  { arg0 := leAt b 4 4, arg1 := leAt b 8 4, src := leAt b 12 4, len := leAt b 16 4, out := leAt b 20 4,
    outMax := leAt b 24 4, loadid := leAt b 32 2, chk := (leAt b 34 1).testBit 0, duty := r.duty, ticket := r.ticket }

/-- The answer of a request: status, bytes for OUT, the LOADID a load returns, and the state. -/
structure TrAns where
  status : Nat
  out : List Nat
  loadid : Option Nat
  st : State

def trFail (code : Nat) (s : State) : TrAns := ⟨code, [], none, s⟩
def trOk (out : List Nat) (s : State) : TrAns := ⟨0, out, none, s⟩

/-- Bytes a buffer takes, with its check word where it is a carried buffer. -/
def trSpan (q : TrIn) (n : Nat) : Nat := if q.chk then 8 * ((n + 7) / 8) + 8 else n

/-- Does OUT have room for n bytes (R530, status 2)? -/
def TrIn.roomFor (q : TrIn) (n : Nat) : Bool :=
  n == 0 || (q.out % 8 == 0 && decide (trSpan q n ≤ q.outMax) && decide (q.out + trSpan q n ≤ commonsBytes))

/-- Read and verify IN (R528; statuses 2 and 3): the status and the bytes. -/
def State.trRead (s : State) (q : TrIn) : Nat × List Nat × State :=
  if q.src % 8 ≠ 0 ∨ commonsBytes < q.src + trSpan q q.len then (2, [], s)
  else
    let r := s.trGet q.src q.len
    if !q.chk then (if r.2.1 then 3 else 0, r.1, r.2.2)
    else
      let n := (q.len + 7) / 8
      let ws := (List.range n).map (fun i => memRead r.2.2.mem (q.src + 8 * i) 8)
      let cw := r.2.2.commonsRead trustPort (q.src + 8 * n) 8
      if verifyCheck ws cw.1 ≠ 0 then (3, [], cw.2.2.carriedFail (q.src + 8 * n) 0x0F false)
      else (if r.2.1 || cw.2.1 then 3 else 0, r.1, cw.2.2)

/-- The end of a request's work: the answer is kept with it, and OUT is written where the status is 0. -/
def State.trEnd (s : State) (r : TrReq) (fin : Nat × Nat × Option Nat) : State :=
  s.setTrst { s.trst with queue := { r with fin := some fin } :: s.trst.queue.drop 1 }

def State.trAnswer (r : TrReq) (q : TrIn) (a : TrAns) : State :=
  if a.status ≠ 0 then a.st.trEnd r (a.status, 0, none)
  else
    let s := a.st.trPut q.out a.out
    let s := s.when (q.chk && !a.out.isEmpty) (State.trSeal · q.out a.out.length)
    s.trEnd r (0, a.out.length, a.loadid)

/-- Does the trust core carry out requests: from the setup of a kick-off on (R507, R562)? -/
def State.trustRuns (s : State) : Bool := s.phase == .setup || s.phase == .ready || s.phase == .running

/-- Carry out the request in front, where its code is the given one and its work is still to do: the block is read and
checked, then IN where the request uses it, the room in OUT for what `need` says it writes, and the work itself. -/
def State.trRun (s : State) (code : Nat) (usesIn : Bool) (need : TrIn → List Nat → Nat)
    (work : TrIn → List Nat → State → TrAns) : State :=
  match s.trst.queue with
  | [] => s
  | r :: _ =>
    if !s.trustRuns || r.code != code || r.fin.isSome then s
    else
      let b := s.trGet r.addr 64
      let s := b.2.2
      let q := trIn r b.1
      if b.2.1 then s.trEnd r (3, 0, none)
      else if 2 ≤ leAt b.1 34 1 || !allZero (b.1.drop 35) then s.trEnd r (1, 0, none)
      else
        let i : Nat × List Nat × State := if usesIn then s.trRead q else (0, [], s)
        if i.1 ≠ 0 then i.2.2.trEnd r (i.1, 0, none)
        else if !q.roomFor (need q i.2.1) then i.2.2.trEnd r (2, 0, none)
        else State.trAnswer r q (work q i.2.1 i.2.2)

/-! ### Requests without envelope -/

/-- Root and enrolment (statuses 4 and 12). -/
def State.idCode (s : State) : Nat := if !s.rootOk then 4 else if s.trst.owner.isEmpty then 12 else 0

def trIdent (_ : TrIn) (_ : List Nat) (s : State) : TrAns :=
  if s.idCode ≠ 0 then trFail s.idCode s else trOk s.identityPub s

/-- IDENT (R529): the identity public key. -/
def execIdent (s : State) : Out := .next (s.trRun 1 false (fun _ _ => 133) trIdent)

/-- MEASURE (R510): MR1 before tick 0 only, MR3 to MR7 at any time. -/
def trMeasure (q : TrIn) (bs : List Nat) (s : State) : TrAns :=
  if q.arg0 = 1 ∧ s.phase ≠ .running ∨ 3 ≤ q.arg0 ∧ q.arg0 ≤ 7 then trOk [] (s.extendMr q.arg0 bs) else trFail 1 s

def execMeasure (s : State) : Out := .next (s.trRun 2 true (fun _ _ => 0) trMeasure)

def State.allMr (s : State) : List Nat := (List.range 8).flatMap (fun k => beBytes 64 (s.mr k))

/-- READMR (R529). -/
def execReadmr (s : State) : Out := .next (s.trRun 3 false (fun _ _ => 512) fun _ _ s => trOk s.allMr s)

/-- The statement's bytes 0 to 807 (R527). -/
def State.statement (s : State) (nonce : List Nat) : List Nat :=
  let flags := b2n s.rootOk + 2 * b2n (!s.trst.owner.isEmpty) + 4 * s.rd R.TRST_PUF_HFAIL
  let rtc := (s.word R.RTCB_TIME).toNat + 2 ^ 32 * (s.word (R.RTCB_TIME + 4)).toNat
  [0x41, 0x54, 1, flags] ++ beBytes 4 (s.rd R.TRST_SVN_SVN) ++ beBytes 8 s.tickN ++ beBytes 8 rtc ++ nonce
    ++ beBytes 64 (sha512 s.trst.owner) ++ s.identityPub ++ [0, 0, 0] ++ s.allMr ++ beBytes 8 s.trst.cseq

def trAttest (q : TrIn) (bs : List Nat) (s : State) : TrAns :=
  if q.len ≠ 64 then trFail 1 s
  else if s.idCode ≠ 0 then trFail s.idCode s
  else
    let m := s.statement bs
    trOk (m ++ ecdsaSign s.identityKey m ++ List.replicate 20 0) s

/-- ATTEST (R527). -/
def execAttest (s : State) : Out := .next (s.trRun 5 true (fun _ _ => 960) trAttest)

/-- A load answers its ticket as LOADID. -/
def trLoaded (q : TrIn) (key typ slot use : Nat) (s : State) : TrAns :=
  ⟨0, [], some q.ticket, s.setWork (some ⟨key, typ, slot, use, q.ticket, q.duty⟩)⟩

def trKeyload (q : TrIn) (_ : List Nat) (s : State) : TrAns :=
  if 63 < q.arg0 then trFail 8 s
  else if !s.rootOk then trFail 4 s
  else if s.rd (R.TRST_SLOTs_STATE q.arg0) = 0 then trFail 8 s
  else match s.openSlot q.arg0 with
    | none => trFail 9 (s.raiseSup 230)
    | some c => trLoaded q c.key c.typ q.arg0 c.use s

/-- KEYLOAD (R529): a slot into the working key register. -/
def execKeyload (s : State) : Out := .next (s.trRun 6 false (fun _ _ => 0) trKeyload)

def trDerive (q : TrIn) (bs : List Nat) (s : State) : TrAns :=
  if q.arg0 = 0 ∨ 3 < q.arg0 ∨ 255 < q.arg1 then trFail 1 s
  else if !s.rootOk then trFail 4 s
  else if q.len = 0 ∨ 256 < q.len then trFail 17 s
  else trLoaded q (s.deriveKey q.arg0 q.arg1 bs) q.arg0 255 0xFF s

/-- DERIVE (R511, R529). -/
def execDerive (s : State) : Out := .next (s.trRun 7 true (fun _ _ => 0) trDerive)

/-- The key of a use (R513, R529): its type, its USE bit and the LOADID named. -/
def State.useKey (s : State) (q : TrIn) (typ bit : Nat) (f : Nat → State → TrAns) : TrAns :=
  match s.trst.work with
  | none => trFail 10 s
  | some k =>
    if k.typ ≠ typ ∨ !k.use.testBit bit then trFail 10 s
    else if k.loadid ≠ q.loadid then trFail 11 s
    else f k.key s

/-- MAC (R529): HMAC-SHA-512 of IN. -/
def execTrustMac (s : State) : Out :=
  .next (s.trRun 8 true (fun _ _ => 64) fun q bs s => s.useKey q 2 3 fun k s => trOk (beBytes 64 (hmac512 k bs)) s)

/-- The text of an AEAD input (R529): nonce 12, AAD length 4, AAD, text. -/
def aeadText (bs : List Nat) : Option (List Nat × List Nat) :=
  let n := leAt bs 12 4
  if bs.length < 16 + n then none else some (slice bs 16 n, bs.drop (16 + n))

def trSeala (q : TrIn) (bs : List Nat) (s : State) : TrAns :=
  match aeadText bs with
  | none => trFail 1 s
  | some (aad, text) => s.useKey q 1 2 fun k s =>
    let c := gcmCrypt k (beAt bs 0 12) text
    trOk (c ++ beBytes 16 (gcmTag k (beAt bs 0 12) aad c)) s

/-- SEALA (R529). -/
def execSeala (s : State) : Out :=
  .next (s.trRun 9 true (fun _ bs => (aeadText bs).elim 0 (fun x => x.2.length + 16)) trSeala)

def trOpena (q : TrIn) (bs : List Nat) (s : State) : TrAns :=
  match aeadText bs with
  | none => trFail 1 s
  | some (aad, text) =>
    if text.length < 16 then trFail 1 s
    else s.useKey q 1 2 fun k s =>
      let c := text.take (text.length - 16)
      if gcmTag k (beAt bs 0 12) aad c = beNat (text.drop (text.length - 16)) then trOk (gcmCrypt k (beAt bs 0 12) c) s
      else trFail 13 (s.inc R.TRST_CNT_GCMFAIL)

/-- OPENA (R529): status 13 on a tag failure, with OUTLEN 0. -/
def execOpena (s : State) : Out :=
  .next (s.trRun 10 true (fun _ bs => (aeadText bs).elim 0 (fun x => x.2.length - 16)) trOpena)

/-- SIGN (R529): with the working key over SHA-512 of IN. -/
def execSign (s : State) : Out :=
  .next (s.trRun 11 true (fun _ _ => 132) fun q bs s => s.useKey q 3 4 fun k s => trOk (ecdsaSign k bs) s)

/-- Do the trust core's writes to MRAM fail (status 15)? -/
def writeFails (w : TrustWrite) : Bool := w == .failed

def trDestroy (w : TrustWrite) (q : TrIn) (_ : List Nat) (s : State) : TrAns :=
  if 63 < q.arg0 then trFail 8 s
  else if !s.rootOk then trFail 4 s
  else if 0xFFFFFFFE ≤ s.slotGen q.arg0 then trFail 14 s
  else if writeFails w then trFail 15 s
  else trOk [] ((s.destroySlot q.arg0 w).dropWorkOf q.arg0)

/-- A request that supply loss cuts short leaves its MRAM writes and does not end. -/
def State.trCut (s t : State) (w : TrustWrite) : State :=
  if w == .cut1 || w == .cut2 then { t with trst := { t.trst with queue := s.trst.queue } } else t

/-- DESTROY (R517). -/
def execDestroy (w : TrustWrite) (s : State) : Out :=
  .next (s.trCut (s.trRun 13 false (fun _ _ => 0) (trDestroy w)) w)

/-- CLEAR (R512). -/
def execClear (s : State) : Out := .next (s.trRun 14 false (fun _ _ => 0) fun _ _ s => trOk [] (s.setWork none))

/-! ### Signed commands (R523, R524) -/

/-- Is a command envelope laid out right (check 1)? -/
def envLaid (bs : List Nat) : Bool :=
  decide (196 ≤ bs.length) && slice bs 0 4 == [0x43, 0x4D, 1, 0] && decide (beAt bs 4 4 ≤ 65536)
    && bs.length == 196 + beAt bs 4 4 && beAt bs 8 8 != 0 && allZero (slice bs 52 12)

def envPayload (bs : List Nat) : List Nat := slice bs 64 (beAt bs 4 4)

/-- Check 4 (R524): whether the request must be addressed to this module. -/
def State.targetCode (s : State) (named : Bool) (tgt : Nat) : Nat :=
  if tgt = 0 then (if named then 7 else 0)
  else if !s.rootOk then 4
  else if tgt ≠ s.identityHash then 7 else 0

/-- The first failing check of an envelope. -/
def State.envCode (s : State) (named : Bool) (bs : List Nat) : Nat :=
  if !envLaid bs then 1
  else if s.trst.owner.isEmpty then 12
  else if !ecdsaVerify s.trst.owner (bs.take (bs.length - 132)) (bs.drop (bs.length - 132)) then 5
  else if s.targetCode named (beAt bs 16 32) ≠ 0 then s.targetCode named (beAt bs 16 32)
  else if beAt bs 8 8 ≤ s.trst.cseq then 6 else 0

/-- Check an envelope and, on acceptance, store CSEQ and carry the command out (R524). -/
def State.withEnvelope (s : State) (named : Bool) (bs : List Nat) (w : TrustWrite) (f : State → TrAns) : TrAns :=
  let c := s.envCode named bs
  if c = 5 then trFail 5 ((s.inc R.TRST_CNT_SIGFAIL).raiseSup 231)
  else if c = 6 then trFail 6 ((s.inc R.TRST_CNT_REPLAY).raiseSup 231)
  else if c ≠ 0 then trFail c s
  else if writeFails w then trFail 15 s
  else f (s.setTrst { s.trst with cseq := beAt bs 8 8 }).showTrust

/-- VERIFY (R529): OUT receives the payload. -/
def execTrustVerify (w : TrustWrite) (s : State) : Out :=
  .next (s.trCut (s.trRun 4 true (fun _ bs => if envLaid bs then beAt bs 4 4 else 0)
    fun _ bs s => s.withEnvelope false bs w fun s => trOk (envPayload bs) s) w)

/-- KLEN of a type (R514). -/
def keyBytes (typ : Nat) : Nat := if typ = 1 then 32 else if typ = 2 then 64 else 66

/-- The key of an IMPORT payload (R525): none where its tag fails. -/
def State.importedKey (s : State) (slot : Nat) (p : List Nat) (klen : Nat) : Option Nat :=
  let z := sharedX s.transportKey (p.take 133)
  let k := hkdf 32 (beBytes 32 s.identityHash) (beBytes 66 z) [105, 109, 112, 111, 114, 116, slot]
  let c := slice p 137 klen
  if gcmTag k 0 [] c = beAt p (137 + klen) 16 then some (beNat (gcmCrypt k 0 c)) else none

/-- The work of an accepted IMPORT (R516, R525). -/
def State.importInto (s : State) (slot : Nat) (p : List Nat) (w : TrustWrite) : TrAns :=
  let typ := beAt p 133 1
  let klen := beAt p 134 1
  let use := beAt p 136 1
  if typ = 0 ∨ 3 < typ ∨ klen ≠ keyBytes typ ∨ 32 ≤ use ∨ p.length ≠ 153 + klen then trFail 1 s
  else if 0xFFFFFFFE ≤ s.slotGen slot then trFail 14 s
  else match s.importedKey slot p klen with
    | none => trFail 13 (s.inc R.TRST_CNT_GCMFAIL)
    | some k =>
      let s := (s.putSlot slot { SlotCopy.zero with typ := typ, klen := klen, bind := beAt p 135 1, use := use, key := k } w)
      trOk [] ((s.showSlot slot).dropWorkOf slot)

def trImport (w : TrustWrite) (q : TrIn) (bs : List Nat) (s : State) : TrAns :=
  if 63 < q.arg0 then trFail 8 s
  else if !s.rootOk then trFail 4 s
  else s.withEnvelope true bs w fun s => s.importInto q.arg0 (envPayload bs) w

/-- IMPORT (R525). -/
def execImport (w : TrustWrite) (s : State) : Out := .next (s.trCut (s.trRun 12 true (fun _ _ => 0) (trImport w)) w)

/-! ### CODELOAD (R526) -/

/-- A segment: core, first word, instruction words. -/
structure CodeSeg where
  core : Nat
  start : Nat
  words : List Nat
deriving DecidableEq, Repr

/-- The segments of a payload after SVN and count; none where the bytes do not spell that many. -/
def codeSegs : Nat → List Nat → Option (List CodeSeg)
  | 0, bs => if bs.isEmpty then some [] else none
  | n + 1, bs =>
    let k := beAt bs 4 2
    if bs.length < 6 + 4 * k ∨ beAt bs 1 1 ≠ 0 then none
    else (codeSegs n (bs.drop (6 + 4 * k))).map
      (⟨beAt bs 0 1, beAt bs 2 2, (List.range k).map (fun i => beAt bs (6 + 4 * i) 4)⟩ :: ·)

/-- Is a segment's target valid (status 18)? -/
def State.segOk (s : State) (g : CodeSeg) : Bool :=
  decide (g.core < 16) && s.partOf (s.physOf g.core) == 1 && decide (g.start + g.words.length ≤ 16384)

/-- Write instruction words into the memory of a core. -/
def CoreS.loadCode (c : CoreS) (start : Nat) : List Nat → CoreS
  | [] => c
  | v :: r => CoreS.loadCode { c with imem := memWrite c.imem (4 * start) 4 v, imemErr := NMap.set .clean c.imemErr start .clean }
      (start + 1) r

def State.loadSeg (s : State) (g : CodeSeg) : State :=
  let p := s.physOf g.core
  s.setCore p ((s.core p).loadCode g.start g.words)

def State.codeload (s : State) (bs : List Nat) : TrAns :=
  let p := envPayload bs
  if p.length < 8 then trFail 1 s
  else match codeSegs (beAt p 4 4) (p.drop 8) with
    | none => trFail 1 s
    | some gs =>
      if beAt p 0 4 < s.trst.svnMin then trFail 16 s
      else if !gs.all s.segOk then trFail 18 s
      else trOk [] (gs.foldl State.loadSeg (s.extendMr 2 bs))

/-- CODELOAD (R526). -/
def execCodeload (w : TrustWrite) (s : State) : Out :=
  .next (s.trCut (s.trRun 15 true (fun _ _ => 0) fun _ bs s => s.withEnvelope false bs w fun s => s.codeload bs) w)

/-! ### OWNER and RELEASE (R522) -/

def State.newOwner (s : State) (pub : List Nat) (w : TrustWrite) : TrAns :=
  if pub.length ≠ 133 ∨ pub.head? ≠ some 4 then trFail 1 s
  else if w = .cut1 then trOk [] s
  else trOk [] (((s.enrol pub).setWork none).raiseSup 233)

def trOwner (w : TrustWrite) (_ : TrIn) (bs : List Nat) (s : State) : TrAns :=
  if !s.rootOk then trFail 4 s else s.withEnvelope true bs w fun s => s.newOwner (envPayload bs) w

/-- OWNER (R522). -/
def execOwner (w : TrustWrite) (s : State) : Out := .next (s.trCut (s.trRun 16 true (fun _ _ => 0) (trOwner w)) w)

/-- Destroy a slot for good: where its GEN is exhausted, both copies become zeros. -/
def State.eraseSlot (s : State) (slot : Nat) : State :=
  if 0xFFFFFFFE ≤ s.slotGen slot then
    ((s.setCopy (2 * slot) SlotCopy.zero).setCopy (2 * slot + 1) SlotCopy.zero).showSlot slot
  else s.destroySlot slot .done

def State.releaseOwner (s : State) (w : TrustWrite) : TrAns :=
  if w = .cut1 then trOk [] s
  else
    let s := (List.range 64).foldl State.eraseSlot s
    if w = .cut2 then trOk [] s
    else
      let s := (s.setTrst { s.trst with owner := [] }).showTrust
      trOk [] ((s.setWork none).raiseSup 233)

def trRelease (w : TrustWrite) (_ : TrIn) (bs : List Nat) (s : State) : TrAns :=
  if !s.rootOk then trFail 4 s else s.withEnvelope true bs w fun s => s.releaseOwner w

/-- RELEASE (R522). -/
def execRelease (w : TrustWrite) (s : State) : Out := .next (s.trCut (s.trRun 17 true (fun _ _ => 0) (trRelease w)) w)

/-- Is a request code one of the table's (R529)? -/
def trKnown (code : Nat) : Bool := decide (1 ≤ code ∧ code ≤ 17)

/-- The end of the request in front (R528, R530): OUTLEN and LOADID, then STATUS with DONE; events 228 and 229. -/
def State.trComplete (s : State) (r : TrReq) (fin : Nat × Nat × Option Nat) : State :=
  let s := s.commonsWrite trustPort (r.addr + 28) 4 fin.2.1
  let s := match fin.2.2 with
    | some l => s.commonsWrite trustPort (r.addr + 32) 2 l
    | none => s
  let s := s.commonsWrite trustPort r.addr 4 (fin.1 + 65536)
  let s := (s.setTrst { s.trst with queue := s.trst.queue.drop 1 }).showTrust
  let s := s.raise 228 [r.duty] false
  if fin.1 = 0 then s else s.raise 229 [r.duty] true

/-- TRUST_REQUEST_COMPLETE (R530); an unknown code ends with status 1. -/
def execTrustRequestComplete (s : State) : Out :=
  .next (match s.trst.queue with
    | [] => s
    | r :: _ =>
      if !s.trustRuns then s
      else match r.fin with
      | some f => s.trComplete r f
      | none => if trKnown r.code then s else s.trComplete r (1, 0, none))

end Sys2Proof.Machine
end

