-- ==== Sys2Proof/Machine/Safe.lean ====
section
/-! DEFINITION. The safety channel (16_safety_channel, R422 to R445): inputs and their tests, outputs and their tests,
causes, states, arming, Bextis and the seal. -/

namespace Sys2Proof.Machine

def State.setSafe (s : State) (x : SafeS) : State := { s with safe := x }
def State.safetyDuties (s : State) : List Nat := s.dutiesOf 8
def State.chState (s : State) : Nat := s.rd R.SAFE_STAT_STATE

/-! ## Who may write (R424) -/

/-- May core p write this address of the SAFE window? -/
def State.safeMay (s : State) (p a : Nat) : Bool :=
  if a / 4 * 4 = R.SAFE_REQ then isChecked p && s.partOf p == 1 else s.partOf p == 8

/-- A foreign write is discarded, counted and signalled. -/
def State.safeForeign (s : State) : State := (s.inc R.SAFE_CNT_FOREIGN).raiseSup 186

/-- Take a write of the SAFE window from a core that may make it. -/
def State.safeFrom (s : State) (p : Port) (a : Nat) (f : State → State) : State :=
  s.byCore p fun s => if s.safeMay p.core.val a then f s else s.safeForeign

/-! ## Safety inputs (R425 to R427) -/

/-- Is source s off in tick t (R426)? -/
def pulseAt (per w src t : Nat) : Bool := decide ((t + per - src * (per / 4)) % max per 1 < w)

def State.pulse (s : State) (src t : Nat) : Bool := pulseAt (s.rd R.SAFE_TPCFG_TPPER) (s.rd R.SAFE_TPCFG_TPW) src t

/-- Does source src hold its inputs in the present tick: in its pulse and for 2 ticks after it? -/
def State.pulseHolds (s : State) (src : Nat) : Bool :=
  let t := s.tickN + s.rd R.SAFE_TPCFG_TPPER
  s.pulse src t || s.pulse src (t - 1) || s.pulse src (t - 2)

/-- The result of a test of input i (R427): a failure sets TFAIL, with event 180 on a change; a third consecutive pass
clears it. -/
def State.inputTest (s : State) (i : Nat) (own fail : Bool) : State :=
  let bit : FieldRef := ⟨R.SAFE_IN, 16 + i, 16 + i⟩
  let x := s.safe
  if fail then
    let s := s.setSafe { x with passes := NMap.set 0 x.passes i 0 }
    if s.rdBit bit then s else (s.setBit bit).raise 180 s.safetyDuties false
  else if own then
    let n := NMap.get 0 x.passes i + 1
    let s := s.setSafe { x with passes := NMap.set 0 x.passes i (min n 3), passed := putBits x.passed i i 1 }
    if 3 ≤ n then s.wr bit 0 else s
  else s

/-- Tests of an input at the present sample (R427): its own source at the last tick of its pulse, another source's pulse at
the sample after it. -/
def State.testInput (raw : Nat) (s : State) (i : Nat) : State :=
  let own := s.rd (R.SAFE_INi_CFG_TPSRC i)
  let t := s.tickN + s.rd R.SAFE_TPCFG_TPPER
  (List.range 4).foldl (fun s k =>
    let was := (NMap.get 0 s.safe.before k).testBit i
    if k == own then
      if s.pulse k t && !s.pulse k (t + 1) then s.inputTest i true (was && raw.testBit i) else s
    else if !s.pulse k t && s.pulse k (t - 1) then
      s.inputTest i false (was && !(NMap.get 0 s.safe.atLast k).testBit i && raw.testBit i)
    else s) s

/-- Raw levels kept for the tests: before each pulse and at its last sample. -/
def State.keepRaw (s : State) (raw : Nat) : State :=
  let t := s.tickN + s.rd R.SAFE_TPCFG_TPPER
  let s := (List.range 4).foldl (fun s k =>
    if s.pulse k t && !s.pulse k (t - 1) then
      s.setSafe { s.safe with before := NMap.set 0 s.safe.before k s.safe.rawPrev } else s) s
  (List.range 4).foldl (fun s k =>
    if s.pulse k t && !s.pulse k (t + 1) then
      s.setSafe { s.safe with atLast := NMap.set 0 s.safe.atLast k raw } else s) s

/-- The filter of input i (R425, R426); a disabled input reads 0. -/
def State.filterInput (raw : Nat) (s : State) (i : Nat) : State :=
  let x := s.safe
  if !s.rdBit (R.SAFE_INi_CFG_EN i) then
    s.setSafe { x with val := putBits x.val i i 0, filt := NMap.set 0 x.filt i 0 }
  else if s.rdBit (R.SAFE_INi_CFG_TPEN i) && s.pulseHolds (s.rd (R.SAFE_INi_CFG_TPSRC i)) then s
  else
    let f := filterStep (s.rd (R.SAFE_INi_CFG_FILT i)) (x.val.testBit i) (raw.testBit i) (NMap.get 0 x.filt i)
    s.setSafe { x with val := putBits x.val i i (b2n f.1), filt := NMap.set 0 x.filt i f.2 }

/-- The sample of the safety inputs at cycle 0 (R425). -/
def State.sampleSafe (s : State) (raw : Nat) : State :=
  let s := s.keepRaw raw
  let tested := (List.range 16).filter (fun i => s.rdBit (R.SAFE_INi_CFG_EN i) && s.rdBit (R.SAFE_INi_CFG_TPEN i))
  let s := tested.foldl (State.testInput raw) s
  let s := (List.range 16).foldl (State.filterInput raw) s
  let s := s.setSafe { s.safe with rawPrev := raw }
  s.wr R.SAFE_IN_VAL (s.safe.val &&& (0xFFFF ^^^ s.rd R.SAFE_IN_TFAIL))

/-! ## Degraded causes (R431, R433) -/

/-- The internal channels of IMASK that fail a test, as a mask. -/
def State.internalBad (s : State) (f : Nat → Bool) : Nat :=
  (List.range 12).foldl (fun m j => if (s.rd R.SAFE_IMASK_CH).testBit j && f (48 + j) then m + 2 ^ j else m) 0

/-- Out of band (D11): the channel's window state; stalled (D12): no conversion for 1,000 ticks, counted from tick 0 before
the first. -/
def State.outOfBand (s : State) (ch : Nat) : Bool := NMap.get 0 s.adcs.win ch != 0
def State.stalled (s : State) (ch : Nat) : Bool := decide (1000 ≤ s.tickN + 1 - max 1 (NMap.get 0 s.adcs.last ch))

/-- The watch over the internal channels; a channel newly out of band or stalled raises event 187. -/
def State.internalCheck (s : State) : State :=
  let o := s.internalBad s.outOfBand
  let w := s.internalBad s.stalled
  let new := o &&& (0xFFF ^^^ s.safe.oob) ||| w &&& (0xFFF ^^^ s.safe.stall)
  let s := s.setSafe { s.safe with oob := o, stall := w }
  if new = 0 then s else s.raise 187 s.safetyDuties true

/-- The degraded causes present. -/
def State.causes (s : State) : Nat :=
  let d := (List.range 8).foldl (fun m c => if s.rdBit (R.SAFE_CONc_STAT_DEGR c) then m + 2 ^ c else m) 0
  d + 2 ^ 8 * b2n (s.rd R.SAFE_IN_TFAIL != 0) + 2 ^ 9 * b2n (s.rd R.SAFE_OSTAT_HSF != 0 || s.rd R.SAFE_OSTAT_LSF != 0)
    + 2 ^ 10 * b2n (s.rd R.SAFE_OSTAT_OLOST != 0) + 2 ^ 11 * b2n (s.safe.oob != 0) + 2 ^ 12 * b2n (s.safe.stall != 0)

def State.showCauses (s : State) : State := s.wr R.SAFE_DCAUSE_D s.causes

/-- The sample of the safety inputs at cycle 0, with what it changes in `SAFE_DCAUSE` (R425, R431). -/
def State.takeSafe (s : State) (raw : Nat) : State := s.early (State.sampleSafe · raw) |>.showCauses

/-! ## Safety outputs (R428, R429) -/

/-- Outputs that all conditions of R428 but the gate of a standby hold on. -/
def State.safeWant (s : State) : Nat :=
  if s.chState = 0 || s.whold then 0
  else s.rd R.SAFE_OUT_EN &&& (if s.rdBit R.SAFE_CFG_REQEN then s.rd R.SAFE_REQ_REQ else 0xFF)

/-- Outputs energised: both switches are on; they are off outside a running tick and while the module is gated (R428, R442,
R479, R562, R571). -/
def State.safeDriven (s : State) : Nat := if s.undriven then 0 else s.safeWant

/-- The command that the readback is compared with, and that dark tests follow: on a standby that takes the active's readback, the
active's, which is what its own would be without the gate (R442). -/
def State.safeCmd (s : State) : Nat := if s.onSnapshot then s.safeWant else s.safeDriven

/-- Note changes of command at a tick. -/
def State.noteCmd (s : State) (tick : Nat) : State :=
  let new := s.safeCmd
  let x := s.safe
  let ch := (List.range 8).foldl (fun m o =>
    if new.testBit o != x.cmd.testBit o then NMap.set 0 m o (tick + 1) else m) x.changed
  s.setSafe { x with cmd := new, changed := ch }

/-- A program's write of a command takes effect in the next cycle (R428). -/
def State.cmdWrite (s : State) : State := s.noteCmd ((s.now + 1) / Config.cyclesPerTick)

/-- A standby becomes ACTIVE: what it commands on is switched on now (R428, R429, R442). -/
def State.cmdLift (s : State) : State :=
  s.setSafe { s.safe with
    changed := (List.range 8).foldl (fun m o => if s.safeWant.testBit o then NMap.set 0 m o (s.tickN + 1) else m) s.safe.changed }

/-- Is output o left out of comparison: its command changed in the last RBT ticks? -/
def State.readbackBlind (s : State) (o : Nat) : Bool :=
  let c := NMap.get 0 s.safe.changed o
  c != 0 && decide (s.tickN + 1 < c + s.rd R.SAFE_OTCFG_RBT)

def ostatBit (base o : Nat) : FieldRef := ⟨R.SAFE_OSTAT, base + o, base + o⟩

/-- Set an output's fault bit; a change to 1 raises event 181. -/
def State.outputFault (s : State) (f : FieldRef) : State :=
  if s.rdBit f then s else (s.setBit f).raise 181 s.safetyDuties true

/-- The comparison of one output (R429). -/
def State.compareOut (rb : Nat) (s : State) (o : Nat) : State :=
  if s.readbackBlind o then s
  else if s.safe.cmd.testBit o then
    if rb.testBit o then s.wr (ostatBit 24 o) 0 else s.outputFault (ostatBit 24 o)
  else
    let s := if rb.testBit o then s else s.wr (ostatBit 24 o) 0
    s

/-- Outputs commanded off that read back on. -/
def State.stuckOut (s : State) (rb : Nat) : Bool :=
  (List.range 8).any fun o => rb.testBit o && !s.safe.cmd.testBit o && !s.readbackBlind o

/-- The outputs whose load reads as energised: both switch nodes show on (R429); bits 0 to 7 are the high-side nodes, 8 to 15 the
low-side ones (DEDUCED: notes/assumptions/35). -/
def bothNodes (rb : Nat) : Nat := rb % 256 &&& rb / 256 % 256

/-- The readback of the switch nodes at cycle 54,500 (R429). -/
def State.readback (s : State) (nodes : Nat) : State :=
  let rb := bothNodes nodes
  let s := (s.atCycle 54500).noteCmd s.tickN
  let s := s.wr R.SAFE_OSTAT_RB rb
  let s := (List.range 8).foldl (State.compareOut rb) s
  let stuck := s.stuckOut rb
  let s := (s.setSafe { s.safe with detected := putBits s.safe.detected 5 5 (b2n stuck) }).showCauses
  s.when stuck (State.safetyFault · 5)

/-- OUTPUT_READBACK (R429): at cycle 54,500 of every tick. -/
def execOutputReadback (rb : BitVec 16) (s : State) : Out :=
  .next (s.input 54500 (.safeBack rb) (State.readback · rb.toNat))

/-- The tick of output o's dark test (R429). -/
def State.darkDue (s : State) (o : Nat) : Bool :=
  let per := s.rd R.SAFE_OTCFG_OTPER
  s.tickN % per == o * (per / 8) && s.safeCmd.testBit o

/-- The outcome of a dark test of switch k of output o: 0 high side, 1 low side. -/
def State.darkResult (s : State) (o k : Nat) (pass : Bool) : State :=
  let x := s.safe
  let f := ostatBit (8 + 8 * k) o
  if pass then
    let n := NMap.get 0 x.swPass (2 * o + k) + 1
    let s := s.setSafe { x with swPass := NMap.set 0 x.swPass (2 * o + k) (min n 3) }
    if 3 ≤ n then s.wr f 0 else s
  else (s.setSafe { x with swPass := NMap.set 0 x.swPass (2 * o + k) 0 }).outputFault f

/-- A dark test of output o, in its tick (R429): in alternate tests the high-side or the low-side switch opens; `off` tells
that the load node showed the load de-energised. -/
def State.darkTest (s : State) (o : Nat) (off : Bool) : State :=
  if s.darkDue o then
    let n := NMap.get 0 s.safe.tests o
    let s := s.setSafe { s.safe with tests := NMap.set 0 s.safe.tests o (1 - n) }
    ((s.noteItem 9 0).darkResult o n off).showCauses
  else s

/-- DARK_TEST (R429): a standby's own outputs are off, and on the snapshot it takes the active's results (R442). -/
def execDarkTest (o : Fin 8) (off : Bool) (s : State) : Out := .next (if s.onSnapshot then s else s.darkTest o.val off)

/-! ## States (R432 to R434) -/

/-- A monitor's fault as it appears and goes (F3, F4). -/
def State.monitorFault (s : State) (k : Nat) (on : Bool) : State :=
  let s := s.setSafe { s.safe with detected := putBits s.safe.detected k k (b2n on) }
  s.when on (State.safetyFault · k)

/-- CLOCK_MONITOR_FAULT (R431, F3). -/
def execClockMonitorFault (on : Bool) (s : State) : Out := .next (s.monitorFault 3 on)
/-- SUPPLY_WINDOW_FAULT (R431, F4). -/
def execSupplyWindowFault (on : Bool) (s : State) : Out := .next (s.monitorFault 4 on)

/-- TRIP written by the safety program (F7). -/
def State.trip (s : State) : State := (s.inc R.SAFE_CNT_TRIPS).safetyFault 7

/-- SAFETY_TRIP (R431). -/
def execSafetyTrip (p : Port) (s : State) : Out := .next (s.safeFrom p R.SAFE_CTRL State.trip)

def State.conS (s : State) (c : Nat) : ConS := NMap.get ConS.init s.safe.con c
def State.setCon (s : State) (c : Nat) (x : ConS) : State :=
  s.setSafe { s.safe with con := NMap.set ConS.init s.safe.con c x }

/-- Enabled receive connections. -/
def State.receivers (s : State) : List Nat :=
  (List.range 8).filter (fun c => s.rdBit (R.SAFE_CONc_CFG_EN c) && s.rd (R.SAFE_CONc_CFG_DIR c) == 0)

/-- Class W jobs sealed to the safety core. -/
def State.safetyJobs (s : State) : List Nat :=
  (List.range 128).filter fun n => (s.job n).isSealed && s.rd (R.TIER_JOBn_CFG_CLASS n) == 0 && s.jobPart n == 8

/-- An enabled tested input that has passed no test (code 8). -/
def State.untested (s : State) (i : Nat) : Bool :=
  s.rdBit (R.SAFE_INi_CFG_EN i) && s.rdBit (R.SAFE_INi_CFG_TPEN i) && !s.safe.passed.testBit i

/-- A receive connection without a two-copy acceptance within its last TMO ticks (code 9). -/
def State.unpaired (s : State) (c : Nat) : Bool :=
  let a := (s.conS c).acc2
  a == 0 || decide (a + s.rd (R.SAFE_CONc_TMO_TMO c) < s.tickN + 1)

/-- The first failing arm code (R434). -/
def State.armCode (s : State) (first : Option Nat) : Nat :=
  if !first.any (fun t => decide (s.tickN ≤ t + 10)) then 1
  else if s.chState ≠ 0 then 2
  else if !s.safe.started then 3
  else if !s.rdBit R.SAFE_STAT_SEALED then 4
  else if s.safe.detected ≠ 0 then 5
  else if s.causes ≠ 0 then 6
  else if s.safetyJobs.isEmpty || !s.safetyJobs.all (fun n => (s.job n).lastOk) then 7
  else if (List.range 16).any s.untested then 8
  else if s.receivers.any s.unpaired then 9 else 0

/-- A write of ARMK (R434). -/
def State.armWrite (s : State) (k p : Nat) : State :=
  if k = 0x5AFE then s.setSafe { s.safe with armFirst := some s.tickN }
  else if k = 0xA501 then
    let code := s.armCode s.safe.armFirst
    let s := (s.setSafe { s.safe with armFirst := none, arming := s.safe.arming || code == 0 }).wr R.SAFE_STAT_AERR code
    let s := s.when (code == 0) (State.inc · R.SAFE_CNT_ARMS)
    s.raiseCoreSup 184 p
  else s

/-- ARM_SEQUENCE (R434): a write of one of the two arm words. -/
def execArmSequence (p : Port) (k : BitVec 16) (s : State) : Out :=
  .next (s.safeFrom p R.SAFE_CTRL fun s => (s.hold R.SAFE_CTRL (65536 * k.toNat)).armWrite k.toNat p.core.val)

/-- An accepted arm takes effect at cycle 0 (R434); collected seal writes are discarded as the element starts (R8). -/
def State.takeArm (s : State) : State :=
  if !s.safe.arming then s
  else
    let first := !s.safe.armed
    let s := (s.wr R.SAFE_STAT_STATE 1).wr R.SAFE_FCAUSE_F 0
    let s := (s.discardColl 10 .safe none).setSafe { s.safe with arming := false, armed := true }
    (List.range 8).foldl (fun s c =>
      let x := s.conS c
      s.setCon c { x with fresh := true, tmo := if first then s.tickN + 1 else x.acc }) s

/-- The evaluation of the degraded causes at cycle 0 (R433), on the causes of the end of the previous tick. -/
def State.evalCauses (s : State) (d : Nat) : State :=
  if s.chState = 1 ∧ d ≠ 0 then
    let s := s.setSafe { s.safe with graceEnd := s.tickN + 10000 * s.rd R.SAFE_CFG_GRACE }
    (s.wr R.SAFE_STAT_STATE 2).raise 178 s.safetyDuties true
  else if s.chState = 2 ∧ d = 0 then
    (s.wr R.SAFE_STAT_STATE 1).raise 179 s.safetyDuties true
  else s

/-- Grace seconds left, rounded up (R444's table). -/
def State.showGrace (s : State) : State :=
  s.wr R.SAFE_GRLEFT_LEFT (if s.chState = 2 then (s.safe.graceEnd - s.tickN + 9999) / 10000 else 0)

/-- The channel's work at cycle 0 of a tick before its inputs are sampled. -/
def State.safeEdge (s : State) : State :=
  let s := (s.noteCmd (s.tickN - 1)).internalCheck
  let d := s.causes
  let s := s.setSafe { s.safe with prevD := d }
  ((s.takeArm.evalCauses d).showGrace).showCauses

/-- GRACE_EXPIRY (R433, F8): a cause still present once the grace time has run out. -/
def execGraceExpiry (s : State) : Out :=
  .next (if s.chState = 2 ∧ s.safe.graceEnd ≤ s.tickN ∧ s.safe.prevD ≠ 0 then s.safetyFault 8 else s)

/-! ## Bextis (R436 to R440) -/

/-- One bit of the CRC of R437, most significant first. -/
def bxBit (c : Nat) : Nat := if 2 ^ 31 ≤ c then (2 * c % 2 ^ 32) ^^^ 0x741B8CD7 else 2 * c
def bxByte (c b : Nat) : Nat := bxBit (bxBit (bxBit (bxBit (bxBit (bxBit (bxBit (bxBit (c ^^^ (b % 256 * 2 ^ 24)))))))))
def bextisCrc (bs : List Nat) : Nat := bs.foldl bxByte 0xFFFFFFFF ^^^ 0xFFFFFFFF

/-- The first 16 bytes of the HMAC of a message (R437). -/
def bextisTag (key : Nat) (bs : List Nat) : Nat := hmac512 key bs / 2 ^ 384

/-- The data bytes of one of a connection's 64-byte areas. -/
def State.conBytes (s : State) (base n : Nat) : List Nat :=
  (wordsBytes ((List.range 8).map fun i => (s.word (base + 8 * i)).toNat + 2 ^ 32 * (s.word (base + 8 * i + 4)).toNat)).take n

/-- Put data bytes at the start of a 64-byte area, keeping the rest. -/
def State.putConBytes (s : State) (base : Nat) (bs : List Nat) : State :=
  let all := bs ++ (s.conBytes base 64).drop bs.length
  (List.range 16).foldl (fun s i => s.setWord (base + 4 * i) (BitVec.ofNat 32 (leAt all (4 * i) 4))) s

/-- A message of transmit connection c for a network (R437), without its Ethernet header. -/
def State.bextisMessage (s : State) (c : Nat) (net : Nat) (data : List Nat) : List Nat :=
  let flags := b2n (s.chState == 2) + 2 * b2n (s.chState == 0)
  let ts := if s.extTimeValid then s.extTime % 2 ^ 64 else 0
  let m := [1, net, flags, data.length] ++ beBytes 4 (s.rd (R.SAFE_CONc_TXID_ID c))
    ++ beBytes 4 (s.rd (R.SAFE_CONc_TSEQ_SEQ c)) ++ beBytes 8 ts ++ data
  let m := m ++ beBytes 16 (bextisTag (s.conS c).key m)
  let m := m ++ beBytes 4 (bextisCrc m)
  m ++ List.replicate (46 - m.length) 0

def State.macOf (s : State) (p : Nat) : Nat := s.rd (R.ETHN_pMACL_MAC p) + 2 ^ 32 * s.rd (R.ETHN_pMACH_MAC p)
def State.conDmac (s : State) (c : Nat) : Nat :=
  (s.word (R.SAFE_CONc_DMACL c)).toNat + 2 ^ 32 * ((s.word (R.SAFE_CONc_DMACH c)).toNat % 65536)

def State.ethOf (s : State) (i : Nat) : EthS := NMap.get EthS.init s.eth i
/-- Does port p's interface pass frames: it has been sealed (R447)? -/
def State.portSealed (s : State) (p : Nat) : Bool := (s.ethOf (if p = 4 then 2 else p % 2)).isSealed

/-- Send both copies of the next message of connection c (R438); a gated member sends nothing. -/
def State.bextisSend (s : State) (c area : Nat) : State :=
  if !s.rdBit (R.SAFE_CONc_CFG_EN c) || s.rd (R.SAFE_CONc_CFG_DIR c) != 1 then s
  else
    let s := s.incWrap (R.SAFE_CONc_TSEQ_SEQ c)
    let data := s.conBytes area (s.rd (R.SAFE_CONc_CFG_LEN c))
    (List.range 2).foldl (fun s net =>
      let p := s.rd (R.SAFE_CONc_CFG_PSEL c) + 2 * net
      let m := beBytes 6 (s.conDmac c) ++ beBytes 6 (s.macOf p) ++ [0x88, 0xB5] ++ s.bextisMessage c net data
      let s := s.outRec 8 c m
      if s.portSealed p && !s.gated then s.send p m else s) s

/-- BEXTIS_SEND (R438): a write of 1 to a TXGO bit. -/
def execBextisSend (p : Port) (c : Fin 8) (s : State) : Out :=
  .next (s.safeFrom p R.SAFE_CTRL fun s => s.bextisSend c.val (R.SAFE_CONc_TXj c.val 0))

/-- BEXTIS_SAFE_STATE_SEND (R438): in SAFE, every TXPER ticks, with the data of TXFS. -/
def execBextisSafeStateSend (c : Fin 8) (s : State) : Out :=
  .next (
    let x := s.conS c.val
    if s.chState = 0 && (x.txAt == 0 || decide (x.txAt + s.rd (R.SAFE_CONc_CFG_TXPER c.val) ≤ s.tickN + 1)) then
      (s.setCon c.val { x with txAt := s.tickN + 1 }).bextisSend c.val (R.SAFE_CONc_TXFSj c.val 0)
    else s)

/-- A message as received, after the Ethernet header. -/
structure BxMsg where
  net : Nat
  len : Nat
  id : Nat
  seq : Nat
  body : List Nat
  data : List Nat
deriving DecidableEq, Repr

def bxMsg (bs : List Nat) (n : Nat) : BxMsg :=
  { net := beAt bs 1 1, len := beAt bs 3 1, id := beAt bs 4 4, seq := beAt bs 8 4, body := slice bs 2 (18 + n),
    data := slice bs 20 n }

/-- Checks 1 to 7 of a received copy (R439), from network b. -/
def State.copySound (s : State) (c : Nat) (b : Bool) (dest : Nat) (bs : List Nat) : Bool :=
  let n := s.rd (R.SAFE_CONc_CFG_LEN c)
  let m := bxMsg bs n
  (dest == s.macOf (s.rd (R.SAFE_CONc_CFG_PSEL c) + 2 * b2n b) || dest == s.conDmac c)
    && beAt bs 0 1 == 1 && m.len == n && decide (40 + n ≤ bs.length) && m.id == s.rd (R.SAFE_CONc_RXID_ID c)
    && beAt bs (36 + n) 4 == bextisCrc (bs.take (36 + n))
    && beAt bs (20 + n) 16 == bextisTag (s.conS c).key (bs.take (20 + n))
    && m.net == b2n b

/-- Is a sequence number newer than another (check 8)? -/
def seqNewer (a b : Nat) : Bool :=
  let d := (a + 2 ^ 32 - b) % 2 ^ 32
  decide (1 ≤ d ∧ d < 2 ^ 31)

def State.conEvent (s : State) (e : Nat) : State := s.raise e s.safetyDuties false

/-- Acceptance of a message (R439); two tells that both copies agreed. -/
def State.bextisAccept (s : State) (c seq : Nat) (data : List Nat) (two : Bool) : State :=
  let x := s.conS c
  let s := s.setCon c { x with win := none, fresh := false, acc := s.tickN + 1, tmo := s.tickN + 1,
                               acc2 := if two then s.tickN + 1 else x.acc2 }
  let s := s.wr (R.SAFE_CONc_STAT_WIN c) 0
  let s := s.putConBytes (R.SAFE_CONc_RXj c 0) data
  let s := ((s.wr (R.SAFE_CONc_SEQ_SEQ c) seq).wr (R.SAFE_CONc_ATICK_TICK c) s.tickN).wr (R.SAFE_CONc_STAT_CFAULT c) 0
  let s := s.setBit ⟨R.SAFE_RXEV, c, c⟩
  let s := if two then
      let n := min 255 (s.rd (R.SAFE_CONc_STAT_CLRCNT c) + 1)
      let s := s.wr (R.SAFE_CONc_STAT_CLRCNT c) n
      if s.rd (R.SAFE_CONc_TMO_NCLR c) ≤ n then s.wr (R.SAFE_CONc_STAT_DEGR c) 0 else s
    else
      let s := (s.wr (R.SAFE_CONc_STAT_CLRCNT c) 0).wr (R.SAFE_CONc_STAT_DEGR c) 1
      (s.inc (R.SAFE_CONc_CNT_NOPAIR c)).conEvent 183
  (s.conEvent 182).showCauses

/-- The first copy is accepted alone (R439). -/
def State.acceptAlone (s : State) (c : Nat) (w : PairWin) : State := s.bextisAccept c w.seq w.data false

/-- While CFAULT is 1, RX reads the data of RXFS. -/
def State.showFault (s : State) (c : Nat) : State :=
  if s.rdBit (R.SAFE_CONc_STAT_CFAULT c) then s.putConBytes (R.SAFE_CONc_RXj c 0) (s.conBytes (R.SAFE_CONc_RXFSj c 0) 64)
  else s

/-- Both copies are rejected (R439). -/
def State.disagree (s : State) (c : Nat) : State :=
  let s := s.setCon c { s.conS c with win := none }
  let s := (s.wr (R.SAFE_CONc_STAT_WIN c) 0).wr (R.SAFE_CONc_STAT_CFAULT c) 1
  ((s.inc (R.SAFE_CONc_CNT_DISAG c)).showFault c).conEvent 183

/-- The first valid copy of a SEQ opens a window of SKEW ticks. -/
def State.openWindow (s : State) (c : Nat) (b : Bool) (m : BxMsg) : State :=
  let w : PairWin := ⟨m.seq, b, m.body, m.data, s.tickN + s.rd (R.SAFE_CONc_CFG_SKEW c)⟩
  (s.setCon c { s.conS c with win := some w }).wr (R.SAFE_CONc_STAT_WIN c) 1

def State.copyLate (s : State) (c : Nat) : State := s.inc (R.SAFE_CONc_CNT_LATE c)
def State.copyInvalid (s : State) (c : Nat) : State := (s.inc (R.SAFE_CONc_CNT_INVAL c)).conEvent 183

/-- Check 8 and the copy comparison for a sound copy while no window is open. -/
def State.firstCopy (s : State) (c : Nat) (b : Bool) (m : BxMsg) : State :=
  let last := s.rd (R.SAFE_CONc_SEQ_SEQ c)
  if (s.conS c).acc != 0 && m.seq == last then s.copyLate c
  else if (s.conS c).fresh || seqNewer m.seq last then s.openWindow c b m
  else s.copyInvalid c

/-- A sound copy (R439). -/
def State.soundCopy (s : State) (c : Nat) (b : Bool) (m : BxMsg) : State :=
  match (s.conS c).win with
  | none => s.firstCopy c b m
  | some w =>
    if m.seq = w.seq then
      if b = w.net then s.copyLate c
      else if m.body = w.body then s.bextisAccept c m.seq m.data true
      else s.disagree c
    else if seqNewer m.seq w.seq then (s.acceptAlone c w).firstCopy c b m
    else if (s.conS c).acc != 0 && m.seq == s.rd (R.SAFE_CONc_SEQ_SEQ c) then s.copyLate c
    else if (s.conS c).fresh || seqNewer m.seq (s.rd (R.SAFE_CONc_SEQ_SEQ c)) then s.copyLate c
    else s.copyInvalid c

/-- A copy arrives for receive connection c on network b (R439). -/
def State.bextisCopy (s : State) (c : Nat) (b : Bool) (dest : Nat) (bs : List Nat) : State :=
  if !s.receivers.contains c then s
  else if s.copySound c b dest bs then s.soundCopy c b (bxMsg bs (s.rd (R.SAFE_CONc_CFG_LEN c)))
  else s.copyInvalid c

/-- BEXTIS_COPY_RECEIVE (R439, R442): on the port of its network. -/
def execBextisCopyReceive (c : Fin 8) (b : Bool) (dest : BitVec 48) (msg : List Byte) (s : State) : Out :=
  .next (if s.portSealed (s.rd (R.SAFE_CONc_CFG_PSEL c.val) + 2 * b2n b) then
      s.input s.cycle (.bextis c b dest msg) fun s => s.bextisCopy c.val b dest.toNat (msg.map BitVec.toNat)
    else s)

/-- PAIRING_WINDOW_END (R439): no other copy by the end of the window. -/
def execPairingWindowEnd (c : Fin 8) (s : State) : Out :=
  .next (match (s.conS c.val).win with
    | none => s
    | some w => if w.last ≤ s.tickN then s.acceptAlone c.val w else s)

/-- BEXTIS_TIMEOUT (R440, F6): a receive connection whose last acceptance lies TMO ticks or more in the past. -/
def execBextisTimeout (c : Fin 8) (s : State) : Out :=
  .next (if s.receivers.contains c.val && s.safe.armed
      && decide ((s.conS c.val).tmo + s.rd (R.SAFE_CONc_TMO_TMO c.val) ≤ s.tickN + 1) then s.safetyFault 6 else s)

/-! ## The seal (R445) -/

def within (lo hi v : Nat) : Bool := decide (lo ≤ v ∧ v ≤ hi)

/-- Code 1: every field within its range. -/
def State.safeRanges (s : State) : Bool :=
  within 1 259200 (s.rdColl R.SAFE_CFG_GRACE) && within 100 100000 (s.rdColl R.SAFE_TPCFG_TPPER)
    && within 1 10 (s.rdColl R.SAFE_TPCFG_TPW) && within 100 100000 (s.rdColl R.SAFE_OTCFG_OTPER)
    && within 1 15 (s.rdColl R.SAFE_OTCFG_RBT)
    && (List.range 8).all fun c => within 1 64 (s.rdColl (R.SAFE_CONc_CFG_LEN c))
      && within 1 100 (s.rdColl (R.SAFE_CONc_CFG_SKEW c)) && within 1 2047 (s.rdColl (R.SAFE_CONc_CFG_TXPER c))
      && within 10 65535 (s.rdColl (R.SAFE_CONc_TMO_TMO c)) && within 1 255 (s.rdColl (R.SAFE_CONc_TMO_NCLR c))

/-- Enabled connections of a direction as they would be sealed. -/
def State.collCons (s : State) (dir : Nat) : List Nat :=
  (List.range 8).filter (fun c => s.rdColl (R.SAFE_CONc_CFG_EN c) == 1 && s.rdColl (R.SAFE_CONc_CFG_DIR c) == dir)

/-- Do two of these connections carry one identifier? -/
def twice (f : Nat → Nat) (cs : List Nat) : Bool := cs.any (fun a => cs.any (fun b => a != b && f a == f b))

/-- The first failing code of the safety seal (R445). -/
def State.safeCode (s : State) : Nat :=
  let rx := s.collCons 0
  let tx := s.collCons 1
  if !s.safeRanges then 1
  else if (rx ++ tx).any (fun c => (s.keyTransfer (s.rdColl (R.SAFE_CONc_KEY_KSLOT c)) 0).isNone) then 2
  else if twice (fun c => s.rdColl (R.SAFE_CONc_RXID_ID c)) rx || twice (fun c => s.rdColl (R.SAFE_CONc_TXID_ID c)) tx then 3
  else if rx.any (fun c => decide (s.rdColl (R.SAFE_CONc_TMO_TMO c) ≤ s.rdColl (R.SAFE_CONc_CFG_SKEW c))) then 4
  else 0

/-- The keys of the enabled connections are transferred at the seal (R437). -/
def State.takeKeys (s : State) : State :=
  (List.range 8).foldl (fun s c =>
    let k := if s.rdBit (R.SAFE_CONc_CFG_EN c) then (s.keyTransfer (s.rd (R.SAFE_CONc_KEY_KSLOT c)) 0).getD 0 else 0
    (s.setCon c { s.conS c with key := k }).showFault c) s

/-- A write of GO to `SAFE_SEAL` (R445). -/
def State.safeSeal (s : State) (p : Nat) : State :=
  if s.chState ≠ 0 then s.raiseCore 185 p
  else
    let code := s.safeCode
    let s := if code = 0 then ((s.applyColl 10 .safe none).takeKeys).wr R.SAFE_STAT_SEALED 1
      else s.discardColl 10 .safe none
    (s.wr R.SAFE_SEAL_ERR code).raiseCore 185 p

/-- SAFE_SEAL (R445). -/
def execSafeSeal (p : Port) (s : State) : Out :=
  .next (s.safeFrom p R.SAFE_SEAL fun s => s.safeSeal p.core.val)

end Sys2Proof.Machine
end

