-- ==== Sys2Proof/Machine/Adc.lean ====
section
/-! DEFINITION. The analogue inputs: conversions, windows, urgent requests, calibration, posts and the seal
(15_analogue_inputs, R406 to R421). -/

namespace Sys2Proof.Machine

def State.setAdcs (s : State) (a : AdcsS) : State := { s with adcs := a }
def State.adcRun (s : State) : Bool := s.rdBit R.ADCS_STAT_RUN

/-! ## Lists (R408) -/

def State.nEnt (s : State) (k : Nat) : Nat := s.rd (if k = 0 then R.ADCS_NENT_N0 else R.ADCS_NENT_N1)

/-- The channels of the entries of converter k's list that are due in tick t, in list order (R408). -/
def State.dueAt (s : State) (k t : Nat) : List Nat :=
  ((List.range (min 64 (s.nEnt k))).filter fun e =>
    t % s.rd (R.ADCS_SEQk_e_DIV k e) == s.rd (R.ADCS_SEQk_e_PHASE k e)).map fun e => s.rd (R.ADCS_SEQk_e_CH k e)

/-- The channels converted in the present tick (R408). -/
def State.dueList (s : State) (k : Nat) : List Nat := s.dueAt k s.tickN

/-- The channels the module's own converter k converts in the present tick: a standby's serve the tick its local inputs are tagged
with (R419, R486; DEDUCED: notes/assumptions/34). -/
def State.ownList (s : State) (k : Nat) : List Nat := s.dueAt k (s.tickN + b2n s.isStandby)

/-- The current an RTD channel drives through its sensor, in µA (R406). -/
def State.excitation (s : State) (ch : Nat) : Nat :=
  if 32 ≤ ch && decide (ch < 48) && s.rdBit (R.ADCS_CHn_CFG_EN ch) then (if s.rdBit (R.ADCS_CHn_CFG_RANGE ch) then 250 else 1000)
  else 0

/-- The channel is in the list of a converter. -/
def State.listed (s : State) (ch : Nat) : Bool :=
  (List.range 2).any fun k => (List.range (min 64 (s.nEnt k))).any fun e => s.rd (R.ADCS_SEQk_e_CH k e) == ch

/-! ## Results (R407, R410 to R414) -/

/-- Gain and zero offset in effect for a channel; factory coefficients of internal channels are not stated (free). -/
def State.adcCoef (s : State) (ch : Nat) : Int × Int :=
  if ch < 48 then
    let e := 2 * ch + s.rd (R.ADCS_CHn_CFG_RANGE ch)
    (s.rdI (R.ADCS_CALe_GAIN_GAIN e), s.rdI (R.ADCS_CALe_ZOFF_ZOFF e))
  else (signedOf 32 (Config.freeFun 79 [ch]), signedOf 32 (Config.freeFun 80 [ch]))

/-- The calibrated result of a code (R407). -/
def calibrated (gain zoff code : Int) : Int := clampBits 32 (roundShift (gain * (256 * code - zoff)) 24)

/-- A commit written before a conversion started takes effect (R417). -/
def State.takeCommit (s : State) (ch endCycle : Nat) : State :=
  let c := NMap.get 0 s.adcs.commit ch
  if c != 0 && decide (c - 1 + 600 < s.tickN * Config.cyclesPerTick + endCycle) then
    let s := s.setAdcs { s.adcs with commit := NMap.set 0 s.adcs.commit ch 0 }
    s.swapFields [R.ADCS_CALe_GAIN_GAIN (2 * ch), R.ADCS_CALe_ZOFF_ZOFF (2 * ch), R.ADCS_CALe_GAIN_GAIN (2 * ch + 1),
      R.ADCS_CALe_ZOFF_ZOFF (2 * ch + 1)]
  else s

/-- Has a conversion of the channel that takes its commit started by the present cycle (R409, R411, R417)? -/
def State.commitStarted (s : State) (ch : Nat) : Bool :=
  let w := NMap.get 0 s.adcs.commit ch - 1
  let t0 := s.tickN * Config.cyclesPerTick
  let k := ch % 2
  let starts := ((s.dueList k).zipIdx.filter (fun e => e.1 == ch)).map (fun e => 1200 + 600 * e.2)
  let urg := match NMap.get none s.adcs.urg k with
    | some u => if u.1 = ch then [u.2.2 - 600] else []
    | none => []
  s.adcRun && (starts ++ urg).any (fun c => decide (w < t0 + c) && decide (c ≤ s.cycle))

/-- Commits taken by conversions that have started show in the registers. -/
def State.settleCommits (s : State) : State :=
  s.adcs.commit.foldl (fun s e => if s.commitStarted e.1 then
    ({ s with adcs := { s.adcs with commit := NMap.set 0 s.adcs.commit e.1 0 } }).swapFields
      [R.ADCS_CALe_GAIN_GAIN (2 * e.1), R.ADCS_CALe_ZOFF_ZOFF (2 * e.1), R.ADCS_CALe_GAIN_GAIN (2 * e.1 + 1),
        R.ADCS_CALe_ZOFF_ZOFF (2 * e.1 + 1)]
    else s) s

/-- The bit of a channel in a pair of registers. -/
def chanBit (lo hi ch : Nat) : FieldRef := ⟨if ch < 32 then lo else hi, ch % 32, ch % 32⟩

/-- LO and HI of a channel as its conversion that ends now uses them: those of the cycle before it started (R6, R414). -/
def State.windowOf (s : State) (ch : Nat) : Int × Int :=
  match (s.adcs.winOld.filter (fun e => e.2.1 == ch && decide (s.now ≤ e.1 + 600))).getLast? with
  | some e => e.2.2
  | none => (s.rdI (R.ADCS_WINn_LO_LO ch), s.rdI (R.ADCS_WINn_HI_HI ch))

/-- A write of LO or HI of a channel in the present cycle, after the state s0: conversions in progress go on with the limits before
it (R414). -/
def State.windowWrite (s s0 : State) (ch : Nat) : State :=
  s.setAdcs { s.adcs with
    winOld := (s.now, ch, s0.rdI (R.ADCS_WINn_LO_LO ch), s0.rdI (R.ADCS_WINn_HI_HI ch))
      :: s.adcs.winOld.filter (fun e => decide (s.now ≤ e.1 + 600)) }

/-- The window test of a result (R414). -/
def State.windowTest (s : State) (ch : Nat) (v : Int) : State :=
  let lim := s.windowOf ch
  let side := if v < lim.1 then 1 else if lim.2 < v then 2 else 0
  let was := NMap.get 0 s.adcs.win ch
  let s := s.setAdcs { s.adcs with win := NMap.set 0 s.adcs.win ch side }
  if side ≠ 0 ∧ side ≠ was then
    (s.setBit (chanBit R.ADCS_WINL R.ADCS_WINH ch)).raise (if ch < 32 then 168 else 169) (s.dutiesOf 1) true
  else s

/-- Has a program emptied the channel's tracker in the present cycle (R413)? -/
def State.emptiedNow (s : State) (ch : Nat) : Bool :=
  s.wroteNow.any fun x => x.addr == (if ch < 32 then R.ADCS_MMRSTL else R.ADCS_MMRSTH) && x.val.toNat.testBit (ch % 32)

/-- A result reaches the tracker (R413). -/
def State.track (s : State) (ch : Nat) (v : Int) : State :=
  if s.emptiedNow ch then s
  else
    let s := if v < s.rdI (R.ADCS_MMn_MIN ch) then s.renew (R.ADCS_MMn_MIN ch) (patternOf 32 v) else s
    if s.rdI (R.ADCS_MMn_MAX ch) < v then s.renew (R.ADCS_MMn_MAX ch) (patternOf 32 v) else s

/-- A result takes effect on accumulator, tracker, window and calculators (R410, R412 to R414). -/
def State.adcResult (s : State) (ch : Nat) (v : Int) : State :=
  let s := s.renew (R.ADCS_ACCn_SUM ch) (patternOf 48 (s.rdI (R.ADCS_ACCn_SUM ch) + v))
  let s := (s.renew (R.ADCS_ACCn_COUNT ch) ((s.rd (R.ADCS_ACCn_COUNT ch) + 1) % 65536)).track ch v
  let s := s.setAdcs { s.adcs with last := NMap.set 0 s.adcs.last ch (s.tickN + 1) }
  let s := (s.windowTest ch v).when (decide (48 ≤ ch)) fun s => s.internalCheck.showCauses
  (s.deliverConversion ch v).monitor 7 ch v

/-- A load of a result register in the cycle in which a conversion takes effect returns the values before it (R410). -/
def State.beforeResults (s : State) : State :=
  s.beforeHw fun a => (R.ADCS_ACCn 0 ≤ a && decide (a < R.ADCS_MMn 60)) || a == R.ADCS_WINL || a == R.ADCS_WINH

/-- A scheduled conversion feeds a capture of its channel (R415). -/
def State.feedCapture (s : State) (ch : Nat) (code : Int) : State :=
  match s.adcs.cap with
  | some c => if c.ch = ch && c.left != 0 then
      s.setAdcs { s.adcs with cap := some { c with left := c.left - 1, sum := c.sum + code } } else s
  | none => s

/-- A result takes effect in its cycle, with event 171 where it answers an urgent request of a duty (R410, R411). -/
def State.resultFor (s : State) (ch : Nat) (v : Int) (duty : Option Nat) : State :=
  let s := s.adcResult ch v
  match duty with
  | some d => s.raise 171 [d] false
  | none => s

/-- Does a conversion of a channel by converter 0 end in the present cycle and wait to take effect? -/
def State.endsOnZero (s : State) (ch : Nat) : Bool :=
  ((s.dueList 0)[NMap.get 0 s.adcs.done 0]? == some ch && s.cycle == 1800 + 600 * NMap.get 0 s.adcs.done 0)
    || (match NMap.get none s.adcs.urg 0 with
        | some u => u.1 == ch && s.cycle == u.2.2
        | none => false)

/-- The result of converter k takes effect: where both end a conversion of one internal channel in a cycle, converter 0's is
first (R410). -/
def State.land (s : State) (k ch : Nat) (v : Int) (duty : Option Nat) : State :=
  if k = 1 && s.endsOnZero ch then s.setAdcs { s.adcs with held := some (ch, v, duty) }
  else
    let s := s.resultFor ch v duty
    match s.adcs.held with
    | some h => if k = 0 && h.1 == ch then (s.setAdcs { s.adcs with held := none }).resultFor h.1 h.2.1 h.2.2 else s
    | none => s

/-- A conversion of a channel by converter k ends with a code: it is calibrated and takes effect; a standby keeps it (R407, R410,
R419). -/
def State.conversionEnd (s : State) (k ch cyc : Nat) (code : Int) (duty : Option Nat) : State :=
  let result (s : State) : Int := let c := s.adcCoef ch; calibrated c.1 c.2 code
  if s.isStandby then
    s.capture cyc (.conversion (Fin.ofNat 60 ch) (BitVec.ofInt 32 (result s)) (BitVec.ofInt 18 code) (duty.map (Fin.ofNat 16)))
  else
    let s := s.takeCommit ch cyc
    let v := result s
    let s := (s.noteItem 5 k).when duty.isSome (State.noteItem · 5 k)
    (s.when duty.isNone (State.feedCapture · ch code)).land k ch v duty

/-- The end of a list conversion of converter k with a code. -/
def State.listEnd (s : State) (k : Nat) (code : Int) : State :=
  let j := NMap.get 0 s.adcs.done k
  match (s.ownList k)[j]? with
  | none => s
  | some ch =>
    let cyc := 1200 + 600 * (j + 1)
    ((s.atCycle cyc).setAdcs { s.adcs with done := NMap.set 0 s.adcs.done k (j + 1) }).conversionEnd k ch cyc code none

/-- The end of an urgent conversion of converter k (R411). -/
def State.urgentEnd (s : State) (k : Nat) (code : Int) : State :=
  match NMap.get none s.adcs.urg k with
  | none => s
  | some (ch, duty, cyc) =>
    ((s.atCycle cyc).setAdcs { s.adcs with urg := NMap.set none s.adcs.urg k none }).conversionEnd k ch cyc code (some duty)

/-- ADC_CONVERSION_END (R410): the next due list conversion, or the urgent one, of converter k ends. -/
def execAdcConversionEnd (k : Fin 2) (urgent : Bool) (code : BitVec 18) (s : State) : Out :=
  .next (if !s.adcRun then s
    else if urgent then s.urgentEnd k.val code.toInt else s.listEnd k.val code.toInt)

/-- A conversion that the active's snapshot, or a local input, brings to a standby (R419, R487). -/
def State.conversionIn (s : State) (ch : Nat) (v code : Int) (scheduled : Bool) (duty : Option Nat) : State :=
  if s.adcRun then
    ((s.takeCommit ch s.cycle).when scheduled (State.feedCapture · ch code)).resultFor ch v duty
  else s

/-! ## Urgent requests (R411) -/

/-- Is converter k converting or in start-up in a cycle? -/
def State.adcBusy (s : State) (k cyc : Nat) : Bool :=
  let n := (s.ownList k).length
  (n != 0 && decide (cyc ≤ 1200 + 600 * n))
    || (match NMap.get none s.adcs.urg k with
        | none => false
        | some u => decide (cyc ≤ u.2.2))

/-- An urgent request is dropped: counted in DROP or LATE, event 170 to the duty that wrote it. -/
def State.urgentDrop (s : State) (late : Bool) (duty : Nat) : State :=
  (s.inc (if late then R.ADCS_URGST_LATE else R.ADCS_URGST_DROP)).raise 170 [duty] false

/-- A write to `ADCS_URG` (R411): requests that reach a converter in one cycle are taken in ascending core number. On a standby that
follows the snapshot the active's outcome comes with it (R419). -/
def State.urgent (s : State) (ch conv p : Nat) : State :=
  let k := if ch < 48 then ch % 2 else conv
  let d := s.dutyOf p
  let start (s : State) : State := s.setAdcs { s.adcs with urg := NMap.set none s.adcs.urg k (some (ch, d, s.cycle + 1800)) }
  let drop (s : State) (late : Bool) (duty : Nat) : State := (s.noteItem 5 k).urgentDrop late duty
  if s.onSnapshot then s
  else if !s.adcRun || decide (60 ≤ ch) || !s.rdBit (R.ADCS_CHn_CFG_EN ch) then drop s false d
  else if s.adcBusy k s.cycle then
    match NMap.get none s.adcs.urg k with
    | some u => if u.2.2 = s.cycle + 1800 && decide (p < s.physOf u.2.1) then start (drop s false u.2.1)
                else drop s false d
    | none => drop s false d
  else if 58200 ≤ s.cycle then drop s true d
  else start s

/-- URGENT_REQUEST (R411). -/
def execUrgentRequest (p : Port) (ch : BitVec 6) (conv : Fin 2) (s : State) : Out :=
  .next (s.byCore p fun s => (s.hold R.ADCS_URG (ch.toNat + 64 * conv.val)).urgent ch.toNat conv.val p.core.val)

/-- A write to `ADCS_MMRSTL` or `ADCS_MMRSTH` (R413). It is noted: a conversion that takes effect in this cycle comes before it. -/
def State.trackerReset (s : State) (high : Bool) (v : Nat) : State :=
  (List.range 32).foldl (fun s b =>
    let ch := b + (if high then 32 else 0)
    if v.testBit b && decide (ch < 60) then
      (s.wr (R.ADCS_MMn_MIN ch) 0x7FFFFFFF).wr (R.ADCS_MMn_MAX ch) 0x80000000
    else s) (s.noteWrote (if high then R.ADCS_MMRSTH else R.ADCS_MMRSTL) 0 0 (BitVec.ofNat 32 v))

/-- TRACKER_RESET (R413). -/
def execTrackerReset (p : Port) (high : Bool) (v : Word) (s : State) : Out :=
  .next (s.byCore p fun s => s.trackerReset high v.toNat)

/-! ## Calibration (R415 to R417) -/

/-- A calibration command fails (R416). -/
def State.calFail (s : State) (code p : Nat) : State := (s.wr R.ADCS_CALST_ERR code).raiseCoreSup 173 p

/-- Codes 1 to 4 (R416). -/
def State.calCode (s : State) (ch range op nlog : Nat) : Nat :=
  if decide (47 < ch) || op == 0 || (op != 3 && (decide (nlog < 4) || decide (16 < nlog))) then 1
  else if !s.adcRun || !s.rdBit (R.ADCS_CHn_CFG_EN ch) || !s.listed ch then 2
  else if range ≠ s.rd (R.ADCS_CHn_CFG_RANGE ch) then 3
  else if s.rdBit R.ADCS_CALST_BUSY then 4 else 0

def State.showPts (s : State) : State :=
  let z := match s.adcs.pts with
    | some p => p.zero.isSome
    | none => false
  let f := match s.adcs.pts with
    | some p => p.full.isSome
    | none => false
  (s.wrBit R.ADCS_CALST_ZHELD z).wrBit R.ADCS_CALST_FHELD f

/-- OP 1 or OP 2 (R415). -/
def State.calCapture (s : State) (ch range op nlog p : Nat) : State :=
  let code := s.calCode ch range op nlog
  if code ≠ 0 then s.calFail code p
  else
    let keep := match s.adcs.pts with
      | some x => if x.ch = ch && x.range = range then x else ⟨ch, range, none, none⟩
      | none => ⟨ch, range, none, none⟩
    let run : CapRun := ⟨ch, range, op, nlog, 2 ^ nlog, 0, s.rdI R.ADCS_CALREF_REF, s.dutyOf p⟩
    let s := (s.setAdcs { s.adcs with cap := some run, pts := some keep }).showPts
    (s.wr R.ADCS_CALST_BUSY 1).wr R.ADCS_CALST_ERR 0

/-- The word that `ADCS_CALCMD` takes (R421). -/
def calWord (ch : BitVec 6) (range : BitVec 1) (op nlog : Nat) : Nat := ch.toNat + 64 * range.toNat + 256 * op + 1024 * nlog

/-- CAL_CAPTURE_ZERO (R415). -/
def execCalCaptureZero (p : Port) (ch : BitVec 6) (range : BitVec 1) (nlog : BitVec 5) (s : State) : Out :=
  .next (s.byCore p fun s => (s.hold R.ADCS_CALCMD (calWord ch range 1 nlog.toNat)).calCapture ch.toNat range.toNat 1 nlog.toNat
    p.core.val)
/-- CAL_CAPTURE_FULL_SCALE (R415). -/
def execCalCaptureFullScale (p : Port) (ch : BitVec 6) (range : BitVec 1) (nlog : BitVec 5) (s : State) : Out :=
  .next (s.byCore p fun s => (s.hold R.ADCS_CALCMD (calWord ch range 2 nlog.toNat)).calCapture ch.toNat range.toNat 2 nlog.toNat
    p.core.val)

/-- CAL_CAPTURE_COMPLETE (R415): the capture's conversions are all in; the mean is held as a point, event 172. -/
def execCalCaptureComplete (s : State) : Out :=
  .next (match s.adcs.cap with
    | none => s
    | some c =>
      if c.left ≠ 0 then s
      else
        let m := roundShift (256 * c.sum) c.nlog
        let q := match s.adcs.pts with
          | some x => x
          | none => ⟨c.ch, c.range, none, none⟩
        let q := if c.op = 1 then { q with zero := some (c.ref, m) } else { q with full := some (c.ref, m) }
        let s := (s.setAdcs { s.adcs with cap := none, pts := some q }).showPts
        (s.wr R.ADCS_CALST_BUSY 0).raise 172 [c.duty] false)

/-- The nominal gain of a calibration entry (R407). -/
def nominalGain (e : Nat) : Int :=
  if e < 64 then (if e % 2 = 0 then 0x004E2000 else 0x00BB8000) else if e % 2 = 0 then 0x00032000 else 0x001F4000

/-- One quarter of a channel's nominal span in 1/256 codes (R416 code 6). -/
def quarterSpan (ch : Nat) : Nat := 256 * (if ch < 32 then 65536 else 32768)

/-- a / b rounded half upwards. -/
def calQuot (a b : Int) : Int := if 0 < b then (2 * a + b) / (2 * b) else (-2 * a - b) / (-2 * b)

/-- GAIN and ZOFF from the two points, or the failing code (R415, R416). -/
def calResult (ch e : Nat) (z f : Int × Int) : Nat ⊕ (Int × Int) :=
  if (f.2 - z.2).natAbs < quarterSpan ch then .inl 6
  else
    let g := calQuot (2 ^ 24 * (f.1 - z.1)) (f.2 - z.2)
    let n := nominalGain e
    if 100 * g < 95 * n ∨ 105 * n < 100 * g then .inl 7
    else .inr (g, z.2 - calQuot (2 ^ 24 * z.1) g)

/-- OP 3 (R415). -/
def State.calCompute (s : State) (ch range p : Nat) : State :=
  let s := s.settleCommits
  let code := s.calCode ch range 3 4
  if code ≠ 0 then s.calFail code p
  else match s.adcs.pts with
    | some ⟨c, r, some z, some f⟩ =>
      if c ≠ ch ∨ r ≠ range then s.calFail 5 p
      else
        let e := 2 * ch + range
        match calResult ch e z f with
        | .inl code => s.calFail code p
        | .inr (g, o) =>
          let s := (s.wrShadow (R.ADCS_CALe_GAIN_GAIN e) (patternOf 32 g)).wrShadow (R.ADCS_CALe_ZOFF_ZOFF e)
            (patternOf 32 o)
          let s := s.setAdcs { s.adcs with pts := none, calFlag := NMap.set 0 s.adcs.calFlag e 1,
                                           calSec := NMap.set 0 s.adcs.calSec e (s.rd R.RTCB_TIME_SEC) }
          (s.showPts.wr R.ADCS_CALST_ERR 0).raiseCore 172 p
    | _ => s.calFail 5 p

/-- CAL_COMPUTE (R415). -/
def execCalCompute (p : Port) (ch : BitVec 6) (range : BitVec 1) (s : State) : Out :=
  .next (s.byCore p fun s => (s.hold R.ADCS_CALCMD (calWord ch range 3 0)).calCompute ch.toNat range.toNat p.core.val)

/-- A write to `ADCS_CALCOMMIT` (R416, R417): a commit whose conversion has started is taken first; one that still waits stands for
this write too. -/
def State.calCommit (s : State) (ch p : Nat) : State :=
  let s := s.settleCommits
  if 47 < ch then s.calFail 1 p
  else
    let s := s.wr R.ADCS_CALST_ERR 0
    if NMap.get 0 s.adcs.commit ch ≠ 0 then s
    else s.setAdcs { s.adcs with commit := NMap.set 0 s.adcs.commit ch (s.now + 1) }

/-- CAL_COMMIT (R417). -/
def execCalCommit (p : Port) (ch : BitVec 6) (s : State) : Out :=
  .next (s.byCore p fun s => (s.hold R.ADCS_CALCOMMIT ch.toNat).calCommit ch.toNat p.core.val)

def calWords : Nat := 200
def State.calArea (s : State) : Nat := mramBase + s.rd R.ADCS_CBASE_CBASE
/-- The chosen copy of the calibration area at an address (R591). -/
def State.calChosen (s : State) (area : Nat) : Option (Nat × Nat) :=
  chooseCopy (copyGen s.mem area calWords 0x4143) (copyGen s.mem (area + 0x800) calWords 0x4143)

/-- The data words of a calibration copy (R417). -/
def State.calImage (s : State) (gen : Nat) : List Nat :=
  [0x4143 + 2 ^ 16 + 2 ^ 32 * gen, 0, 0, 0, 0, 0, 0, 0] ++ (List.range 96).flatMap fun e =>
    [s.rd (R.ADCS_CALe_GAIN_GAIN e) + 2 ^ 32 * s.rd (R.ADCS_CALe_ZOFF_ZOFF e),
     NMap.get 0 s.adcs.calSec e % 2 ^ 48 + 2 ^ 48 * NMap.get 0 s.adcs.calFlag e]

/-- A write of STORE (R417). -/
def State.calStoreReq (s : State) (p : Nat) : State :=
  if s.rdBit R.ADCS_STAT_LBUSY then s.calFail 4 p
  else
    let w := writeCopy (s.calChosen s.calArea)
    let s := (s.wr R.ADCS_STAT_LBUSY 1).setAdcs { s.adcs with op := some (1, s.dutyOf p), opArea := s.calArea }
    { s with mem := copyOpen s.mem (s.calArea + 0x800 * w.1) calWords }

/-- A write of LOAD (R417). -/
def State.calLoadReq (s : State) (p : Nat) : State :=
  if s.rdBit R.ADCS_STAT_LBUSY then s.calFail 4 p
  else if s.adcRun then s.calFail 10 p
  else (s.wr R.ADCS_STAT_LBUSY 1).setAdcs { s.adcs with op := some (2, s.dutyOf p), opArea := s.calArea }

/-- CAL_STORE (R417). -/
def execCalStore (p : Port) (s : State) : Out := .next (s.byCore p fun s => s.calStoreReq p.core.val)
/-- CAL_LOAD (R417). -/
def execCalLoad (p : Port) (s : State) : Out := .next (s.byCore p fun s => s.calLoadReq p.core.val)

/-- Both banks of every entry from the data words of a copy, or nominal (R417). -/
def State.calTake (s : State) (ws : Option (List Nat)) : State :=
  (List.range 96).foldl (fun s e =>
    let g := R.ADCS_CALe_GAIN_GAIN e
    let z := R.ADCS_CALe_ZOFF_ZOFF e
    match ws with
    | none =>
      let s := (s.wrBoth g (patternOf 32 (nominalGain e))).wrBoth z 0
      s.setAdcs { s.adcs with calFlag := NMap.set 0 s.adcs.calFlag e 0, calSec := NMap.set 0 s.adcs.calSec e 0 }
    | some ws =>
      let a := ws.getD (8 + 2 * e) 0
      let b := ws.getD (9 + 2 * e) 0
      let s := (s.wrBoth g (bitsOf a 31 0)).wrBoth z (bitsOf a 63 32)
      s.setAdcs { s.adcs with calFlag := NMap.set 0 s.adcs.calFlag e (bitsOf b 55 48),
                              calSec := NMap.set 0 s.adcs.calSec e (bitsOf b 47 0) }) s

/-- A store or load ends with a code (R417). -/
def State.calEnd (s : State) (code duty : Nat) : State :=
  let s := s.wr R.ADCS_CALST_ERR code
  if code = 0 then s.raise 174 [duty] false else s.raise 173 [duty] true

/-- CAL_STORE_LOAD_COMPLETE (R417): the end of a store, or of a load; ok tells that no MRAM store failed. -/
def execCalStoreLoadComplete (ok : Bool) (s : State) : Out :=
  .next (match s.adcs.op with
    | none => s
    | some (op, duty) =>
      let s := (s.settleCommits.wr R.ADCS_STAT_LBUSY 0).setAdcs { s.settleCommits.adcs with op := none }
      let area := s.adcs.opArea
      let c := s.calChosen area
      if op = 1 then
        if ok then
          let w := writeCopy c
          ({ s with mem := copyClose s.mem (area + 0x800 * w.1) (s.calImage w.2) }).calEnd 0 duty
        else s.calEnd 8 duty
      else match c with
        | none => ((s.calTake none).wr R.ADCS_CALST_NOCAL 1).calEnd 9 duty
        | some (k, _) =>
          ((s.calTake (some (memWords s.mem (area + 0x800 * k) calWords))).wr R.ADCS_CALST_NOCAL 0).calEnd 0 duty)

/-! ## Seal, post and tick edge (R418, R421) -/

/-- An entry's channel is wired to its converter (code 1). -/
def wired (k ch : Nat) : Bool := if ch < 48 then ch % 2 == k else decide (ch < 60)

/-- The list entries of the collected group as (converter, channel, DIV, PHASE). -/
def State.adcEntries (s : State) : List (Nat × Nat × Nat × Nat) :=
  (List.range 2).flatMap fun k =>
    let n := s.rdColl (if k = 0 then R.ADCS_NENT_N0 else R.ADCS_NENT_N1)
    (List.range (min 64 n)).map fun e =>
      (k, s.rdColl (R.ADCS_SEQk_e_CH k e), s.rdColl (R.ADCS_SEQk_e_DIV k e), s.rdColl (R.ADCS_SEQk_e_PHASE k e))

/-- The first failing code of the sequencer's seal (R421). -/
def State.adcCode (s : State) : Nat :=
  let es := s.adcEntries
  let cb := s.rdColl R.ADCS_CBASE_CBASE
  if es.any (fun e => !wired e.1 e.2.1) then 1
  else if es.any (fun e => !inSpan 1 1000 e.2.2.1 || decide (e.2.2.1 ≤ e.2.2.2)) then 2
  else if (List.range 12).any (fun j => s.rdColl (R.ADCS_CHn_CFG_RANGE (48 + j)) == 1) then 3
  else if es.any (fun e => s.rdColl (R.ADCS_CHn_CFG_EN e.2.1) == 0) then 4
  else if 64 < s.rdColl R.ADCS_NENT_N0 ∨ 64 < s.rdColl R.ADCS_NENT_N1 then 5
  else if 262144 < s.rdColl R.ADCS_PBASE_PBASE + 128 then 6
  else if cb % 4096 ≠ 0 ∨ mramBytes < cb + 0x800 + 8 * (calWords + 1) ∨ cb < 0x600000 then 7 else 0

/-- Channels that a seal enables begin inside their window (R414). -/
def State.enableWindows (old s : State) : State :=
  (List.range 60).foldl (fun s n =>
    if !old.rdBit (R.ADCS_CHn_CFG_EN n) && s.rdBit (R.ADCS_CHn_CFG_EN n) then
      s.setAdcs { s.adcs with win := NMap.set 0 s.adcs.win n 0 } else s) s

/-- A write of GO to `ADCS_SEAL` (R421). -/
def State.adcSeal (s : State) (p : Nat) : State :=
  if s.adcRun then s.raiseCore 175 p
  else
    let code := s.adcCode
    let s := if code = 0 then State.enableWindows s (s.applyColl 9 .adcs none)
      else (s.discardColl 9 .adcs none).raiseCore 175 p
    s.wr R.ADCS_SEAL_ERR code

/-- ADC_SEAL (R421). -/
def execAdcSeal (p : Port) (s : State) : Out := .next (s.byCore p fun s => s.adcSeal p.core.val)

/-- A 64-bit register as its word. -/
def State.wide (s : State) (a : Nat) : Nat := (s.word a).toNat + 2 ^ 32 * (s.word (a + 4)).toNat

/-- The 128 words of the ADC region (R418). -/
def State.adcWords (s : State) : List Nat :=
  [s.tickN % 2 ^ 32 + 2 ^ 32 * s.rd R.ADCS_CALST_NOCAL, 0, 0, 0]
    ++ (List.range 60).map (fun n => s.wide (R.ADCS_ACCn n)) ++ (List.range 60).map (fun n => s.wide (R.ADCS_MMn n))
    ++ [0, 0, 0, 0]

/-- ADC_POST (R418): at cycle 57,000 of a tick whose count mod 10 is 9. -/
def execAdcPost (s : State) : Out :=
  .next (if s.adcs.pen && s.adcRun && s.tickN % 10 == 9 then
      (s.atCycle 57000).postHw 23 (s.rd R.ADCS_PBASE_PBASE) s.adcWords
    else s)

/-- The sequencer's part of a tick edge: EN and PEN are sampled, and the lists start afresh (R408, R421). -/
def State.adcEdge (s : State) : State :=
  let s := s.when (!s.adcRun && s.rdBit R.ADCS_CTRL_EN) (State.discardColl · 9 .adcs none)
  let s := s.wrBit R.ADCS_STAT_RUN (s.rdBit R.ADCS_CTRL_EN)
  s.setAdcs { s.adcs with pen := s.rdBit R.ADCS_CTRL_PEN, done := [], urg := [], held := none }

end Sys2Proof.Machine
end

