-- ==== Sys2Proof/Machine/Rioft.lean ====
section
/-! DEFINITION. Blocks on the Rioft link as a pair member sends them (18_pair_and_referee, R482, R489). -/

namespace Sys2Proof.Machine

def State.setPair (s : State) (x : PairS) : State := { s with pair := x }
def State.pstate (s : State) : Nat := s.rd R.PAIR_STAT_STATE
def rioftLink : Nat := 5
def refLinkA : Nat := 6
def refLinkB : Nat := 7
def markerLink : Nat := 8

/-! ## Blocks on the Rioft link (R482, R483) -/

/-- The first 16 bytes of the HMAC, as a number. -/
def tag16 (key : Nat) (bs : List Nat) : Nat := hmac512 key bs / 2 ^ 384

/-- The TAG of a block; the first block after training covers the other side's nonce as well. -/
def blockTag (key nonce seq : Nat) (bs : List Nat) : List Nat :=
  beBytes 16 (tag16 key (bs ++ (if seq = 0 then leBytes 16 nonce else [])))

/-- LEN as a block may have it (R482). -/
def blockLen (n : Nat) : Bool := decide (n ≤ 4032) && n % 8 == 0

/-- Put a block on the link (R482); a fenced member sends only idle symbols (R494). -/
def State.rioftPut (s : State) (typ flags tick cychi : Nat) (body : List Nat) : State :=
  let x := s.pair
  if !x.trained || s.pstate == 5 || !blockLen body.length then s
  else
    let h := [typ, flags] ++ leBytes 2 body.length ++ leBytes 4 tick ++ leBytes 4 x.txSeq ++ leBytes 2 cychi ++ [0, 0] ++ body
    let h := h ++ blockTag x.keyL x.noncePeer x.txSeq h
    (s.setPair { x with txSeq := (x.txSeq + 1) % 2 ^ 32 }).send rioftLink (h ++ leBytes 4 (crc32c h))

/-- The active sends the output hash of the tick just ended, once in a tick (R489). -/
def State.sendHash (s : State) : State :=
  if s.isActive && s.pair.trained && s.pair.hashAt != s.tickN + 1 then
    match s.pair.own with
    | some h => (s.setPair { s.pair with hashAt := s.tickN + 1 }).rioftPut 2 0 h.1 0 (beBytes 16 h.2)
    | none => s
  else s

/-- Send a block (R482); the hash goes first after the edge of a tick (R489). -/
def State.rioftSend (s : State) (typ flags tick cychi : Nat) (body : List Nat) : State :=
  s.sendHash.rioftPut typ flags tick cychi body

/-- A control block. -/
def State.rioftControl (s : State) (code arg : Nat) : State :=
  s.rioftSend 4 0 s.tickN 0 (leBytes 4 code ++ leBytes 4 arg)

end Sys2Proof.Machine
end

