-- ==== Sys2Proof/Machine/Quarter.lean ====
section
/-! DEFINITION. The quarter model: reading and checking a generation, switching, holding and scanning
(05_quarter_model, R145 to R167). -/

namespace Sys2Proof.Machine

def State.setQm (s : State) (q : QmS) : State := { s with qm := q }

/-! ## Layout (R145, R150) -/

/-- Offset of a section from BASE and its record size in bytes. -/
def sectOff (k : Nat) : Nat := [0, 0x1000, 0x12000, 0x53000, 0x54000, 0x55000, 0x66000, 0xA7000].getD k 0
def sectSize (k : Nat) : Nat := [64, 32, 64, 128, 128, 64, 64, 64].getD k 0
def qmSpan : Nat := 0xAC000

/-- Bytes off to off + n − 1 of a record held as a little-endian number (R147). -/
def recField (r off n : Nat) : Nat := bitsOf r (8 * (off + n) - 1) (8 * off)
def recZero (r off n : Nat) : Bool := recField r off n == 0
def recSigned (r off n : Nat) : Int := signedOf (8 * n) (recField r off n)

/-- Records of a section from its data words. -/
def recordsOf (wordsPer : Nat) : Nat → List Nat → List Nat
  | 0, _ => []
  | n + 1, ws => leNat (wordsBytes (ws.take wordsPer)) :: recordsOf wordsPer n (ws.drop wordsPer)

/-- Section counts of a header record: index 0 the header itself (R150). -/
def headerCounts (h : Nat) : List Nat :=
  [1, recField h 8 2, recField h 10 2, recField h 12 1, recField h 13 1, recField h 14 2, recField h 16 2, recField h 18 2]

/-! ## Record checks (R151 to R157, R159 codes 8 to 10) -/

/-- What the checks of one record refer to: the section counts and the circuit of each node. -/
structure QmCtx where
  counts : List Nat
  circ : List Nat

def QmCtx.count (x : QmCtx) (k : Nat) : Nat := x.counts.getD k 0
def QmCtx.names (x : QmCtx) (k i : Nat) : Bool := decide (i < x.count k)
def QmCtx.namesOrNone (x : QmCtx) (k i : Nat) : Bool := i == 0xFFFF || x.names k i

/-- The first code whose conditions fail: range checks 8, existence checks 9, conventions 10. -/
def recCode (ok8 ok9 ok10 : Bool) : Nat := if !ok8 then 8 else if !ok9 then 9 else if !ok10 then 10 else 0

def inRange (lo hi x : Nat) : Bool := decide (lo ≤ x) && decide (x ≤ hi)

def nodeCode (r : Nat) : Nat :=
  recCode (inRange 1 4 (recField r 0 1) && inRange 0 16 (recField r 16 1) && bitsOf (recField r 17 1) 7 2 == 0
      && recZero r 20 12)
    (inRange 0 15 (recField r 1 1))
    (decide (recField r 4 2 ≤ recField r 6 2) && decide (recSigned r 8 2 ≤ recSigned r 10 2))

def pipeCode (x : QmCtx) (r : Nat) : Nat :=
  let f := recField r 0 2
  let t := recField r 2 2
  let fl := recField r 23 1
  recCode (bitsOf fl 7 3 == 0 && recZero r 31 1 && recZero r 36 28)
    (x.names 1 f && x.names 1 t && inRange 0 15 (recField r 22 1) && x.namesOrNone 7 (recField r 28 2))
    (f != t && x.circ.getD f 0 == x.circ.getD t 0 && recField r 4 4 != 0 && recField r 8 4 != 0
      && recField r 12 2 != 0 && bitsOf fl 1 0 != 3)

def plantCode (x : QmCtx) (r : Nat) : Nat :=
  let na := recField r 52 1
  recCode (inRange 1 6 (recField r 0 1) && decide (recField r 6 2 < 16)
      && (inRange 0 3 (recField r 44 1) || recField r 44 1 == 0xFF)
      && (inRange 0 7 (recField r 45 1) || recField r 45 1 == 0xFF) && inRange 0 16 na && recZero r 53 1
      && recZero r 68 60)
    (inRange 0 15 (recField r 1 1) && x.names 1 (recField r 2 2) && x.names 1 (recField r 4 2)
      && (na == 0 || decide (recField r 50 2 + na ≤ x.count 7)))
    (decide (recField r 8 4 ≤ recField r 12 4) && decide (recSigned r 24 2 ≤ recSigned r 26 2)
      && decide (recField r 60 4 ≤ recField r 64 4))

def storeCode (x : QmCtx) (r : Nat) : Nat :=
  let na := recField r 36 1
  let nr := recField r 40 1
  recCode (inRange 1 2 (recField r 0 1) && inRange 1 32 (recField r 6 1) && recZero r 7 1
      && inRange 0 10000 (recField r 30 2) && inRange 0 10000 (recField r 32 2) && recZero r 37 1 && recZero r 41 87)
    (inRange 0 15 (recField r 1 1) && x.names 1 (recField r 2 2) && x.names 1 (recField r 4 2)
      && (na == 0 || decide (recField r 34 2 + na ≤ x.count 7))
      && (nr == 0 || decide (recField r 38 2 + nr ≤ x.count 6)))
    (decide (recSigned r 24 2 ≤ recSigned r 26 2) && decide (recField r 30 2 ≤ recField r 32 2))

/-- BUS and STATION of a substation record as one number (R155). -/
def busStation (r : Nat) : Nat := recField r 4 2

def subCode (x : QmCtx) (seen : List Nat) (r : Nat) : Nat :=
  let fl := recField r 7 1
  recCode (inRange 0 63 (recField r 5 1) && inRange 1 3 (recField r 6 1) && decide (fl < 4) && recZero r 30 34)
    (x.names 1 (recField r 0 2) && x.names 1 (recField r 2 2) && inRange 0 15 (recField r 4 1))
    (fl != 3 && !(seen.contains (busStation r)))

/-- The section an ELEMK code names (R156, R157). -/
def elemSect (k : Nat) : Nat := if k = 6 then 7 else k

def refCode (x : QmCtx) (r : Nat) : Nat :=
  let q := recField r 0 1
  let k := recField r 1 1
  recCode (inRange 1 9 q && inRange 1 6 k && inRange 1 7 (recField r 6 1) && recZero r 7 1
      && (q == 3 || recField r 4 2 == 0xFFFF) && decide (recField r 32 1 < 8) && recZero r 33 31)
    (x.names (elemSect k) (recField r 2 2) && (q != 3 || x.names 1 (recField r 4 2)))
    true

def actCode (x : QmCtx) (r : Nat) : Nat :=
  let d := recField r 1 1
  let k := recField r 8 1
  let top := if d = 1 then 512 else if d = 2 then 8 else 24
  recCode (inRange 1 6 (recField r 0 1) && inRange 1 3 d && (k == 0 || k == 3 || k == 4) && decide (recField r 9 1 < 8)
      && inRange 0 10000 (recField r 10 2) && inRange 0 10000 (recField r 12 2) && inRange 0 10000 (recField r 16 2)
      && inRange 0 10000 (recField r 18 2) && inRange 0 10000 (recField r 24 2) && recZero r 32 32)
    (decide (recField r 2 2 < top) && x.namesOrNone 2 (recField r 4 2) && (k == 0 || x.names k (recField r 6 2))
      && x.namesOrNone 6 (recField r 30 2))
    (decide (recField r 10 2 ≤ recField r 12 2) && decide (recField r 16 2 ≤ recField r 18 2))

/-- The code of one record of section k. -/
def sectCode (x : QmCtx) (k : Nat) (seen : List Nat) (r : Nat) : Nat :=
  match k with
  | 1 => nodeCode r
  | 2 => pipeCode x r
  | 3 => plantCode x r
  | 4 => storeCode x r
  | 5 => subCode x seen r
  | 6 => refCode x r
  | _ => actCode x r

/-- The first failing record of a section: its index and code. -/
def firstBad (x : QmCtx) (k : Nat) : List Nat → Nat → List Nat → Option (Nat × Nat)
  | _, _, [] => none
  | seen, i, r :: rs =>
    let c := sectCode x k seen r
    if c ≠ 0 then some (i, c) else firstBad x k (busStation r :: seen) (i + 1) rs

/-- A failed check of a generation: the code, the section and the record where the manual names one. -/
structure QmFail where
  code : Nat
  sect : Option Nat
  record : Option Nat

/-- One section as the block reads it: its data words, its check code (5 to 7, 0 when sound) and the state after. -/
def State.readSection (s : State) (base k count : Nat) : List Nat × Nat × State :=
  let n := count * sectSize k / 8
  let a := base + sectOff k
  let w := s.readWords busPort a n
  let cw := w.2.2.commonsRead busPort (a + 8 * n) 8
  (w.1, ckCode (verifyCheck w.1 cw.1) (w.2.1 || cw.2.1), cw.2.2)

/-- Sections 1 to 7 in order, records before check words (R159 step 4); the records read so far by section. -/
def State.checkSections (base : Nat) (counts : List Nat) :
    List Nat → List (Nat × List Nat) → State → Option QmFail × List (Nat × List Nat) × State
  | [], acc, s => (none, acc, s)
  | k :: ks, acc, s =>
    let n := counts.getD k 0
    if n = 0 then State.checkSections base counts ks acc s
    else
      let r := s.readSection base k n
      let rs := recordsOf (sectSize k / 8) n r.1
      let nodes := if k = 1 then rs else ((acc.find? (fun e => e.1 == 1)).map Prod.snd).getD []
      let x : QmCtx := ⟨counts, nodes.map (fun r => recField r 1 1)⟩
      match firstBad x k [] 0 rs with
      | some (i, c) => (some ⟨c, some k, some i⟩, acc, r.2.2)
      | none =>
        if r.2.1 ≠ 0 then (some ⟨r.2.1, some k, none⟩, acc, r.2.2)
        else State.checkSections base counts ks ((k, rs) :: acc) r.2.2

/-- The counts of a header are in range (R150, code 4). -/
def countsOk (c : List Nat) : Bool :=
  inRange 1 2048 (c.getD 1 0) && decide (c.getD 2 0 ≤ 4096) && decide (c.getD 3 0 ≤ 16) && decide (c.getD 4 0 ≤ 16)
    && decide (c.getD 5 0 ≤ 1024) && decide (c.getD 6 0 ≤ 4096) && decide (c.getD 7 0 ≤ 256)

def recsOf (acc : List (Nat × List Nat)) (k : Nat) : List Nat := ((acc.find? (fun e => e.1 == k)).map Prod.snd).getD []

/-- Code 11: the sum of FRONTMAX, and the actuators with FLAGS[0] = 1. -/
def code11 (acc : List (Nat × List Nat)) : Bool :=
  decide (4096 < ((recsOf acc 2).map (fun r => recField r 30 1)).sum)
    || decide (64 < ((recsOf acc 7).filter (fun r => recField r 9 1 % 2 == 1)).length)

/-! ## Generations (R158, R161, R162) -/

def State.qmActive (s : State) (g : Nat) : Bool := s.rdBit R.FUSA_QM_STAT_AVALID && s.rd R.FUSA_QM_STAT_ACTG == g
def State.qmSealed (s : State) (g : Nat) : Bool := s.rdBit (R.FUSA_QMg_SEAL_SEALED g)
def State.qmHeld (s : State) (g : Nat) : Bool := (NMap.get none s.qm.hold g).isSome

/-- Generation g is running in the sense of R8 (R158). -/
def State.qmRunning (s : State) (g : Nat) : Bool :=
  s.qmActive g || (s.rdShadow R.FUSA_QM_SEL_ACT == g && s.qmSealed g) || s.rdBit (R.FUSA_QMg_SEAL_BUSY g) || s.qmHeld g

/-- FREE0 and FREE1 show the generations not running. -/
def State.showFree (s : State) : State :=
  (s.wrBit R.FUSA_QM_STAT_FREE0 (!s.qmRunning 0)).wrBit R.FUSA_QM_STAT_FREE1 (!s.qmRunning 1)

/-- A write of GO to a generation's seal word (R158, R159). -/
def State.qmSealStart (s : State) (g p : Nat) : State :=
  if s.qmRunning g then s.raiseCore 89 p
  else
    let s := (s.wr (R.FUSA_QMg_SEAL_SEALED g) 0).wr (R.FUSA_QMg_SEAL_BUSY g) 1
    (s.setQm { s.qm with sealBy := NMap.set none s.qm.sealBy g (some (s.dutyOf p)) }).showFree

/-- The region of generation g: the one being sealed while its seal is in progress, else the one in effect (R158, R159). -/
def State.qmRegion (s : State) (g : Nat) : Nat :=
  if s.rdBit (R.FUSA_QMg_SEAL_BUSY g) then s.rdColl (R.FUSA_QMg_BASE_BASE g) else s.rd (R.FUSA_QMg_BASE_BASE g)

/-- The checks of R159 in their order, with MSEQ on success. -/
def State.qmCheck (s : State) (g base : Nat) : Option QmFail × Nat × State :=
  let o := 1 - g
  let ob := s.qmRegion o
  if base % 4096 != 0 || decide (commonsBytes < base + qmSpan) then (some ⟨1, none, none⟩, 0, s)
  else if (s.qmSealed o || s.qmRunning o) && decide (base < ob + qmSpan) && decide (ob < base + qmSpan) then
    (some ⟨2, none, none⟩, 0, s)
  else
    let h := s.readSection base 0 1
    let hdr := leNat (wordsBytes h.1)
    let counts := headerCounts hdr
    let mseq := recField hdr 4 4
    let old := NMap.get 0 h.2.2.qm.mseq (s.rd R.FUSA_QM_STAT_ACTG)
    if h.2.1 ≠ 0 then (some ⟨h.2.1, some 0, none⟩, 0, h.2.2)
    else if recField hdr 0 2 != 0x514D || recField hdr 2 2 != 1 then (some ⟨3, some 0, some 0⟩, 0, h.2.2)
    else if !countsOk counts then (some ⟨4, some 0, some 0⟩, 0, h.2.2)
    else if s.rdBit R.FUSA_QM_STAT_AVALID && decide (mseq < old) then (some ⟨12, some 0, some 0⟩, 0, h.2.2)
    else
      let r := State.checkSections base counts [1, 2, 3, 4, 5, 6, 7] [] h.2.2
      match r.1 with
      | some f => (some f, 0, r.2.2)
      | none => if code11 r.2.1 then (some ⟨11, none, none⟩, 0, r.2.2) else (none, mseq, r.2.2)

/-- EREC of a failure: the section and record where the manual names them, a free value where it does not. -/
def State.setErec (s : State) (g : Nat) (f : QmFail) : State :=
  let d := s.draw
  let sect := f.sect.getD (Config.freeNat 1 d.1)
  let r := f.record.getD (Config.freeNat 2 d.1)
  (d.2.wr (R.FUSA_QMg_EREC_SECT g) sect).wr (R.FUSA_QMg_EREC_REC g) r

/-- A carried check that failed in the model is reported under R139. -/
def State.qmStage2 (s : State) (base : Nat) (f : QmFail) (counts : List Nat) : State :=
  let k := f.sect.getD 0
  s.when (f.code == 5 || f.code == 6)
    (State.carriedFail · (base + sectOff k + (if k = 0 then 64 else counts.getD k 0 * sectSize k)) 4 false)

/-- QM_SEAL_COMPLETE (R159): the seal ends with SEALED, or with ERR and EREC, and raises event 88. -/
def execQmSealComplete (g : Fin 2) (s : State) : Out :=
  .next (match NMap.get none s.qm.sealBy g.val with
    | none => s
    | some duty =>
      let base := s.rdColl (R.FUSA_QMg_BASE_BASE g.val)
      let r := s.qmCheck g.val base
      let s := r.2.2
      let s := s.setQm { s.qm with sealBy := NMap.set none s.qm.sealBy g.val none }
      let s := s.wr (R.FUSA_QMg_SEAL_BUSY g.val) 0
      let s := match r.1 with
        | none =>
          let s := s.applyColl 4 .qmGen (some g.val)
          let s := (s.wr (R.FUSA_QMg_SEAL_ERR g.val) 0).wr (R.FUSA_QMg_SEAL_SEALED g.val) 1
          s.setQm { s.qm with mseq := NMap.set 0 s.qm.mseq g.val r.2.1 }
        | some f =>
          let counts := headerCounts (leNat (memBytes s.mem base 64))
          ((s.discardColl 4 .qmGen (some g.val)).wr (R.FUSA_QMg_SEAL_ERR g.val) f.code).setErec g.val f
            |>.qmStage2 base f counts
      s.showFree.raise 88 [duty] false)

/-- QM_SEAL (R159): a write of GO. -/
def execQmSeal (p : Port) (g : Fin 2) (s : State) : Out := .next (s.byCore p fun s => s.qmSealStart g.val p.core.val)

/-- Generation n becomes active (R161, R162): the previous one is held for HOLD rounds. -/
def State.qmActivate (s : State) (n : Nat) : State :=
  let old := s.rd R.FUSA_QM_STAT_ACTG
  let valid := s.rdBit R.FUSA_QM_STAT_AVALID
  let rounds := max 1 (s.rd R.FUSA_QM_HOLD_HOLD)
  let changed := !valid || old != n
  let s := ((s.wr R.FUSA_QM_SEL_ACT n).wrShadow R.FUSA_QM_SEL_ACT n).wr R.FUSA_QM_STAT_ACTG n
  let s := (s.wr R.FUSA_QM_STAT_AVALID 1).wr R.FUSA_QM_SWTICK_TICK s.tickN
  let s := if valid && old != n then
      s.setQm { s.qm with hold := NMap.set none s.qm.hold old (some (s.tickN + 1000 * rounds)) } else s
  let ds := s.dutiesOf 2 ++ s.dutiesOf 3 ++ s.dutiesOf 4
  let s := if changed then (s.inc R.FUSA_QM_STAT_SWITCHES).raise 90 ds true else s
  s.showFree

/-- A generation that runs in s and did not in s0 drops what was collected for it (R8). -/
def State.qmStarts (s s0 : State) : State :=
  [0, 1].foldl (fun s g => s.when (!s0.qmRunning g && s.qmRunning g) (State.discardColl · 4 .qmGen (some g))) s

/-- The model's sample boundary at cycle 0 of a round boundary tick (R161, R164, R167): a switch the block has decided on is
made as if ACT had named the generation. -/
def State.qmBoundary (s : State) : State :=
  let auto := s.qm.auto
  let named := auto.getD (s.rdShadow R.FUSA_QM_SEL_ACT)
  let t := s.setQm { s.qm with actWritten := false, auto := none, scan := s.rdBit R.FUSA_QM_SEL_SCAN,
                               autoOn := s.rdBit R.FUSA_QM_SEL_AUTO }
  if s.qmActive named then t
  else if s.qmSealed named then
    (((t.wr R.FUSA_QM_STAT_CORRUPT 0).qmActivate named).qmStarts s).when auto.isSome (State.raiseSup · 93)
  else
    ((t.wrShadow R.FUSA_QM_SEL_ACT (t.rd R.FUSA_QM_SEL_ACT)).showFree.qmStarts s).when s.qm.actWritten
      (State.raiseSup · 91)

/-- QM_HOLD_END (R162): at the round boundary where a hold ends, FREEg is set and event 94 raised. -/
def execQmHoldEnd (g : Fin 2) (s : State) : Out :=
  .next (match NMap.get none s.qm.hold g.val with
    | some t =>
      if t ≤ s.tickN then
        (s.setQm { s.qm with hold := NMap.set none s.qm.hold g.val none }).showFree.raiseSup 94
      else s
    | none => s)

/-- A section of a generation fails its scan (R164): events 50 and 92. -/
def State.scanFail (s : State) (addr : Nat) : State := (s.carriedFail addr 4 false).raise 92 (s.dutiesOf 2) true

/-- The scan of one generation, every section of it (R164); the Bool tells that one failed. -/
def State.scanSections (base : Nat) (counts : List Nat) : List Nat → Bool → State → Bool × State
  | [], bad, s => (bad, s)
  | k :: ks, bad, s =>
    let n := if k = 0 then 1 else counts.getD k 0
    if n = 0 then State.scanSections base counts ks bad s
    else
      let r := s.readSection base k n
      State.scanSections base counts ks (bad || r.2.1 != 0)
        (r.2.2.when (r.2.1 != 0) (State.scanFail · (base + sectOff k + n * sectSize k)))

/-- Generation g scanned (R164). -/
def State.qmScan (s : State) (g : Nat) : State :=
  if !s.qmSealed g then s
  else
    let base := s.rd (R.FUSA_QMg_BASE_BASE g)
    let counts := headerCounts (leNat (memBytes s.mem base 64))
    let r := State.scanSections base counts [0, 1, 2, 3, 4, 5, 6, 7] false s
    if !r.1 then r.2
    else
      let s := r.2.wr (R.FUSA_QMg_SEAL_SEALED g) 0
      let o := 1 - g
      let mirror := s.qm.autoOn && s.qmSealed o && !s.qmRunning o
        && NMap.get 0 s.qm.mseq o == NMap.get 0 s.qm.mseq g
      let s := if s.qmActive g then
          let s := s.wr R.FUSA_QM_STAT_CORRUPT 1
          if mirror then s.setQm { s.qm with auto := some o } else s
        else s
      s.showFree

/-- QM_SCAN (R164): once per round from cycle 1,536 of the boundary tick, every sealed generation is verified, with SCAN and
AUTO as sampled at the round boundary (R167). -/
def execQmScan (s : State) : Out :=
  .next (if s.qm.scan then ((s.qmScan 0).qmScan 1) else s)

end Sys2Proof.Machine
end

