-- ==== Sys2Proof/Machine/SolverMath.lean ====
section
/-! DEFINITION. The solver's arithmetic on a problem's store: cells, the symbolic and numeric factorisation, triangular
solves, products with K, the iteration, the dense quadratic program and the encoder (07_solver_engine, R210 to R218,
R229 to R235). Exact values are integers at a stated scale: a value at scale 111 counts units of 2^-111. -/

namespace Sys2Proof.Machine

/-! ## Cells (R211, R212) -/

def cellMax : Int := 2 ^ 47 - 1

/-- The exact value of a cell with exponent e, at scale 111 (e is −64 to 63). -/
def cellVal (c e : Int) : Int := c * 2 ^ (64 + e).toNat

/-- The cell with exponent e nearest to a value at scale `sc`, rounded half upwards once, not yet saturated. -/
def roundCell (v : Int) (sc : Nat) (e : Int) : Int := roundShift v ((sc : Int) - 47 + e).toNat

/-- num / den rounded half upwards, for any den ≠ 0; 0 for den = 0. -/
def quotCell (num den : Int) : Int :=
  let n := if den < 0 then -num else num
  let d : Int := den.natAbs
  if d = 0 then 0 else (2 * n + d) / (2 * d)

/-- Columns in which a stored result did not fit, in the order met. -/
abbrev Ovf := List Nat

/-- Store a rounded result in a cell map; a result that does not fit is stored as the nearest limit (R212). -/
def storeCell (m : NMap Int) (key col : Nat) (c : Int) (o : Ovf) : NMap Int × Ovf :=
  let v := clampInt (-cellMax) cellMax c
  (NMap.set 0 m key v, if v = c then o else o ++ [col])

def keyOf (i j : Nat) : Nat := 2 ^ 18 * i + j

def noCol : SolvCol := ⟨false, 0, 0, 0, []⟩
def Prob.col (p : Prob) (j : Nat) : SolvCol := p.cols.getD j noCol
def Prob.n (p : Prob) : Nat := p.cols.length
def Prob.cell (p : Prob) (v row : Nat) : Int := NMap.get 0 p.vec (keyOf v row)
/-- The value of a vector's cell, at scale 111. -/
def Prob.val (p : Prob) (v row : Nat) : Int := cellVal (p.cell v row) (p.col row).ev

/-- A problem with the overflows met so far. -/
abbrev ProbO := Prob × Ovf

/-- Store a value at scale `sc` in a row of a vector. -/
def ProbO.put (x : ProbO) (v row : Nat) (val : Int) (sc : Nat) : ProbO :=
  let r := storeCell x.1.vec (keyOf v row) row (roundCell val sc (x.1.col row).ev) x.2
  ({ x.1 with vec := r.1 }, r.2)

/-- Set every row of a vector. -/
def ProbO.mapRows (x : ProbO) (v sc : Nat) (f : Prob → Nat → Int) : ProbO :=
  let p := x.1
  (List.range p.n).foldl (fun x row => ProbO.put x v row (f p row) sc) x

/-! ## The scalar format (R214) -/

/-- M × 2^(X − 15) at scale 222, exact for X ≥ −207. -/
def scalarVal (m : Nat) (x : Int) : Int := (m : Int) * 2 ^ (207 + x).toNat

/-- The scalar not below v (at scale 222, v ≥ 0) with the least value, as mantissa and exponent. -/
def scalarUp (v : Nat) : Nat × Int :=
  if v = 0 then (0, 0)
  else
    let sh := max 79 (v.log2 - 15)
    let m := (v + 2 ^ sh - 1) / 2 ^ sh
    let r := if m = 65536 then (32768, (sh : Int) - 206) else (m, (sh : Int) - 207)
    if 127 < r.2 then (65535, 127) else r

/-- The reported encoding of a scalar: the value is fixed, and where several encodings have it the manual states none, so
the one reported is a free function of the value. -/
def scalarWord (v : Nat) : Nat :=
  let r := scalarUp v
  let free := Config.freeFun 10 [v]
  let slack := (List.range 16).foldl (fun k i => if r.1 % 2 ^ (i + 1) = 0 then i + 1 else k) 0
  let k := if r.1 = 0 then 0 else free % (slack + 1)
  let x : Int := if r.1 = 0 then (free : Int) else if 127 < r.2 + k then r.2 else r.2 + k
  let m := if 127 < r.2 + k then r.1 else r.1 / 2 ^ k
  m + 65536 * patternOf 8 x

/-! ## Symbolic factorisation (R210, R217) -/

def insertNat (x : Nat) : List Nat → List Nat
  | [] => [x]
  | y :: r => if x < y then x :: y :: r else if x = y then y :: r else y :: insertNat x r

def mergeNat (xs ys : List Nat) : List Nat := xs.foldl (fun l x => insertNat x l) ys

/-- Rows of the columns of L, column by column: the column's own rows and those its children in the elimination tree
hand on. -/
def fillFrom (j : Nat) (pend : NMap (List Nat)) : List SolvCol → List (List Nat)
  | [] => []
  | c :: r =>
    let st := mergeNat c.rows (NMap.get [] pend j)
    let pend := match st with
      | [] => pend
      | parent :: rest => NMap.modify [] pend parent (fun l => mergeNat rest l)
    st :: fillFrom (j + 1) pend r

def Prob.nke (p : Prob) : Nat := p.n + (p.cols.map (fun c => c.rows.length)).sum

/-- The pattern as a list of numbers, the argument of what the manual leaves to the supernode rule. -/
def Prob.patternArgs (p : Prob) : List Nat := p.cols.flatMap (fun c => c.rows.length :: c.rows)

/-- NFAC: the pivots of D and the non-zeros of L below the diagonal. -/
def nfac (n : Nat) (fill : List (List Nat)) : Nat := n + (fill.map List.length).sum

/-- NSRI and NSN: the manual does not state how supernodes are formed, so both are free functions of the pattern, within what
any grouping of the columns of L allows: no more supernodes than columns, no more listed rows than cells of the factor. -/
def Prob.nsri (p : Prob) : Nat := min (nfac p.n (fillFrom 0 [] p.cols)) (Config.freeFun 11 p.patternArgs)
def Prob.nsn (p : Prob) : Nat := min p.n (Config.freeFun 12 p.patternArgs)

def Prob.swords (p : Prob) : Nat := 4 * p.n + p.nke + (p.nsri + 2) / 3 + 2 * p.nsn

/-- Runs (first, length) in rising order of their first element. -/
def insertRun (x : Nat × Nat) : List (Nat × Nat) → List (Nat × Nat)
  | [] => [x]
  | y :: r => if x.1 ≤ y.1 then x :: y :: r else y :: insertRun x r

/-- The lowest place for a run of the given length among the runs held in an area. -/
def firstFit (size area : Nat) : Nat → List (Nat × Nat) → Option Nat
  | at0, [] => if at0 + size ≤ area then some at0 else none
  | at0, r :: rs => if at0 + size ≤ r.1 then some at0 else firstFit size area (r.1 + r.2) rs

/-- The largest free run of an area. -/
def largestFree (area : Nat) : Nat → List (Nat × Nat) → Nat
  | at0, [] => area - at0
  | at0, r :: rs => max (r.1 - at0) (largestFree area (r.1 + r.2) rs)

/-- 1/δ < 2^EI for every column (R217); false for δ = 0. -/
def Prob.deltaOk (p : Prob) : Bool :=
  p.delM != 0 && p.cols.all fun c =>
    let e := 15 - p.delX - c.ei
    if e < 0 then true else decide (2 ^ e.toNat < p.delM)

/-! ## Products with K -/

/-- K times a vector given by its values at scale 111: exact sums at scale 222, of the entries `use` selects by row and
column of the full symmetric matrix. -/
def Prob.times (p : Prob) (use : Nat → Nat → Bool) (v : Nat → Int) : NMap Int :=
  p.k.foldl (fun m e =>
    let i := e.1 / 2 ^ 18
    let j := e.1 % 2 ^ 18
    let k := cellVal e.2 (p.col j).ek
    let m := if use i j then NMap.modify 0 m i (· + k * v j) else m
    if i ≠ j && use j i then NMap.modify 0 m j (· + k * v i) else m) []

def allEntries (_ _ : Nat) : Bool := true

/-- SPMV (R221). -/
def spmv (src dst : Nat) (acc : Bool) (x : ProbO) : ProbO :=
  let kx := x.1.times allEntries (x.1.val src)
  ProbO.mapRows x dst 222 fun p row => NMap.get 0 kx row + (if acc then p.val dst row * 2 ^ 111 else 0)

/-- The largest |B − K X| over all rows, at scale 222 (R231). -/
def residual (p : Prob) (b x : Nat) : Nat :=
  let kx := p.times allEntries (p.val x)
  ((List.range p.n).map fun row => (p.val b row * 2 ^ 111 - NMap.get 0 kx row).natAbs).foldl max 0

/-! ## Factorisation (R229, R230) -/

structure Factor where
  acc : NMap Int
  l : NMap Int
  d : NMap Int
  dinv : NMap Int
  ovf : Ovf
  /-- Flagged columns with their reasons, in elimination order. -/
  flags : List (Nat × Nat)

/-- The reason of R229 for a computed pivot cell, and the pivot cell used. -/
def pivotRule (p : Prob) (c : SolvCol) (d : Int) : Nat × Int :=
  let v : Nat := (cellVal d c.ek).natAbs * 2 ^ 111
  let delta : Int := roundCell (scalarVal p.delM p.delX) 222 c.ek
  let sgn : Int := if d < 0 then -1 else 1
  if d = 0 then (3, if c.dual then -delta else delta)
  else if decide ((v : Int) < scalarVal p.tauM p.tauX) then (1, sgn * delta)
  else if decide (d.natAbs * 2 ^ (64 + c.ek + 64 + c.ei).toNat ≤ 2 ^ 175) then (2, sgn * delta)
  else if decide (d < 0) != c.dual then (4, d)
  else (0, d)

/-- 1/d at exponent EI, rounded half upwards. -/
def recipCell (c : SolvCol) (d : Int) : Int :=
  quotCell (2 ^ (94 + 128 - c.ek - c.ei).toNat) (d * 2 ^ 128)

/-- One column: its pivot, its reciprocal, its cells of L, and its contributions to later columns. -/
def factorColumn (p : Prob) (j : Nat) (c : SolvCol) (rows : List Nat) (f : Factor) : Factor :=
  let r := pivotRule p c (clampInt (-cellMax) cellMax (roundCell (NMap.get 0 f.acc (keyOf j j)) 333 c.ek))
  let o := if fitsCell (roundCell (NMap.get 0 f.acc (keyOf j j)) 333 c.ek) then f.ovf else f.ovf ++ [j]
  let d := storeCell f.d j j r.2 o
  let dc := NMap.get 0 d.1 j
  let di := storeCell f.dinv j j (recipCell c dc) d.2
  let lo := rows.foldl (fun (a : NMap Int × Ovf) i =>
    storeCell a.1 (keyOf i j) j
      (quotCell (NMap.get 0 f.acc (keyOf i j)) (cellVal dc c.ek * 2 ^ (175 + c.ek).toNat)) a.2) (f.l, di.2)
  let lv (i : Nat) : Int := cellVal (NMap.get 0 lo.1 (keyOf i j)) c.ek
  let acc := rows.foldl (fun m a => rows.foldl (fun m b =>
    if b ≤ a then NMap.modify 0 m (keyOf a b) (· - lv a * cellVal dc c.ek * lv b) else m) m) f.acc
  { acc := acc, l := lo.1, d := d.1, dinv := di.1, ovf := lo.2,
    flags := if r.1 = 0 then f.flags else f.flags ++ [(j, r.1)] }
where
  fitsCell (c : Int) : Bool := clampInt (-cellMax) cellMax c == c

def factorFrom (p : Prob) (j : Nat) : List (SolvCol × List Nat) → Factor → Factor
  | [], f => f
  | c :: r, f => factorFrom p (j + 1) r (factorColumn p j c.1 c.2 f)

/-- REFAC: L D Lᵀ of the current K (R229). Sums are exact, and each stored result is rounded once. -/
def refactor (p : Prob) : Prob × Factor :=
  let acc : NMap Int := p.k.map (fun e => (e.1, cellVal e.2 (p.col (e.1 % 2 ^ 18)).ek * 2 ^ 222))
  let f := factorFrom p 0 (p.cols.zip p.fill) ⟨acc, [], [], [], [], []⟩
  ({ p with l := f.l, d := f.d, dinv := f.dinv }, f)

/-- The flag list of the descriptor: 16 entries of 3 bytes (R230). -/
def flagEntries (fl : List (Nat × Nat)) : List Nat :=
  let es := (fl.take 16).map (fun e => e.1 % 2 ^ 18 + 2 ^ 18 * e.2)
  es ++ List.replicate (16 - es.length) 0xFFFFFF

/-! ## Triangular solves (R221) -/

def Prob.lVal (p : Prob) (i j : Nat) : Int := cellVal (NMap.get 0 p.l (keyOf i j)) (p.col j).ek

/-- L y = b, by columns. -/
def forwardFrom (v j : Nat) (acc : NMap Int) : List (List Nat) → ProbO → ProbO
  | [], x => x
  | rows :: r, x =>
    let x := ProbO.put x v j (x.1.val v j * 2 ^ 111 + NMap.get 0 acc j) 222
    let y := x.1.val v j
    forwardFrom v (j + 1) (rows.foldl (fun m i => NMap.modify 0 m i (· - x.1.lVal i j * y)) acc) r x

/-- D⁻¹ with the held reciprocals. -/
def diagSolve (v : Nat) (x : ProbO) : ProbO :=
  ProbO.mapRows x v 222 fun p row => p.val v row * cellVal (NMap.get 0 p.dinv row) (p.col row).ei

/-- Lᵀ x = y, from the last column. -/
def backwardFrom (v : Nat) : List (Nat × List Nat) → ProbO → ProbO
  | [], x => x
  | (j, rows) :: r, x =>
    let sum := rows.foldl (fun (a : Int) i => a - x.1.lVal i j * x.1.val v i) (x.1.val v j * 2 ^ 111)
    backwardFrom v r (ProbO.put x v j sum 222)

/-- SOLVE in its three forms (R221). -/
def solveVec (v form : Nat) (x : ProbO) : ProbO :=
  let fw (x : ProbO) : ProbO := forwardFrom v 0 [] x.1.fill x
  let bw (x : ProbO) : ProbO := backwardFrom v ((List.range x.1.fill.length).zip x.1.fill).reverse x
  if form = 1 then fw x else if form = 2 then bw (diagSolve v x) else bw (diagSolve v (fw x))

/-! ## Vector operations (R221) -/

def vopCopy (dst a : Nat) (x : ProbO) : ProbO := ProbO.mapRows x dst 111 fun p row => p.val a row
def vopAxpby (dst a b : Nat) (al be : Int) (x : ProbO) : ProbO :=
  ProbO.mapRows x dst 127 fun p row => al * p.val a row + be * p.val b row
def vopClamp (dst a : Nat) (x : ProbO) : ProbO :=
  ProbO.mapRows x dst 111 fun p row =>
    if (p.col row).dual then
      (let v := p.val a row
       if v < p.val 3 row then p.val 3 row else if p.val 4 row < v then p.val 4 row else v)
    else p.val a row
def vopFill (dst : Nat) (al : Int) (x : ProbO) : ProbO := ProbO.mapRows x dst 111 fun _ _ => al * 2 ^ 95
/-- The largest |A| at scale 222. -/
def vopNorm (p : Prob) (a : Nat) : Nat :=
  ((List.range p.n).map fun row => (p.val a row).natAbs * 2 ^ 111).foldl max 0

/-- REFINE (R231). -/
def refine (b xx t : Nat) : Nat → ProbO → ProbO
  | 0, x => x
  | n + 1, x =>
    let kx := x.1.times allEntries (x.1.val xx)
    let x := ProbO.mapRows x t 222 fun p row => p.val b row * 2 ^ 111 - NMap.get 0 kx row
    let x := solveVec t 0 x
    refine b xx t n (ProbO.mapRows x xx 111 fun p row => p.val xx row + p.val t row)

/-! ## The first-order iteration (R232) -/

structure IterArgs where
  itmax : Nat
  chk : Nat
  sigma : Nat
  rho : Nat
  rhoinv : Nat
  alpha : Nat
  epsp : Int
  epsd : Int

/-- The rounded, saturated cell of a row from a value at a scale. -/
def rowCell (p : Prob) (row sc : Nat) (v : Int) : Int × Bool :=
  let c := roundCell v sc (p.col row).ev
  let s := clampInt (-cellMax) cellMax c
  (s, s != c)

/-- One dual row after the solve: the cells z_n, y and the change of z, with the number of lines whose stored result did not
fit. The clamp of z_n comes before its rounding, so that z_n fits wherever its limits do. -/
def iterDual (a : IterArgs) (p : Prob) (row : Nat) : Int × Int × Int × Nat :=
  let ev := (p.col row).ev
  let w0 := p.val 0 row
  let w1 := p.val 1 row
  let w2 := p.val 2 row
  let one : Int := 16384
  let zt := rowCell p row 127 (w1 * 65536 + a.rhoinv * (w0 - w2))
  let zr := rowCell p row 125 (a.alpha * cellVal zt.1 ev + (one - a.alpha) * w1)
  let sum := cellVal zr.1 ev * 65536 + a.rhoinv * w2
  let lo := p.val 3 row * 65536
  let hi := p.val 4 row * 65536
  let zn := rowCell p row 127 (if sum < lo then lo else if hi < sum then hi else sum)
  let w2n := rowCell p row 127 (w2 * 65536 + a.rho * (cellVal zr.1 ev - cellVal zn.1 ev))
  let dz := rowCell p row 111 (cellVal zn.1 ev - w1)
  (zn.1, w2n.1, dz.1, ([zt.2, zr.2, zn.2, w2n.2, dz.2].filter id).length)

def setCell (p : Prob) (v row : Nat) (c : Int) : Prob := { p with vec := NMap.set 0 p.vec (keyOf v row) c }

/-- The passes of one iteration. -/
def iterOnce (a : IterArgs) (x : ProbO) : ProbO :=
  let p := x.1
  let x := (List.range p.n).foldl (fun x row =>
    if (p.col row).dual then ProbO.put x 0 row (p.val 1 row * 65536 - a.rhoinv * p.val 2 row) 127
    else ProbO.put x 0 row (a.sigma * p.val 1 row - p.val 3 row * 65536) 127) x
  let x := solveVec 0 0 x
  let q := x.1
  let x := (List.range q.n).foldl (fun x row =>
    if (q.col row).dual then x
    else ProbO.put x 1 row (a.alpha * q.val 0 row + (16384 - (a.alpha : Int)) * q.val 1 row) 125) x
  (List.range q.n).foldl (fun x row =>
    if (q.col row).dual then
      let r := iterDual a q row
      let p := setCell (setCell (setCell x.1 2 row r.2.1) 0 row r.2.2.1) 1 row r.1
      (p, x.2 ++ List.replicate r.2.2.2 row)
    else x) x

/-- The primal and dual residuals, at scale 222 (R232). -/
def iterRes (a : IterArgs) (p : Prob) : Nat × Nat :=
  let dual (i : Nat) : Bool := (p.col i).dual
  let ax := p.times (fun i j => dual i && !dual j) (p.val 1)
  let az := p.times (fun i j => !dual i && dual j) (p.val 0)
  let rows := List.range p.n
  let rp := (rows.map fun i => if dual i then (NMap.get 0 ax i - p.val 1 i * 2 ^ 111).natAbs else 0).foldl max 0
  let rd := (rows.map fun i => if dual i then 0 else (NMap.get 0 az i).natAbs).foldl max 0
  (rp, (a.rho * rd + 65535) / 65536)

/-- Up to `fuel` iterations from iteration `it`: the problem, the iterations done, the residuals of the last check, and
whether the iteration has stopped. -/
def iterRun (a : IterArgs) : Nat → Nat → Option (Nat × Nat) → ProbO → ProbO × Nat × Option (Nat × Nat) × Bool
  | 0, it, res, x => (x, it, res, false)
  | fuel + 1, it, res, x =>
    if a.itmax ≤ it then (x, it, res, false)
    else
      let x := iterOnce a x
      let it := it + 1
      if it % a.chk = 0 then
        let r := iterRes a x.1
        let rdExact := (a.rho : Int) * ((rdRaw x.1 : Nat) : Int)
        if (r.1 : Int) ≤ a.epsp ∧ rdExact ≤ a.epsd * 65536 then (x, it, some r, true)
        else iterRun a fuel it (some r) x
      else iterRun a fuel it res x
where
  /-- max over primal rows of |(A′ dz)|, at scale 222. -/
  rdRaw (p : Prob) : Nat :=
    let dual (i : Nat) : Bool := (p.col i).dual
    let az := p.times (fun i j => !dual i && dual j) (p.val 0)
    ((List.range p.n).map fun i => if dual i then 0 else (NMap.get 0 az i).natAbs).foldl max 0

/-! ## Delta lists (R218) -/

/-- The cell of an entry's second word, where [63:48] repeat its sign. -/
def deltaCell (w : Nat) : Option Int :=
  let c := signedOf 48 (bitsOf w 47 0)
  if patternOf 64 c = w then some c else none

/-- The entries of a KDELTA list as key and cell; none where one is bad. -/
def kdelta (p : Prob) : List Nat → Option (List (Nat × Int))
  | w0 :: w1 :: r =>
    let i := bitsOf w0 17 0
    let j := bitsOf w0 35 18
    match deltaCell w1 with
    | none => none
    | some c =>
      if i < p.n ∧ j ≤ i ∧ (i = j ∨ (p.col j).rows.contains i) then (kdelta p r).map ((keyOf i j, c) :: ·) else none
  | _ => some []

/-- The entries of a VDELTA list for a vector. -/
def vdelta (p : Prob) (v : Nat) : List Nat → Option (List (Nat × Int))
  | w0 :: w1 :: r =>
    let i := bitsOf w0 17 0
    match deltaCell w1 with
    | none => none
    | some c => if i < p.n ∧ bitsOf w0 35 18 = 0 then (vdelta p v r).map ((keyOf v i, c) :: ·) else none
  | _ => some []

def applyCells (m : NMap Int) (es : List (Nat × Int)) : NMap Int := es.foldl (fun m e => NMap.set 0 m e.1 e.2) m

/-! ## Pattern parts (R216) -/

/-- The three slots of an index word; none where bit 63 is set. -/
def indexSlots (w : Nat) : Option (List Nat) :=
  if w.testBit 63 then none else some [bitsOf w 20 0, bitsOf w 41 21, bitsOf w 62 42]

/-- Row indices of a column from its index words: strictly rising, above the column, below NROWS, the rest unused. -/
def rowsOk (col nrows nent : Nat) (slots : List Nat) : Option (List Nat) :=
  let rows := slots.take nent
  let rest := slots.drop nent
  let rising := (List.range rows.length).all fun i =>
    decide ((if i = 0 then col else rows.getD (i - 1) 0) < rows.getD i 0) && decide (rows.getD i 0 < nrows)
  if rows.length = nent ∧ rising ∧ rest.all (· == 0x1FFFFF) then some rows else none

/-- An exponent of a column, from −64 to 63 (R211). -/
def expOk (e : Int) : Bool := decide (-64 ≤ e) && decide (e ≤ 63)

/-- Columns of a part from column c on, with `fuel` words at most; none where a rule is broken. An exponent outside R211's range
breaks the pattern (DEDUCED: notes/assumptions/22). -/
def patternPart (nrows : Nat) : Nat → Nat → List Nat → Option (List SolvCol)
  | _, _, [] => some []
  | 0, _, _ :: _ => none
  | fuel + 1, c, h :: r =>
    let nent := bitsOf h 59 44
    let nw := (nent + 2) / 3
    let slots := (r.take nw).mapM indexSlots
    let ek := signedOf 8 (bitsOf h 27 20)
    let ev := signedOf 8 (bitsOf h 35 28)
    let ei := signedOf 8 (bitsOf h 43 36)
    if bitsOf h 17 0 ≠ c ∨ nrows ≤ c ∨ h.testBit 19 ∨ bitsOf h 63 60 ≠ 0 ∨ (r.take nw).length ≠ nw
      ∨ !(expOk ek && expOk ev && expOk ei) then none
    else match slots.bind (fun s => rowsOk c nrows nent s.flatten) with
      | none => none
      | some rows =>
        (patternPart nrows fuel (c + 1) (r.drop nw)).map
          (⟨h.testBit 18, ek, ev, ei, rows⟩ :: ·)

/-! ## The dense quadratic program (R234)

Exact values; the minimum of a strictly convex program is the point that satisfies the optimality conditions for some set of
active constraints. -/

def dotR (a b : List Rat) : Rat := (a.zip b).foldl (fun s x => s + x.1 * x.2) 0

/-- a − k b. -/
def subR (a : List Rat) (k : Rat) (b : List Rat) : List Rat := (a.zip b).map fun x => x.1 - k * x.2

/-- The first row with a non-zero head, and the others. -/
def pivotRow : List (List Rat) → Option (List Rat × List (List Rat))
  | [] => none
  | r :: rs => if r.headD 0 ≠ 0 then some (r, rs) else (pivotRow rs).map fun x => (x.1, r :: x.2)

/-- The solution of n equations in n unknowns, each a row of coefficients with the right side last; none where it is not
unique. -/
def solveLin : Nat → List (List Rat) → Option (List Rat)
  | 0, _ => some []
  | n + 1, m =>
    match pivotRow m with
    | none => none
    | some (p, rest) =>
      let t := p.tail.map (· / p.headD 0)
      (solveLin n (rest.map fun r => subR r.tail (r.headD 0) t)).map fun xs => (t.getLastD 0 - dotR t xs) :: xs

/-- All pivots of the elimination are positive. -/
def posPivots : Nat → List (List Rat) → Bool
  | 0, _ => true
  | n + 1, m =>
    let r := m.headD []
    decide (0 < r.headD 0) && posPivots n (m.tail.map fun x => subR x.tail (x.headD 0 / r.headD 0) r.tail)

/-- A constraint: its row and its two limits. -/
structure DqpCon where
  idx : Nat
  row : List Rat
  lo : Rat
  hi : Rat

/-- A dense program: H, g, and the constraints, the bounds of u before the rows of C. -/
structure Dqp where
  nv : Nat
  h : List (List Rat)
  g : List Rat
  cons : List DqpCon

/-- The program of a block's 32-bit words. -/
def Dqp.ofWords (nv nc : Nat) (v : List Nat) : Dqp :=
  let q (i : Nat) : Rat := (signedOf 32 (v.getD i 0) : Rat) / 65536
  let row (at0 i : Nat) : List Rat := (List.range nv).map fun j => q (at0 + nv * i + j)
  let gAt := 2 + nv * nv
  let cAt := gAt + 3 * nv
  let lAt := cAt + nc * nv
  { nv, h := (List.range nv).map (row 2), g := (List.range nv).map fun i => q (gAt + i),
    cons := (List.range nv).map (fun i => ⟨i, (List.range nv).map fun j => if i = j then 1 else 0, q (gAt + nv + i),
        q (gAt + 2 * nv + i)⟩)
      ++ (List.range nc).map fun j => ⟨nv + j, row cAt j, q (lAt + j), q (lAt + nc + j)⟩ }

/-- H is symmetric and positive definite. -/
def Dqp.posDef (d : Dqp) : Bool :=
  let e (i j : Nat) : Rat := (d.h.getD i []).getD j 0
  ((List.range d.nv).all fun i => (List.range i).all fun j => decide (e i j = e j i)) && posPivots d.nv d.h

def Dqp.feasible (d : Dqp) (u : List Rat) : Bool :=
  d.cons.all fun c => decide (c.lo ≤ dotR c.row u) && decide (dotR c.row u ≤ c.hi)

/-- The point at which the named constraints hold with equality (true: at the upper limit) and the gradient is balanced, if it
is feasible and every multiplier has the right sign. -/
def Dqp.kkt (d : Dqp) (act : List (DqpCon × Bool)) : Option (List Rat) :=
  let top := (List.range d.nv).map fun i =>
    d.h.getD i [] ++ act.map (fun a => a.1.row.getD i 0) ++ [-(d.g.getD i 0)]
  let bot := act.map fun a => a.1.row ++ act.map (fun _ => (0 : Rat)) ++ [if a.2 then a.1.hi else a.1.lo]
  match solveLin (d.nv + act.length) (top ++ bot) with
  | none => none
  | some x =>
    let signs := (act.zip (x.drop d.nv)).all fun e => if e.1.2 then decide (0 ≤ e.2) else decide (e.2 ≤ 0)
    if signs && d.feasible (x.take d.nv) then some (x.take d.nv) else none

/-- The minimum and its active constraints, tried over the sets that the listed constraints can add to those chosen; none where
no point is feasible. -/
def Dqp.minimum (d : Dqp) : List DqpCon → List (DqpCon × Bool) → Option (List Rat × List (DqpCon × Bool))
  | [], act => (d.kkt act).map (·, act)
  | c :: cs, act => d.minimum cs act <|> d.minimum cs (act ++ [(c, false)]) <|> d.minimum cs (act ++ [(c, true)])

/-! ## The encoder (R235) -/

def sbyte (bs : List Nat) (o n : Nat) : Int := signedOf (8 * n) (leNat ((bs.drop o).take n))
where
  leNat : List Nat → Nat
    | [] => 0
    | b :: r => b % 256 + 256 * leNat r

/-- A layer of an encoder block: outputs, shift, RELU, and the byte offsets of its weights and biases. -/
structure EncLayer where
  nin : Nat
  nout : Nat
  shift : Nat
  relu : Bool
  wAt : Nat
  bAt : Nat

def pad4 (n : Nat) : Nat := (n + 3) / 4 * 4

/-- The layers from byte offset o; none where a count is out of range. The second part is the offset behind them. -/
def encLayers (bs : List Nat) : Nat → Nat → Nat → Option (List EncLayer × Nat)
  | 0, _, o => some ([], o)
  | k + 1, nin, o =>
    let h := (sbyte bs o 4 % 2 ^ 32).toNat
    let nout := bitsOf h 7 0
    let wAt := o + 4
    let bAt := wAt + pad4 (nout * nin)
    if nout = 0 ∨ 64 < nout ∨ (k = 0 ∧ 16 < nout) then none
    else (encLayers bs k nout (bAt + 4 * nout)).map fun r =>
      (⟨nin, nout, bitsOf h 12 8, h.testBit 13, wAt, bAt⟩ :: r.1, r.2)

/-- One layer on one row (R235). -/
def encLayer (bs : List Nat) (l : EncLayer) (last : Bool) (x : List Int) : List Int :=
  (List.range l.nout).map fun o =>
    let sum := ((List.range l.nin).map fun i => sbyte bs (l.wAt + l.nin * o + i) 1 * x.getD i 0).sum
      + sbyte bs (l.bAt + 4 * o) 4
    let v := clampBits (if last then 8 else 16) (roundShift sum l.shift)
    if l.relu && decide (v < 0) then 0 else v

def encRow (bs : List Nat) : List EncLayer → List Int → List Int
  | [], x => x
  | [l], x => encLayer bs l true x
  | l :: r, x => encRow bs r (encLayer bs l false x)

/-- The 16 output bytes of a row. -/
def encBytes (y : List Int) : List Nat := (List.range 16).map fun i => patternOf 8 (y.getD i 0)

end Sys2Proof.Machine
end

