-- ==== Sys2Proof/Machine/Solver.lean ====
section
/-! DEFINITION. The solver engine: queues, lanes, the commands and their ends, cancellation, and SQPOST and SQWAIT
(07_solver_engine R199 to R239; 03 R115, R116). -/

namespace Sys2Proof.Machine

def State.setSolv (s : State) (x : SolvS) : State := { s with solv := x }
def State.prob (s : State) (p : Nat) : Prob := NMap.get Prob.free s.solv.prob p
def State.setProb (s : State) (p : Nat) (x : Prob) : State :=
  s.setSolv { s.solv with prob := NMap.set Prob.free s.solv.prob p x }
def State.probState (s : State) (p : Nat) : Nat := s.rd (R.SOLV_Pp_STAT_STATE p)

def SqFin.ok : SqFin := ⟨0, false, false, false, false, false, 0⟩
def SqFin.err (code : Nat) : SqFin := { SqFin.ok with code := code }

/-- Completion status word (R236); flags are shown with CODE = 0. -/
def SqFin.status (f : SqFin) : Nat :=
  f.code + (if f.code = 0 then 2 ^ 8 * b2n f.reg + 2 ^ 9 * b2n f.ovf + 2 ^ 10 * b2n f.limit + 2 ^ 11 * b2n f.signf
    + 2 ^ 12 * b2n f.fstale else 0)

/-! ## Descriptors (R219 to R221) -/

/-- n bytes at offset o of a descriptor's words. -/
def dfield (ws : List Nat) (o n : Nat) : Nat := recField (leNat (wordsBytes ws)) o n
def dop (ws : List Nat) : Nat := dfield ws 0 1
def dprob (ws : List Nat) : Nat := dfield ws 1 1
def dchk (ws : List Nat) : Bool := (dfield ws 2 1).testBit 0
def dpost (ws : List Nat) : Bool := (dfield ws 2 1).testBit 1

/-- The operand bytes from byte 16 that each OP names; the others must be 0 (R219, R221). -/
def namedBytes (op : Nat) : List (Nat × Nat) :=
  match op with
  | 1 => [(16, 24), (26, 27)]
  | 2 => [(16, 24)]
  | 5 => [(16, 23)]
  | 6 => [(16, 24)]
  | 7 => [(16, 28)]
  | 8 => [(16, 63)]
  | 9 => [(16, 17)]
  | 10 => [(16, 18)]
  | 11 => [(16, 31)]
  | 12 => [(16, 23)]
  | 13 => [(16, 18), (20, 51)]
  | 14 => [(16, 63)]
  | 15 => [(16, 63)]
  | _ => []

/-- Code 1 of R237: a known OP and zero in every byte and bit marked 0. -/
def code1Ok (ws : List Nat) : Bool :=
  let op := dop ws
  inRange 1 15 op && decide (dfield ws 2 1 < 4) && dfield ws 3 1 == 0 && decide (dfield ws 4 4 < 2 ^ 18)
    && ((List.range 48).all fun i =>
      (namedBytes op).any (fun r => decide (r.1 ≤ 16 + i) && decide (16 + i ≤ r.2)) || dfield ws (16 + i) 1 == 0)

/-- The work vectors a command names. -/
def namedVectors (ws : List Nat) : List Nat :=
  match dop ws with
  | 6 => [dfield ws 24 1]
  | 7 => [dfield ws 28 1]
  | 9 => [dfield ws 16 1]
  | 10 => [dfield ws 16 1, dfield ws 17 1]
  | 11 =>
    let fn := dfield ws 16 1
    (if fn = 4 then [] else [dfield ws 17 1]) ++ (if fn = 3 then [] else [dfield ws 18 1])
      ++ (if fn = 1 then [dfield ws 19 1] else [])
  | 12 => [dfield ws 16 1, dfield ws 17 1, dfield ws 18 1]
  | 13 => [0, 1, 2]
  | _ => []

/-- Code 2: the problem, its state and its work vectors. -/
def State.code2Ok (s : State) (ws : List Nat) : Bool :=
  let op := dop ws
  let p := dprob ws
  if 14 ≤ op then p == 0xFF
  else
    let st := s.probState p
    decide (p < 8)
      && (if op = 1 then st == 0 else if op = 2 ∨ op = 3 then st == 1 else if op = 4 then st != 0
          else if op = 9 ∨ op = 12 ∨ op = 13 then st == 3 else st == 2 || st == 3)
      && (namedVectors ws).all (fun v => decide (3 ≤ v) || decide (v < s.rd (R.SOLV_Pp_STAT_NW p)))

/-- Bytes a carried or plain buffer of n words takes. -/
def bufBytes (chk : Bool) (n : Nat) : Nat := 8 * n + (if chk then 8 else 0)
def bufOk (chk : Bool) (a n : Nat) : Bool := a % 8 == 0 && inCommonsB a (bufBytes chk n)
where inCommonsB (a b : Nat) : Bool := decide (a + b ≤ commonsBytes)

/-- Code 3: operands in range, aligned and within the commons. -/
def code3Ok (ws : List Nat) : Bool :=
  let c := dchk ws
  let a := dfield ws 16 4
  let b := dfield ws 20 4
  let work (v : Nat) : Bool := decide (v < 3)
  let vec (v : Nat) : Bool := decide (v < 5)
  match dop ws with
  | 1 => inRange 1 262144 a && inRange 1 3 (dfield ws 20 1)
  | 2 => inRange 1 131072 b && bufOk c a b && decide (dfield ws 24 1 < 2)
  | 5 => inRange 1 65535 b && bufOk c a (2 * b)
  | 6 => inRange 1 65535 b && bufOk c a (2 * b) && vec (dfield ws 24 1)
  | 7 =>
    let n := dfield ws 24 4
    inRange 1 262144 n && bufOk c a ((n + 1) / 2) && bufOk c b n && vec (dfield ws 28 1)
  | 9 => work (dfield ws 16 1) && decide (dfield ws 17 1 < 3)
  | 10 => vec (dfield ws 16 1) && work (dfield ws 17 1) && dfield ws 16 1 != dfield ws 17 1 && decide (dfield ws 18 1 < 2)
  | 11 => decide (dfield ws 16 1 < 5) && work (dfield ws 17 1) && vec (dfield ws 18 1) && vec (dfield ws 19 1)
  | 12 =>
    let x := dfield ws 16 1
    let y := dfield ws 17 1
    let z := dfield ws 18 1
    work x && work y && work z && x != y && x != z && y != z && inRange 1 15 (dfield ws 19 1)
  | 13 => dfield ws 16 2 != 0 && dfield ws 18 1 != 0 && decide (dfield ws 32 2 < 0x8000)
  | 14 => bufOk c a 2
  | 15 => bufOk c a 1
  | _ => true

/-- Code 14: the queue a command may use (R220). -/
def queueOk (short : Bool) (op : Nat) : Bool :=
  if op = 14 ∨ op = 15 then short
  else if op = 5 ∨ op = 6 ∨ op = 7 ∨ op = 9 ∨ op = 10 ∨ op = 11 ∨ op = 12 then true
  else !short

/-- The checks before a command's first step, in the order of R237. -/
def State.startCode (s : State) (short : Bool) (ws : List Nat) : Nat :=
  if !code1Ok ws then 1 else if !s.code2Ok ws then 2 else if !code3Ok ws then 3 else if !queueOk short (dop ws) then 14
  else 0

/-! ## Buffers (R219, R236) -/

/-- The commons port and posting source of a service position. -/
def State.posOf (s : State) (lane : Nat) : Nat := s.rd (R.SOLV_LANEk_POS lane)
def State.lowPos (s : State) (lanes : List Nat) : Nat := (lanes.map s.posOf).foldl min 3

/-- Read a buffer of n words: the words, the code 0, 4 or 5, and the state after. -/
def State.readBuf (s : State) (port : Nat) (chk : Bool) (a n : Nat) : List Nat × Nat × State :=
  let w := s.readWords port a n
  if !chk then (w.1, if w.2.1 then 5 else 0, w.2.2)
  else
    let c := w.2.2.commonsRead port (a + 8 * n) 8
    if w.2.1 || c.2.1 then (w.1, 5, c.2.2)
    else if verifyCheck w.1 c.1 ≠ 0 then (w.1, 4, c.2.2.carriedFail (a + 8 * n) 3 false)
    else (w.1, 0, c.2.2)

def State.writeBuf (s : State) (port : Nat) (chk : Bool) (a : Nat) (ws : List Nat) : State :=
  s.writeWords port a (if chk then ws ++ [carryWord ws] else ws)

/-- Write n bytes into the commons, 4 at a time. -/
def State.writeHalves (s : State) (port a : Nat) : List Nat → State
  | [] => s
  | v :: r => (s.commonsWrite port a 4 v).writeHalves port (a + 4) r

/-! ## The work of the commands -/

/-- The work's outcome: the end, and the state it leaves. -/
abbrev SqOut := SqFin × State

/-- Record a command's overflows in `SOLV_Pp_OVF` (R212). -/
def State.countOvf (s : State) (p : Nat) (o : Ovf) : State :=
  match o with
  | [] => s
  | j :: _ =>
    let s := if s.rd (R.SOLV_Pp_OVF_CNT p) = 0 then s.wr (R.SOLV_Pp_OVF_FIRST p) j else s
    s.incBy (R.SOLV_Pp_OVF_CNT p) o.length

/-- Store a command's results in its problem. -/
def State.putResult (s : State) (p : Nat) (x : ProbO) (f : SqFin) : SqOut :=
  ({ f with ovf := !x.2.isEmpty }, (s.setProb p x.1).countOvf p x.2)

def scalarArg (m x : Nat) : Int := scalarVal m (signedOf 8 x)

/-- PDEF's results (R215). -/
def State.pdefEnd (s : State) (ws : List Nat) (p : Nat) : State :=
  let x := { Prob.free with
    tauX := signedOf 8 (dfield ws 21 1), tauM := dfield ws 22 2, delX := signedOf 8 (dfield ws 24 1),
    delM := dfield ws 26 2 }
  (((s.setProb p x).wr (R.SOLV_Pp_DIM_NROWS p) (dfield ws 16 4)).wr (R.SOLV_Pp_STAT_NW p) (dfield ws 20 1)).wr
    (R.SOLV_Pp_STAT_STATE p) 1

def workPatt (ws : List Nat) (p port : Nat) (s : State) : SqOut :=
  let b := s.readBuf port (dchk ws) (dfield ws 16 4) (dfield ws 20 4)
  if b.2.1 ≠ 0 then (SqFin.err b.2.1, b.2.2)
  else
    let s := b.2.2
    let x := s.prob p
    let nrows := s.rd (R.SOLV_Pp_DIM_NROWS p)
    match patternPart nrows b.1.length x.cols.length b.1 with
    | none => (SqFin.err 9, s.setProb p { x with cols := [] })
    | some cs =>
      let cols := x.cols ++ cs
      if dfield ws 24 1 = 1 ∧ cols.length ≠ nrows then (SqFin.err 9, s.setProb p { x with cols := [] })
      else (SqFin.ok, s.setProb p { x with cols := cols })

/-- The runs held by all problems in an area, in rising order. -/
def State.cellRuns (s : State) : List (Nat × Nat) :=
  ((List.range 8).filter (fun p => s.rd (R.SOLV_Pp_CELLS_CELLS p) != 0)).foldl
    (fun l p => insertRun ((s.prob p).cellsAt, s.rd (R.SOLV_Pp_CELLS_CELLS p)) l) []
def State.wordRuns (s : State) : List (Nat × Nat) :=
  ((List.range 8).filter (fun p => s.rd (R.SOLV_Pp_SWORDS_WORDS p) != 0)).foldl
    (fun l p => insertRun ((s.prob p).wordsAt, s.rd (R.SOLV_Pp_SWORDS_WORDS p)) l) []

def valueCells : Nat := 8388608
def structWords : Nat := 2097152

def State.showFreeRuns (s : State) : State :=
  (s.wr R.SOLV_FREEC_CELLS (largestFree valueCells 0 s.cellRuns)).wr R.SOLV_FREES_WORDS
    (largestFree structWords 0 s.wordRuns)

/-- The six work and depth figures of R217; the manual does not state how they follow from the structure. -/
def State.showBounds (s : State) (p : Nat) (args : List Nat) : State :=
  (((((s.wr (R.SOLV_Pp_WREF_W p) (Config.freeFun 13 args)).wr (R.SOLV_Pp_DREF_D p) (Config.freeFun 14 args)).wr
    (R.SOLV_Pp_WSOL_W p) (Config.freeFun 15 args)).wr (R.SOLV_Pp_DSOL_D p) (Config.freeFun 16 args)).wr
    (R.SOLV_Pp_WSPM_W p) (Config.freeFun 17 args)).wr (R.SOLV_Pp_DSPM_D p) (Config.freeFun 18 args)

/-- Cells SYMB needs for problem p (R210). -/
def State.symbCells (s : State) (p : Nat) : Nat :=
  let nrows := s.rd (R.SOLV_Pp_DIM_NROWS p)
  nfac nrows (fillFrom 0 [] (s.prob p).cols) + s.rd (R.SOLV_Pp_STAT_NW p) * nrows

/-- SYMB's code: the pattern, δ, and room in both areas (R210, R217). -/
def State.symbCode (s : State) (p : Nat) : Nat :=
  let x := s.prob p
  if x.cols.length ≠ s.rd (R.SOLV_Pp_DIM_NROWS p) then 9
  else if !x.deltaOk then 11
  else if (firstFit (s.symbCells p) valueCells 0 s.cellRuns).isNone then 7
  else if (firstFit x.swords structWords 0 s.wordRuns).isNone then 8
  else 0

/-- SYMB's results (R210, R217). -/
def State.symbEnd (s : State) (p : Nat) : State :=
  let x := s.prob p
  let cells := s.symbCells p
  let ca := (firstFit cells valueCells 0 s.cellRuns).getD 0
  let wa := (firstFit x.swords structWords 0 s.wordRuns).getD 0
  let s := s.setProb p { x with fill := fillFrom 0 [] x.cols, cellsAt := ca, wordsAt := wa, k := [], vec := [] }
  let s := (s.wr (R.SOLV_Pp_CELLS_CELLS p) cells).wr (R.SOLV_Pp_SWORDS_WORDS p) x.swords
  ((s.showBounds p x.patternArgs).wr (R.SOLV_Pp_STAT_STATE p) 2).showFreeRuns

/-- Clear the registers of a problem but for its state. -/
def State.clearProb (s : State) (p : Nat) : State :=
  let z (s : State) (f : FieldRef) : State := s.wr f 0
  [R.SOLV_Pp_STAT_FSTALE p, R.SOLV_Pp_STAT_REG p, R.SOLV_Pp_STAT_SIGNF p, R.SOLV_Pp_CELLS_CELLS p,
    R.SOLV_Pp_SWORDS_WORDS p, R.SOLV_Pp_WREF_W p, R.SOLV_Pp_DREF_D p, R.SOLV_Pp_WSOL_W p, R.SOLV_Pp_DSOL_D p,
    R.SOLV_Pp_WSPM_W p, R.SOLV_Pp_DSPM_D p, R.SOLV_Pp_OVF_FIRST p, R.SOLV_Pp_OVF_CNT p].foldl z s

/-- PDEL's results (R210): both runs are free. -/
def State.pdelEnd (s : State) (p : Nat) : State :=
  let s := ((s.setProb p Prob.free).clearProb p).wr (R.SOLV_Pp_STAT_STATE p) 0
  ((s.wr (R.SOLV_Pp_STAT_NW p) 0).wr (R.SOLV_Pp_DIM_NROWS p) 0).showFreeRuns

def workKdelta (ws : List Nat) (p port : Nat) (s : State) : SqOut :=
  let b := s.readBuf port (dchk ws) (dfield ws 16 4) (2 * dfield ws 20 4)
  if b.2.1 ≠ 0 then (SqFin.err b.2.1, b.2.2)
  else
    let s := b.2.2
    let x := s.prob p
    match kdelta x b.1 with
    | none => (SqFin.err 10, s)
    | some es => (SqFin.ok, s.setProb p { x with k := applyCells x.k es })

def workVdelta (ws : List Nat) (p port : Nat) (s : State) : SqOut :=
  let b := s.readBuf port (dchk ws) (dfield ws 16 4) (2 * dfield ws 20 4)
  if b.2.1 ≠ 0 then (SqFin.err b.2.1, b.2.2)
  else
    let s := b.2.2
    let x := s.prob p
    match vdelta x (dfield ws 24 1) b.1 with
    | none => (SqFin.err 10, s)
    | some es => (SqFin.ok, s.setProb p { x with vec := applyCells x.vec es })

/-- The 32-bit words of 64-bit words, low half first. -/
def halves (ws : List Nat) : List Nat := ws.flatMap fun w => [w % 2 ^ 32, w / 2 ^ 32]

/-- VREAD's word of a row (R221): the cell in [47:0] and EV in [55:48]. -/
def vreadWord (x : Prob) (v row : Nat) : Nat :=
  patternOf 48 (x.cell v row) + 2 ^ 48 * patternOf 8 (x.col row).ev

def workVread (ws : List Nat) (p port : Nat) (s : State) : SqOut :=
  let n := dfield ws 24 4
  let b := s.readBuf port (dchk ws) (dfield ws 16 4) ((n + 1) / 2)
  if b.2.1 ≠ 0 then (SqFin.err b.2.1, b.2.2)
  else
    let s := b.2.2
    let x := s.prob p
    let rows := (halves b.1).take n
    if rows.any (fun r => decide (x.n ≤ r)) then (SqFin.err 3, s)
    else (SqFin.ok, s.writeBuf port (dchk ws) (dfield ws 20 4) (rows.map (vreadWord x (dfield ws 28 1))))

def workRefac (_ws : List Nat) (p port desc : Nat) (s : State) : SqOut :=
  let r := refactor (s.prob p)
  let f := r.2
  let s := (s.setProb p r.1).countOvf p f.ovf
  let bytes := (flagEntries f.flags).flatMap (leBytes 3)
  let words := (List.range 6).map fun i => leNat ((bytes.drop (8 * i)).take 8)
  ({ SqFin.ok with reg := f.flags.any (fun e => e.2 != 4), ovf := !f.ovf.isEmpty,
                   signf := f.flags.any (fun e => e.2 == 4), flagcnt := f.flags.length },
    s.writeWords port (desc + 16) words)

/-- What the registers show of a REFAC that completes (R208, R229, R230). -/
def State.refacEnd (s : State) (p : Nat) (f : SqFin) : State :=
  let s := (((s.wr (R.SOLV_Pp_STAT_STATE p) 3).wr (R.SOLV_Pp_STAT_FSTALE p) 0).wrBit (R.SOLV_Pp_STAT_REG p) f.reg).wrBit
    (R.SOLV_Pp_STAT_SIGNF p) f.signf
  let s := (((s.wr R.SOLV_STATUS_PROB p).wrBit R.SOLV_STATUS_REG f.reg).wrBit R.SOLV_STATUS_SIGNF f.signf).wrBit
    R.SOLV_STATUS_OVF f.ovf
  s.wr R.SOLV_STATUS_FLAGCNT (min 16777215 f.flagcnt)

/-- A KDELTA has changed K (R218). -/
def State.kdeltaEnd (s : State) (p : Nat) : State := s.when (s.probState p == 3) fun s => s.wr (R.SOLV_Pp_STAT_FSTALE p) 1

/-- What a command that completes with code 0 changes beside the cells and words it has written. -/
def State.sqCommit (s : State) (ws : List Nat) (f : SqFin) : State :=
  match dop ws with
  | 1 => s.pdefEnd ws (dprob ws)
  | 3 => s.symbEnd (dprob ws)
  | 4 => s.pdelEnd (dprob ws)
  | 5 => s.kdeltaEnd (dprob ws)
  | 8 => s.refacEnd (dprob ws) f
  | _ => s

def workSolve (ws : List Nat) (p : Nat) (s : State) : SqOut :=
  s.putResult p (solveVec (dfield ws 16 1) (dfield ws 17 1) (s.prob p, []))
    { SqFin.ok with fstale := s.rdBit (R.SOLV_Pp_STAT_FSTALE p) }

def workSpmv (ws : List Nat) (p : Nat) (s : State) : SqOut :=
  s.putResult p (spmv (dfield ws 16 1) (dfield ws 17 1) (dfield ws 18 1 == 1) (s.prob p, [])) SqFin.ok

def workVop (ws : List Nat) (p port desc : Nat) (s : State) : SqOut :=
  let dst := dfield ws 17 1
  let a := dfield ws 18 1
  let al := signedOf 32 (dfield ws 20 4)
  let x : ProbO := (s.prob p, [])
  match dfield ws 16 1 with
  | 0 => s.putResult p (vopCopy dst a x) SqFin.ok
  | 1 => s.putResult p (vopAxpby dst a (dfield ws 19 1) al (signedOf 32 (dfield ws 24 4)) x) SqFin.ok
  | 2 => s.putResult p (vopClamp dst a x) SqFin.ok
  | 3 => s.putResult p (vopFill dst al x) SqFin.ok
  | _ => (SqFin.ok, s.commonsWrite port (desc + 28) 4 (scalarWord (vopNorm x.1 a)))

def workRefine (ws : List Nat) (p port desc : Nat) (s : State) : SqOut :=
  let b := dfield ws 16 1
  let xx := dfield ws 17 1
  let x := refine b xx (dfield ws 18 1) (dfield ws 19 1) (s.prob p, [])
  let r := s.putResult p x SqFin.ok
  (r.1, r.2.commonsWrite port (desc + 20) 4 (scalarWord (residual x.1 b xx)))

/-- A dense block's 32-bit words. -/
def dqpWords (nv nc : Nat) : Nat := 2 + nv * nv + 3 * nv + nc * nv + 2 * nc + nv + 12

/-- Where the parts of a dense block lie, in 32-bit words. -/
def dqpUAt (nv nc : Nat) : Nat := 2 + nv * nv + 3 * nv + nc * nv + 2 * nc

/-- The result of a dense program: the code, the iterations, u and the words of the active set. -/
structure DqpRes where
  code : Nat
  iters : Nat
  u : Nat → Nat
  act : Nat → Nat

/-- The solution of a dense block (R234). The method's path is not laid down: where the limit is reached first and the iterate it
then stops at, a feasible one, are free functions of the block, as is the way an entry of the exact minimum is rounded
(DEDUCED: notes/assumptions/23). -/
def dqpSolve (nv nc itmax : Nat) (v : List Nat) : DqpRes :=
  let d := Dqp.ofWords nv nc v
  let pd := d.posDef
  let opt := if pd then d.minimum d.cons [] else none
  let w (i : Nat) : Int := signedOf 32 (v.getD (2 + nv * nv + i) 0)
  let cand (i : Nat) : Int := clampInt (w (nv + i)) (w (2 * nv + i)) (signedOf 32 (Config.freeFun 22 (i :: v)))
  let feas := d.feasible ((List.range nv).map fun i => (cand i : Rat) / 65536)
  let k := Config.freeFun 20 v
  let code := if pd then (if opt.isNone then 2 else if k % 2 = 1 ∧ feas then 1 else 0)
    else if feas then k % 4 else 2 + k % 2
  let n := Config.freeFun 21 v
  let up (i : Nat) (x : Rat) : Int :=
    let y := (x * 65536).floor
    if (y : Rat) = x * 65536 then y else y + Config.freeFun 27 (i :: v) % 2
  let bits (act : List (DqpCon × Bool)) (i : Nat) : Nat :=
    act.foldl (fun m a => let b := 2 * a.1.idx + b2n a.2; if b / 32 = i then m + 2 ^ (b % 32) else m) 0
  { code, iters := if code = 1 then itmax else if code = 0 then 1 + n % itmax else n % (itmax + 1),
    u := fun i => match code, opt with
      | 0, some m => patternOf 32 (up i (m.1.getD i 0))
      | 0, none => patternOf 32 (cand i)
      | 1, _ => patternOf 32 (cand i)
      | _, _ => v.getD (dqpUAt nv nc + i) 0,
    act := fun i => match code, opt with
      | 0, some m => bits m.2 i
      | _, _ => Config.freeFun 23 (i :: v) % 2 ^ 32 }

/-- DQP (R234). -/
def workDqp (ws : List Nat) (port : Nat) (s : State) : SqOut :=
  let a := dfield ws 16 4
  let h := memRead s.mem a 4
  let nv := bitsOf h 7 0
  let nc := bitsOf h 15 8
  let itmax := bitsOf h 23 16
  let n := dqpWords nv nc
  let nw := (n + 1) / 2
  if !(inRange 1 64 nv && decide (nc ≤ 128) && itmax != 0 && bufOk (dchk ws) a nw) then (SqFin.err 3, s)
  else
    let b := s.readBuf port (dchk ws) a nw
    if b.2.1 ≠ 0 then (SqFin.err b.2.1, b.2.2)
    else
      let v := (halves b.1).take n
      let r := dqpSolve nv nc itmax v
      let uAt := dqpUAt nv nc
      let out := (List.range (2 * nw)).map fun i =>
        if i = 1 then r.code + 256 * r.iters
        else if uAt ≤ i ∧ i < uAt + nv then r.u (i - uAt)
        else if uAt + nv ≤ i ∧ i < n then r.act (i - uAt - nv)
        else (halves b.1).getD i 0
      let words := (List.range nw).map fun i => out.getD (2 * i) 0 + 2 ^ 32 * out.getD (2 * i + 1) 0
      ({ SqFin.ok with limit := r.code == 1 }, b.2.2.writeBuf port (dchk ws) a words)

/-- An encoder block: its rows, its layers, and where its inputs and outputs lie. -/
structure EncBlock where
  nb : Nat
  nin : Nat
  layers : List EncLayer
  inAt : Nat
  outAt : Nat

def EncBlock.words (e : EncBlock) : Nat := (e.outAt + 16 * e.nb + 7) / 8

/-- The encoder block at a (R235): the header, the layers, the inputs and the outputs in this order; none where a count is out
of range or the block leaves the commons. -/
def State.encBlock (s : State) (chk : Bool) (a : Nat) : Option EncBlock :=
  let h := memRead s.mem a 4
  let nb := bitsOf h 11 0
  let nl := bitsOf h 14 12
  let nin := bitsOf h 23 16
  let ly := if inRange 1 2048 nb && inRange 1 4 nl && inRange 1 64 nin then encLayers (memBytes s.mem a 34000) nl nin 4
    else none
  match ly with
  | none => none
  | some l =>
    let e : EncBlock := ⟨nb, nin, l.1, l.2, pad4 (l.2 + 2 * nb * nin)⟩
    if bufOk chk a e.words then some e else none

/-- ENC (R235). -/
def workEnc (ws : List Nat) (port : Nat) (s : State) : SqOut :=
  let a := dfield ws 16 4
  match s.encBlock (dchk ws) a with
  | none => (SqFin.err 3, s)
  | some e =>
    let b := s.readBuf port (dchk ws) a e.words
    if b.2.1 ≠ 0 then (SqFin.err b.2.1, b.2.2)
    else
      let bs := wordsBytes b.1
      let row (i : Nat) : List Int := (List.range e.nin).map fun k => sbyte bs (e.inAt + 2 * (e.nin * i + k)) 2
      let out := (List.range e.nb).flatMap fun i => encBytes (encRow bs e.layers (row i))
      let bs' := bs.take e.outAt ++ out ++ bs.drop (e.outAt + 16 * e.nb)
      let words := (List.range e.words).map fun i => leNat ((bs'.drop (8 * i)).take 8)
      (SqFin.ok, b.2.2.writeBuf port (dchk ws) a words)

/-! ## Outputs of a failed command (R236) -/

/-- A free cell. -/
def freeCell (d row : Nat) : Int := signedOf 48 (Config.freeFun 30 [d, row])

def scrambleVec (d v : Nat) (x : Prob) : Prob :=
  (List.range x.n).foldl (fun x row => setCell x v row (freeCell d (row + 2 ^ 18 * v))) x

/-- W0 and the primal rows of W2 are unspecified after ITER (R232). -/
def iterFree (d : Nat) (x : Prob) : Prob :=
  let y := scrambleVec d 0 x
  (List.range y.n).foldl (fun y row =>
    if (y.col row).dual then y else setCell y 2 row (freeCell d (row + 2 ^ 20))) y

/-- Free cells at every place of K's pattern. -/
def scrambleK (d : Nat) (x : Prob) : Prob :=
  { x with k := ((List.range x.n).zip x.cols).foldl (fun m c => (c.1 :: c.2.rows).foldl (fun m i =>
      NMap.set 0 m (keyOf i c.1) (signedOf 48 (Config.freeFun 41 [d, i, c.1]))) m) [] }

/-- A factor of free cells. -/
def scrambleFactor (d : Nat) (x : Prob) : Prob :=
  let keys := (List.range x.n).zip x.fill
  let l : NMap Int := keys.foldl (fun m c => c.2.foldl (fun m i =>
    NMap.set 0 m (keyOf i c.1) (signedOf 48 (Config.freeFun 36 [d, i, c.1]))) m) []
  let dd : NMap Int := keys.foldl (fun m c => NMap.set 0 m c.1 (signedOf 48 (Config.freeFun 37 [d, c.1]))) []
  let di : NMap Int := keys.foldl (fun m c => NMap.set 0 m c.1 (signedOf 48 (Config.freeFun 38 [d, c.1]))) []
  { x with l := l, d := dd, dinv := di }

/-- A free pattern of at most n columns. -/
def freePattern (d n : Nat) : List SolvCol :=
  (List.range (Config.freeFun 42 [d] % (n + 1))).map fun j =>
    let e (i : Nat) : Int := (Config.freeFun 43 [d, j, i] % 128 : Nat) - 64
    ⟨Config.freeFun 43 [d, j, 3] % 2 == 1, e 0, e 1, e 2,
      (List.range n).filter fun i => decide (j < i) && Config.freeFun 44 [d, j, i] % 2 == 1⟩

/-- Free words in place of an output buffer. -/
def State.scrambleBuf (s : State) (port d a n : Nat) : State :=
  s.writeWords port a ((List.range n).map fun i => Config.freeFun 31 [d, i] % 2 ^ 64)

/-- Free bytes in place of an output that does not fill words, 4 at a time. -/
def State.scrambleHalves (s : State) (port d a n : Nat) : State :=
  s.writeHalves port a ((List.range n).map fun i => Config.freeFun 32 [d, i])

/-- The free cells a failed command leaves in its problem, which is in a state the command accepts: K and DQ, DU and W1 and W2
of an iteration are outputs of a delta list alone, and a bad list has changed none of them (R218, R232). -/
def failedCells (ws : List Nat) (code d st nrows : Nat) (x : Prob) : Prob :=
  let resident := st = 2 ∨ st = 3
  let vec (x : Prob) (v : Nat) : Prob := if v < 3 then scrambleVec d v x else x
  let applying := code = 6 ∨ code = 12
  match dop ws with
  | 2 => if st = 1 ∧ code ≠ 9 then { x with cols := freePattern d nrows } else x
  | 4 => if resident then scrambleFactor d ([0, 1, 2, 3, 4].foldl (fun x v => scrambleVec d v x) (scrambleK d x)) else x
  | 5 => if resident ∧ applying then scrambleK d x else x
  | 6 => if resident ∧ applying then scrambleVec d (dfield ws 24 1) x else x
  | 8 => if st = 3 then scrambleFactor d x else x
  | 9 => if resident then vec x (dfield ws 16 1) else x
  | 10 => if resident then vec x (dfield ws 17 1) else x
  | 11 => if resident ∧ dfield ws 16 1 ≠ 4 then vec x (dfield ws 17 1) else x
  | 12 => if resident then vec (vec x (dfield ws 17 1)) (dfield ws 18 1) else x
  | 13 => if resident then iterFree d x else x
  | _ => x

/-- The outputs of a command that ended with an error are unspecified (R236). -/
def State.scramble (s : State) (port : Nat) (ws : List Nat) (desc code : Nat) : State :=
  let d := s.draw.1
  let s := s.draw.2
  let p := dprob ws
  let a := dfield ws 16 4
  let st := s.probState p
  let s := if dop ws < 14 ∧ p < 8 then
      s.setProb p (failedCells ws code d st (s.rd (R.SOLV_Pp_DIM_NROWS p)) (s.prob p)) else s
  match dop ws with
  | 1 => if p < 8 ∧ st = 0 then
      (s.wr (R.SOLV_Pp_DIM_NROWS p) (Config.freeFun 45 [d])).wr (R.SOLV_Pp_STAT_NW p) (Config.freeFun 46 [d]) else s
  | 3 => if p < 8 ∧ st = 1 then s.showBounds p [d, st] else s
  | 7 =>
    let n := min 262144 (dfield ws 24 4)
    let b := dfield ws 20 4
    if bufOk (dchk ws) b n then s.scrambleBuf port d b (n + b2n (dchk ws)) else s
  | 8 => s.scrambleBuf port d (desc + 16) 6
  | 11 => s.scrambleHalves port d (desc + 28) 1
  | 12 => s.scrambleHalves port d (desc + 20) 1
  | 13 => s.scrambleHalves port d (desc + 40) 3
  | 14 =>
    let h := memRead s.mem a 4
    let nv := bitsOf h 7 0
    let nc := bitsOf h 15 8
    let nw := (dqpWords nv nc + 1) / 2
    if bufOk (dchk ws) a nw then
      let s := (s.scrambleHalves port d (a + 4) 1).scrambleHalves port (d + 1) (a + 4 * dqpUAt nv nc) (nv + 12)
      s.when (dchk ws) (State.scrambleBuf · port d (a + 8 * nw) 1)
    else s
  | 15 =>
    match s.encBlock (dchk ws) a with
    | some e => (s.scrambleHalves port d (a + e.outAt) (4 * e.nb)).when (dchk ws)
        (State.scrambleBuf · port d (a + 8 * e.words) 1)
    | none => s
  | _ => s

/-! ## The work of a command in steps (R220, R233) -/

def ceilDiv (a b : Nat) : Nat := (a + b - 1) / b

/-- W of a command: the most steps it executes. -/
def State.workSteps (s : State) (ws : List Nat) : Nat :=
  let p := dprob ws
  let n := s.rd (R.SOLV_Pp_DIM_NROWS p)
  let v := ceilDiv n 2048
  let sol := s.rd (R.SOLV_Pp_WSOL_W p)
  let spm := s.rd (R.SOLV_Pp_WSPM_W p)
  match dop ws with
  | 2 => 2 + ceilDiv (dfield ws 20 4) 512
  | 3 => 16 + ceilDiv n 32 + ceilDiv (s.prob p).nke 64
  | 5 => 4 + 2 * ceilDiv (dfield ws 20 4) 256
  | 6 => 4 + 2 * ceilDiv (dfield ws 20 4) 256
  | 7 => 2 + ceilDiv (dfield ws 24 4) 512
  | 8 => s.rd (R.SOLV_Pp_WREF_W p)
  | 9 => sol
  | 10 => spm
  | 11 => v + 1
  | 12 => dfield ws 19 1 * (sol + spm + 2 * v)
  | 13 => dfield ws 16 2 * (sol + 2 * v) + dfield ws 16 2 / dfield ws 18 1 * (2 * spm)
  | 14 => 8 + 3 * bitsOf (memRead s.mem (dfield ws 16 4) 4) 23 16
  | 15 => 4 + (match s.encBlock (dchk ws) (dfield ws 16 4) with
      | some e => ceilDiv (e.nb * (e.layers.map fun l => l.nout * l.nin).sum) 8192
      | none => 0)
  | _ => 2

/-! ## Queues and lanes (R222 to R224) -/

def ticketKey (short : Bool) (seq : Nat) : Nat := seq + 65536 * b2n short

def State.lanesIn (s : State) : List Nat :=
  (List.range 5).filter (fun k => decide (s.posOf k < 4) && s.rd (R.SOLV_LANEk_STATE k) != 0)

/-- Lanes in service in the order of their service positions. -/
def State.lanesByPos (s : State) : List Nat :=
  (List.range 4).flatMap (fun pos => s.lanesIn.filter (fun k => s.posOf k == pos))

/-- Show what the queues hold and which lanes run (R239). -/
def State.showQueues (s : State) : State :=
  let h := s.solv.held
  let lanesOf (short : Bool) : List Nat :=
    (h.filter (fun c => c.short == short)).flatMap (fun c => (c.run.map SqRun.lanes).getD [])
  let long := lanesOf false
  let short := lanesOf true
  let s := (s.wr R.SOLV_STAT_LQ (h.filter (fun c => !c.short)).length).wr R.SOLV_STAT_SQ
    (h.filter (fun c => c.short)).length
  let s := (s.wrBit R.SOLV_STAT_LRUN (h.any fun c => !c.short && c.run.isSome)).wr R.SOLV_STAT_LLANES long.length
  let s := (s.wr R.SOLV_STAT_SLANES short.length).wr R.SOLV_STAT_NLANES s.lanesIn.length
  s.lanesIn.foldl (fun s k => s.wr (R.SOLV_LANEk_STATE k) (if long.contains k then 2 else if short.contains k then 3
    else 1)) s

/-- PROB of a held command: as read at its start, or as the descriptor stands. -/
def State.sqProb (s : State) (c : SqCmd) : Nat :=
  match c.run with
  | some r => dprob r.words
  | none => (NMap.get 0 s.mem (c.desc + 1)).toNat

/-- Does a wait for its predecessor on the same problem (R224) hold the command back? -/
def State.sqBlocked (s : State) (c : SqCmd) : Bool :=
  let p := s.sqProb c
  decide (p < 8) && s.solv.held.any fun d =>
    !(d.short == c.short && d.seq == c.seq) && s.sqProb d == p
      && (decide (d.cycle < c.cycle) || (d.cycle == c.cycle && !d.short && c.short) || d.run.isSome)

/-- Replace the held command with the same ticket. -/
def State.putCmd (s : State) (c : SqCmd) : State :=
  s.setSolv { s.solv with held := s.solv.held.map (fun d => if d.short = c.short ∧ d.seq = c.seq then c else d) }

/-- Start a command on lanes: the descriptor is read and checked (R219, R237); a REFAC that starts clears the record of
overflows (R239). -/
def State.sqStart (s : State) (c : SqCmd) (lanes : List Nat) : State :=
  let w := s.readWords (16 + s.lowPos lanes) c.desc 8
  let s := w.2.2
  let code := if w.2.1 then 5 else s.startCode c.short w.1
  let s := s.when (code == 0 && dop w.1 == 8) fun s =>
    (s.wr (R.SOLV_Pp_OVF_FIRST (dprob w.1)) 0).wr (R.SOLV_Pp_OVF_CNT (dprob w.1)) 0
  s.putCmd { c with run := some ⟨w.1, s.tickN, lanes, if code = 0 then none else some (SqFin.err code), false, 0, none, false⟩ }

/-- Start pending short commands, oldest first, while lanes and the limit allow. -/
def State.startShorts (limit : Nat) : List SqCmd → List Nat → Nat → State → State × List Nat
  | [], free, _, s => (s, free)
  | c :: r, free, used, s =>
    match free with
    | [] => (s, [])
    | k :: ks =>
      if s.sqBlocked c || decide (limit ≤ used) then (s, free)
      else State.startShorts limit r ks (used + 1) (s.sqStart c [k])

/-- A long command that runs on one lane (R220). -/
def oneLane (op : Nat) : Bool := decide (op < 8) || decide (13 < op)

/-- The assignment of lanes at a tick edge (R223). -/
def State.assignLanes (s : State) : State :=
  let lanes := s.lanesByPos
  let held := s.solv.held
  let short := held.filter (fun c => c.short)
  let long := held.filter (fun c => !c.short)
  let kept := short.flatMap (fun c => (c.run.map SqRun.lanes).getD [])
  let free := lanes.filter (fun k => !kept.contains k)
  let cap := min (max 1 (s.rd R.SOLV_CFG_SHORTL)) (lanes.length - 1)
  let limit := if long.isEmpty then 8 else cap
  let r := State.startShorts limit (short.filter (fun c => c.run.isNone)) free kept.length s
  let s := r.1
  let rest := r.2
  match long.find? (fun c => c.run.isSome) with
  | some c =>
    let run := c.run.getD ⟨[], 0, [], none, false, 0, none, false⟩
    (s.putCmd { c with run := some { run with lanes := if oneLane (dop run.words) then rest.take 1 else rest } }).showQueues
  | none =>
    match long, rest with
    | c :: _, k :: ks =>
      if s.sqBlocked c then s.showQueues
      else
        let op := (NMap.get 0 s.mem c.desc).toNat
        (s.sqStart c (if oneLane op then [k] else k :: ks)).showQueues
    | _, _ => s.showQueues

/-! ## Completion (R227, R228, R236) -/

def SqCmd.lanes (c : SqCmd) : List Nat := (c.run.map SqRun.lanes).getD []

/-- The end of a held command (R227): its results stand, or are unspecified after an error (R236); STEPS, at most the command's
work, and STATUS go to the descriptor, STATUS last, the completion word is posted, and the events are raised. -/
def State.sqEnd (s : State) (c : SqCmd) (f : SqFin) (steps : Nat) : State :=
  let pos := if c.lanes.isEmpty then 0 else s.lowPos c.lanes
  let port := 16 + pos
  let ws := match c.run with
    | some r => r.words
    | none => (List.range 8).map fun i => memRead s.mem (c.desc + 8 * i) 8
  let ticks := match c.run with
    | some r => min 65535 (s.tickN - r.start)
    | none => 0
  let steps := if c.run.isNone then 0 else min steps (s.workSteps ws)
  let s := s.setSolv { s.solv with
    held := s.solv.held.filter (fun d => !(d.short == c.short && d.seq == c.seq)),
    done := NMap.set none s.solv.done (ticketKey c.short c.seq) (some (s.now, f.status)) }
  let s := if f.code = 0 then s.sqCommit ws f else s.scramble port ws c.desc f.code
  let s := s.commonsWrite port (c.desc + 12) 4 steps
  let s := s.commonsWrite port (c.desc + 8) 4 (f.status + 65536 * ticks)
  let s := s.when (dpost ws) fun s =>
    s.postHw (16 + pos) (dfield ws 4 4) [c.seq + 65536 * b2n c.short + 2 ^ 32 * f.status + 2 ^ 48 * ticks]
  let s := s.showQueues.raise (if c.short then 57 else 56) [c.core] false
  let ok := f.code == 0
  let s := s.when (!ok) fun s => s.raise 58 [c.core] true
  let s := s.when (f.code == 13) fun s => s.raise 61 [c.core] false
  let s := s.when (ok && f.ovf) fun s => s.raise 60 [c.core] true
  let s := s.when (ok && f.reg) fun s => s.raise 59 [c.core] false
  let s := s.when (ok && f.signf) fun s => s.raise 67 [c.core] false
  s.when (ok && f.limit) fun s => s.raise 68 [c.core] false

/-- What a cancel leaves of a running command's effects (R228), before its other outputs become unspecified: a delta list that
was being applied is applied to its end, and a REFAC leaves its problem structured. -/
def State.cancelEffect (s : State) (r : SqRun) : State :=
  let p := dprob r.words
  let code := (r.fin.map SqFin.code).getD 0
  if code ≠ 0 then s
  else match dop r.words with
  | 5 => if r.fin.isSome then s.kdeltaEnd p else s
  | 8 =>
    let s := s.setProb p { s.prob p with l := [], d := [], dinv := [] }
    ((s.wr (R.SOLV_Pp_STAT_STATE p) 2).wr (R.SOLV_Pp_STAT_REG p) 0).wr (R.SOLV_Pp_STAT_SIGNF p) 0
  | _ => s

/-- Cancelled running commands stop at the tick edge and complete with code 13 (R228). -/
def State.sqCancels (s : State) : State :=
  (s.solv.held.filter (fun c => (c.run.map SqRun.cancel).getD false)).foldl (fun s c =>
    match c.run with
    | some r => (s.cancelEffect r).sqEnd c (SqFin.err 13) (Config.freeFun 39 [c.seq, s.tickN])
    | none => s) s

/-- Lanes with a residue fault leave the scheduling at the tick edge (R202). -/
def State.retireFaulted (s : State) : State :=
  let s := s.lanesIn.foldl (fun s k =>
    if s.solv.faulted.contains k then
      let s := s.setSolv { s.solv with vacant := NMap.set 0 s.solv.vacant k (s.posOf k + 1) }
      ((s.wr (R.SOLV_LANEk_STATE k) 0).wr (R.SOLV_LANEk_POS k) 7).saveBench
    else s) s
  s.setSolv { s.solv with faulted := [] }

/-- The engine's part of a tick edge (R202, R223, R228); the corrected count starts afresh with each period (R205). -/
def State.solvEdge (s : State) : State :=
  let s := if s.boundary 3 then s.setSolv { s.solv with perCor := 0 } else s
  s.sqCancels.retireFaulted.assignLanes

/-- SOLVER_COMMAND_COMPLETE (R227): a running command whose work is done completes; `steps` is the number it executed. A
cancelled one stops at the tick edge and completes there (R228). -/
def execSolverCommandComplete (short : Bool) (seq : BitVec 16) (cyc steps : Nat) (s : State) : Out :=
  .next (match s.solv.held.find? (fun c => c.short == short && c.seq == seq.toNat) with
    | none => s
    | some c =>
      match c.run with
      | none => s
      | some r =>
        match r.fin with
        | none => s
        | some f => if r.cancel then s else (s.atCycle cyc).sqEnd c f steps)

/-- A write to `SOLV_CANCEL` (R228). -/
def State.solvCancel (s : State) (seq : Nat) (short go : Bool) : State :=
  if !go then s
  else match s.solv.held.find? (fun c => c.short == short && c.seq == seq) with
    | none => s
    | some c =>
      match c.run with
      | none => s.sqEnd c (SqFin.err 13) 0
      | some r => s.putCmd { c with run := some { r with cancel := true } }

/-- SOLV_CANCEL (R228). -/
def execSolvCancel (p : Port) (seq : BitVec 16) (short : Bool) (s : State) : Out :=
  .next (s.byCore p fun s =>
    (s.hold R.SOLV_CANCEL (seq.toNat + 65536 * b2n short)).solvCancel seq.toNat short true)

/-! ## Commands -/

/-- Corrected store errors are counted (R205). -/
def State.storeCorrected (s : State) (n : Nat) : State :=
  let old := s.solv.perCor
  let s := (s.incBy R.SOLV_ECC_COR n).setSolv { s.solv with perCor := old + n }
  let thr := s.rd R.SOLV_CFG_CORTHR
  s.when (decide (old < thr) && decide (thr ≤ old + n)) fun s => s.raiseSup 62

/-- An uncorrectable store error (R205): the command ends with code 6 and its problem is damaged. -/
def State.storeBad (s : State) (c : SqCmd) (ws : List Nat) : State :=
  let s := (s.inc R.SOLV_ECC_UNC).raise 63 [c.core] true
  if dprob ws < 8 then (s.wr (R.SOLV_Pp_STAT_STATE (dprob ws)) 4).raise 66 (s.dutiesOf 3) true else s

/-- A residue mismatch in a lane (R202). -/
def State.laneFault (s : State) (k : Nat) : State :=
  let s := s.setSolv { s.solv with faulted := insertNat k s.solv.faulted }
  ((s.inc (R.SOLV_LANEk_RESID k)).setBit (R.SOLV_LANEk_FAULT k)).raiseSup 64

/-- The work of the running command of a ticket, if it is the named operation and not yet done. A residue mismatch is one of a
lane that runs the command (R202). -/
def State.solvWork (s : State) (short : Bool) (seq : BitVec 16) (u : SolvUpset) (is : List Nat → Bool)
    (work : List Nat → Nat → Nat → SqCmd → State → Option SqFin × State) : State :=
  match s.solv.held.find? (fun c => c.short == short && c.seq == seq.toNat) with
  | none => s
  | some c =>
    match c.run with
    | none => s
    | some r =>
      if r.fin.isSome || r.lanes.isEmpty || !is r.words then s
      else
        let port := 16 + s.lowPos r.lanes
        let fin (f : SqFin) (s : State) : State :=
          match s.solv.held.find? (fun d => d.short == short && d.seq == seq.toNat) with
          | some d => s.putCmd { d with run := d.run.map fun r => { r with fin := some f } }
          | none => s
        let s := if u.corrected = 0 then s else s.storeCorrected u.corrected
        if u.uncorrectable then fin (SqFin.err 6) (s.storeBad c r.words)
        else match u.lane.filter (fun k => r.lanes.contains k.val) with
          | some k => fin (SqFin.err 12) (s.laneFault k.val)
          | none =>
            let w := work r.words (dprob r.words) port c s
            match w.1 with
            | none => w.2
            | some f => fin f w.2

/-- A command with operation OP whose work is one pass. -/
def State.solvOne (s : State) (op : Nat) (short : Bool) (seq : BitVec 16) (u : SolvUpset)
    (work : List Nat → Nat → Nat → Nat → State → SqOut) : State :=
  s.solvWork short seq u (fun ws => dop ws == op) fun ws p port c s =>
    let r := work ws p port c.desc s
    (some r.1, r.2)

/-- PDEF (R215); its results stand from its completion on. -/
def execPdef (short : Bool) (seq : BitVec 16) (u : SolvUpset) (s : State) : Out :=
  .next (s.solvOne 1 short seq u fun _ _ _ _ s => (SqFin.ok, s))
/-- PATT (R216). -/
def execPatt (short : Bool) (seq : BitVec 16) (u : SolvUpset) (s : State) : Out :=
  .next (s.solvOne 2 short seq u fun ws p port _ s => workPatt ws p port s)
/-- SYMB (R210, R217); its results stand from its completion on. -/
def execSymb (short : Bool) (seq : BitVec 16) (u : SolvUpset) (s : State) : Out :=
  .next (s.solvOne 3 short seq u fun _ p _ _ s => (SqFin.err (s.symbCode p), s))
/-- PDEL (R210); its results stand from its completion on. -/
def execPdel (short : Bool) (seq : BitVec 16) (u : SolvUpset) (s : State) : Out :=
  .next (s.solvOne 4 short seq u fun _ _ _ _ s => (SqFin.ok, s))
/-- KDELTA (R218). -/
def execKdelta (short : Bool) (seq : BitVec 16) (u : SolvUpset) (s : State) : Out :=
  .next (s.solvOne 5 short seq u fun ws p port _ s => workKdelta ws p port s)
/-- VDELTA (R218). -/
def execVdelta (short : Bool) (seq : BitVec 16) (u : SolvUpset) (s : State) : Out :=
  .next (s.solvOne 6 short seq u fun ws p port _ s => workVdelta ws p port s)
/-- VREAD (R221). -/
def execVread (short : Bool) (seq : BitVec 16) (u : SolvUpset) (s : State) : Out :=
  .next (s.solvOne 7 short seq u fun ws p port _ s => workVread ws p port s)
/-- REFAC (R229, R230). -/
def execRefac (short : Bool) (seq : BitVec 16) (u : SolvUpset) (s : State) : Out :=
  .next (s.solvOne 8 short seq u workRefac)
/-- SOLVE (R221, R231). -/
def execSolve (short : Bool) (seq : BitVec 16) (u : SolvUpset) (s : State) : Out :=
  .next (s.solvOne 9 short seq u fun ws p _ _ s => workSolve ws p s)
/-- SPMV (R221). -/
def execSpmv (short : Bool) (seq : BitVec 16) (u : SolvUpset) (s : State) : Out :=
  .next (s.solvOne 10 short seq u fun ws p _ _ s => workSpmv ws p s)

/-- A VOP command with the function FN. -/
def State.solvVop (s : State) (fn : Nat) (short : Bool) (seq : BitVec 16) (u : SolvUpset) : State :=
  s.solvWork short seq u (fun ws => dop ws == 11 && dfield ws 16 1 == fn) fun ws p port c s =>
    let r := workVop ws p port c.desc s
    (some r.1, r.2)

/-- VOP_COPY (R221): DST = A. -/
def execVopCopy (short : Bool) (seq : BitVec 16) (u : SolvUpset) (s : State) : Out := .next (s.solvVop 0 short seq u)
/-- VOP_AXPBY (R221): DST = ALPHA × A + BETA × B. -/
def execVopAxpby (short : Bool) (seq : BitVec 16) (u : SolvUpset) (s : State) : Out := .next (s.solvVop 1 short seq u)
/-- VOP_CLAMP (R221): A clamped between DQ and DU on dual rows. -/
def execVopClamp (short : Bool) (seq : BitVec 16) (u : SolvUpset) (s : State) : Out := .next (s.solvVop 2 short seq u)
/-- VOP_FILL (R221): ALPHA in every row. -/
def execVopFill (short : Bool) (seq : BitVec 16) (u : SolvUpset) (s : State) : Out := .next (s.solvVop 3 short seq u)
/-- VOP_NORM (R221): the largest |A|. -/
def execVopNorm (short : Bool) (seq : BitVec 16) (u : SolvUpset) (s : State) : Out := .next (s.solvVop 4 short seq u)

/-- REFINE (R231). -/
def execRefine (short : Bool) (seq : BitVec 16) (u : SolvUpset) (s : State) : Out :=
  .next (s.solvOne 12 short seq u workRefine)

def iterArgs (ws : List Nat) : IterArgs :=
  { itmax := dfield ws 16 2, chk := dfield ws 18 1, sigma := dfield ws 20 4, rho := dfield ws 24 4,
    rhoinv := dfield ws 28 4, alpha := dfield ws 32 2, epsp := scalarArg (dfield ws 34 2) (dfield ws 36 1),
    epsd := scalarArg (dfield ws 38 2) (dfield ws 37 1) }

/-- ITER (R232): the running iteration goes on for n further iterations, or to its end. The residuals reported are those
of the last check, a free value where none was made. -/
def execIter (short : Bool) (seq : BitVec 16) (u : SolvUpset) (n : Nat) (s : State) : Out :=
  .next (s.solvWork short seq u (fun ws => dop ws == 13) fun ws p port c s =>
    match c.run with
    | none => (none, s)
    | some run =>
      let a := iterArgs ws
      let r := iterRun a n run.iters run.res (s.prob p, [])
      let it := r.2.1
      let res := r.2.2.1
      let stopped := r.2.2.2
      let ovf := run.ovf || !r.1.2.isEmpty
      let s := (s.setProb p r.1.1).countOvf p r.1.2
      let s := match s.solv.held.find? (fun e => e.short == short && e.seq == seq.toNat) with
        | some e => s.putCmd { e with run := e.run.map fun q => { q with iters := it, res := res, ovf := ovf } }
        | none => s
      if !stopped && decide (it < a.itmax) then (none, s)
      else
        let d := s.draw
        let s := d.2.setProb p (iterFree d.1 (d.2.prob p))
        let out (x : Option Nat) (tag : Nat) : Nat := (x.map scalarWord).getD (Config.freeNat tag d.1)
        (some { SqFin.ok with limit := !stopped, ovf := ovf },
          s.writeHalves port (c.desc + 40) [it, out (res.map Prod.fst) 24, out (res.map Prod.snd) 25]))

/-- DQP (R234). -/
def execDqp (short : Bool) (seq : BitVec 16) (u : SolvUpset) (s : State) : Out :=
  .next (s.solvOne 14 short seq u fun ws _ port _ s => workDqp ws port s)
/-- ENC (R235). -/
def execEnc (short : Bool) (seq : BitVec 16) (u : SolvUpset) (s : State) : Out :=
  .next (s.solvOne 15 short seq u fun ws _ port _ s => workEnc ws port s)

/-! ## SQPOST and SQWAIT (R115, R116) -/

/-- The queue's answer to a submission (R115): the ticket, or a refusal. A full queue is the reason given where the address is
bad as well, and the other bits of a refusal are 0 (DEDUCED: notes/assumptions/24). -/
def State.sqSubmit (s : State) (short : Bool) (desc duty : Nat) : Nat × State :=
  if 16 ≤ (s.solv.held.filter (fun c => c.short == short)).length then (2 ^ 31 + 1, s)
  else if desc % 64 ≠ 0 ∨ commonsBytes ≤ desc then (2 ^ 31 + 2, s)
  else
    let seq := if short then s.solv.seqShort else s.solv.seqLong
    let x := s.solv
    let x := { x with
      held := x.held ++ [⟨short, seq, desc, duty, s.now, none⟩],
      done := NMap.set none x.done (ticketKey short seq) none,
      seqShort := if short then (seq + 1) % 65536 else x.seqShort,
      seqLong := if short then x.seqLong else (seq + 1) % 65536 }
    (seq + 65536 * b2n short, (s.setSolv x).showQueues)

/-- SQPOST (R115); sel14[13:1] must be 0. -/
def execSqpost (i : Issue) (rd ra : BitVec 6) (sel : BitVec 14) (s : State) : Out :=
  .next (s.runBlock i (decide (sel.toNat < 2)) fun s c =>
    s.release i fun s =>
      let r := s.sqSubmit (sel.toNat == 1) (c.regN ra.toNat) (s.dutyOf i.core.val)
      r.2.finish i.core.val (c.setRegN rd.toNat r.1) (3 + holdCost i))

/-- The completion status of a ticket, if its command has completed before cycle c, counted from tick 0 (R227). Bits [31:17] of
the ticket are ignored, and a ticket never issued counts as not completed (DEDUCED: notes/assumptions/24). -/
def State.sqDone (s : State) (ticket c : Nat) : Option Nat :=
  ((NMap.get none s.solv.done (ticket % 2 ^ 17)).filter (fun x => decide (x.1 < c))).map Prod.snd

def State.sqStatus (s : State) (ticket : Nat) : Option Nat := s.sqDone ticket s.now

/-- The answer for a command that has not completed: rd[31] = 1, rd[15:0], of which the manual says nothing then, is
a free value, and rd[30:16] is 0 (DEDUCED: notes/assumptions/24). -/
def State.sqNotDone (s : State) : Nat × State :=
  let d := s.draw
  (2 ^ 31 + Config.freeNat 40 d.1 % 65536, d.2)

/-- SQWAIT (R116). -/
def execSqwait (i : Issue) (rd ra : BitVec 6) (sel : BitVec 14) (s : State) : Out :=
  .next (s.runBlock i true fun s c =>
    let p := i.core.val
    let t := c.regN ra.toNat
    match s.sqStatus t with
    | some v => s.finish p (c.setRegN rd.toNat v) 2
    | none =>
      if sel = 0 then
        let d := s.sqNotDone
        d.2.finish p (c.setRegN rd.toNat d.1) 2
      else
        let limit := if sel.toNat = 16383 then none else some (s.now + 64 * sel.toNat)
        s.setCore p { c with wait := .solver rd.toNat t limit, cost := 2 })

/-- SQWAIT_RESUME (R116): the command has completed within the limit; the wait ends in the cycle after. -/
def execSqwaitResume (core : Fin 16) (cyc : Nat) (s : State) : Out :=
  .next (match (s.core core.val).wait with
    | .solver rd t limit =>
      let s' := s.beforeCycle cyc
      let now := (s'.setCycle cyc).now
      match s'.sqDone t (match limit with | some l => min now (l + 1) | none => now) with
      | some v => if (s'.core core.val).wait == .none then s else (s'.endWait core.val rd v).atCycle cyc
      | none => s
    | _ => s)

/-- SQWAIT_TIMEOUT (R116): the limit has run out with the command not completed. -/
def execSqwaitTimeout (core : Fin 16) (cyc : Nat) (s : State) : Out :=
  .next (match (s.core core.val).wait with
    | .solver rd t (some l) =>
      let s' := s.beforeCycle cyc
      if decide (l < (s'.setCycle cyc).now) && (s'.core core.val).wait != .none && (s'.sqDone t (l + 1)).isNone then
        let d := s'.sqNotDone
        (d.2.endWait core.val rd d.1).atCycle cyc
      else s
    | _ => s)

end Sys2Proof.Machine
end

