-- ==== Sys2Proof/Machine/Bench.lean ====
section
/-! DEFINITION. The recorder, the monitors and the bench (20_recorder_monitors_bench, R534 to R552). -/

namespace Sys2Proof.Machine

/-! ## Recorder -/

def ringBase : Nat := 0x20C00000
def ringSlots : Nat := 131072

/-- The address of the slot of sequence number n (R534). -/
def slotAddr (n : Nat) : Nat := ringBase + 32 * (n % ringSlots)

/-- The first 28 bytes of a record (R534). -/
def Rec.body (r : Rec) (seq : Nat) : List Nat :=
  leBytes 2 r.code ++ leBytes 1 r.source ++ leBytes 1 r.cls ++ leBytes 4 seq ++ leBytes 8 r.time ++ leBytes 4 r.tick
    ++ leBytes 4 r.p0 ++ leBytes 4 r.p1

/-- The valid mark (R535). -/
def recMark (body : List Nat) (seq : Nat) : List Nat :=
  leBytes 2 (crc32c body) ++ [bitsOf seq 24 17, 0xA5]

/-- The five stores of a record as (offset, bytes), in their order (R536). -/
def recStores (r : Rec) (seq : Nat) : List (Nat × List Nat) :=
  let b := r.body seq
  [(24, leBytes 8 0), (0, b.take 8), (8, (b.drop 8).take 8), (16, (b.drop 16).take 8), (24, b.drop 24 ++ recMark b seq)]

/-- With the queue no longer full, the records-lost record enters it first (R540). -/
def State.queueLost (s : State) : State :=
  if s.recd.lost = 0 || decide (64 ≤ s.recd.queue.length) then s
  else
    let d := s.draw
    let r := d.2.mkRec 0xFFFF 0xFF (Config.freeNat 60 d.1) d.2.recd.lost 0
    ({ d.2 with recd := { queue := d.2.recd.queue ++ [r], lost := 0, since := d.2.now, fresh := 0 } }).syncQlen

/-- RECORD_WRITE (R536): the oldest queued record is written with its five stores. A store that fails ends the write: the
failure is counted, event 237 raised, and the slot is left with the erased mark. -/
def execRecordWrite (fail : Option (Fin 5)) (s : State) : Out :=
  .next (match s.recd.queue with
    | [] => s
    | r :: _ =>
      let seq := s.rd R.RECD_NEXT_NEXT
      let st := recStores r seq
      let put (m : NMap Byte) (x : Nat × List Nat) : NMap Byte := memPutBytes m (slotAddr seq + x.1) x.2
      let s := (({ s with recd := { s.recd with queue := s.recd.queue.drop 1 } }).syncQlen).wr R.RECD_NEXT_NEXT (seq + 1)
      let s := match fail with
        | none => { s with mem := st.foldl put s.mem }
        | some k =>
          let m := (st.take (max 1 k.val)).foldl put s.mem
          (({ s with mem := m }).inc R.RECD_STAT_WFAIL).raiseSup 237
      s.queueLost)

/-- A write of `RECD_WGO` by core p (R539, R540). -/
def State.recordGo (s : State) (p : Nat) : State :=
  let c := s.core p
  let code := bitsOf c.wcode.toNat 15 0
  if s.rdPrev R.RECD_CTRL_EN = 0 then s
  else if decide (code < 0x100) || decide (0xFEFF < code) then s.inc R.RECD_STAT_BADCODE
  else
    let r := s.mkRec code (0x40 + s.dutyOf p) (bitsOf c.wcode.toNat 18 16) c.wp0.toNat c.wp1.toNat
    let q := s.queueRec r
    if q.2 then q.1.raiseCoreSup 236 p else q.1

/-- PROGRAM_RECORD (R539). -/
def execProgramRecord (p : Port) (s : State) : Out := .next (s.byCore p fun s => s.recordGo p.core.val)

/-- Is the record in slot k valid (R535)? Its sequence number if so. -/
def slotValid (m : NMap Byte) (k : Nat) : Option Nat :=
  let b := memBytes m (ringBase + 32 * k) 32
  let seq := leNat ((b.drop 4).take 4)
  if b.drop 28 == recMark (b.take 28) seq then some seq else none

/-- The slots in which any byte is listed; every other slot holds zeros, and no valid record. -/
def listedSlots (m : NMap Byte) : List Nat :=
  (m.filterMap fun e => if ringBase ≤ e.1 && decide (e.1 < ringBase + 32 * ringSlots)
    then some ((e.1 - ringBase) / 32) else none).eraseDups

/-- The kick-off scan (R538): the newest valid record by signed 32-bit differences, and the number of valid ones. -/
def ringScan (m : NMap Byte) : Option Nat × Nat :=
  let v := (listedSlots m).filterMap (slotValid m)
  (v.find? (fun x => v.all (fun y => decide ((x + 2 ^ 32 - y) % 2 ^ 32 < 2 ^ 31))), v.length)

/-- The recorder's part of a kick-off (R538): the queue is emptied, NEXT follows the newest record, and record 0xFF00 is
made with the backup clock's time. -/
def State.recorderKick (s : State) : State :=
  let r := ringScan s.mem
  let s := { s with recd := { queue := [], lost := 0, since := 0, fresh := 0 } }
  let s := s.wr R.RECD_NEXT_NEXT ((r.1.map (· + 1)).getD 0)
  let t := (s.word R.RTCB_TIME).toNat + 2 ^ 32 * (s.word (R.RTCB_TIME + 4)).toNat
  (s.queueRec ⟨0xFF00, 0xFF, 0x81, t, 0, r.2, 0⟩).1

/-! ## Monitors -/

/-- A write to `MONI_mPUT` (R541). -/
def State.monitorPut (s : State) (m : Nat) (v : Word) : State :=
  if s.rdBit (R.MONI_mCTRL_EN m) && s.rd (R.MONI_mCFG_KIND m) == 5 then s.sample v.toInt m else s

/-- MONITOR_PUT (R541). -/
def execMonitorPut (p : Port) (m : Fin 64) (v : Word) (s : State) : Out := .next (s.byCore p fun s =>
  (s.hold (R.MONI_mPUT m.val) v.toNat).monitorPut m.val v)

/-- The first failing code of a monitor's seal (R551). -/
def State.monitorCode (s : State) (m : Nat) : Nat :=
  let k := s.rdColl (R.MONI_mCFG_KIND m)
  let top := if k = 1 then 16 else if k = 2 then 128 else if k = 3 then 24 else if k = 4 then 16 else if k = 7 then 60
    else 256
  if 9 ≤ k then 1 else if top ≤ s.rdColl (R.MONI_mCFG_IDX m) then 2 else 0

/-- A write of GO to a monitor's SEAL (R551). -/
def State.monitorSeal (s : State) (m p : Nat) : State :=
  if s.rdBit (R.MONI_mCTRL_EN m) then s.raiseCore 238 p
  else
    let code := s.monitorCode m
    let s := if code = 0 then s.applyColl 17 .moni (some m)
      else (s.discardColl 17 .moni (some m)).raiseCore 238 p
    s.wr (R.MONI_mSEAL_ERR m) code

/-- MONITOR_SEAL (R551). -/
def execMonitorSeal (p : Port) (m : Fin 64) (s : State) : Out := .next (s.byCore p fun s => s.monitorSeal m.val p.core.val)

/-- One monitor's snapshot (R543). -/
def State.snapMonitor (s : State) (m : Nat) : State :=
  let s := s.wr (R.MONI_mSMIN_SMIN m) (s.rd (R.MONI_mMIN_MIN m))
  let s := s.wr (R.MONI_mSMAX_SMAX m) (s.rd (R.MONI_mMAX_MAX m))
  let s := s.wr (R.MONI_mSCNTLO_SCOUNT m) (s.rd (R.MONI_mCNTLO_COUNT m))
  let s := s.wr (R.MONI_mSCNTHI_SCOUNT m) (s.rd (R.MONI_mCNTHI_COUNT m))
  let s := (List.range 32).foldl (fun s b =>
    s.wr (R.MONI_mSBINb_SBIN m b) (NMap.get 0 s.moniBins (32 * m + b))) s
  let s := (s.wr (R.MONI_mMIN_MIN m) 0x7FFFFFFF).wr (R.MONI_mMAX_MAX m) 0x80000000
  (s.wr (R.MONI_mCNTLO_COUNT m) 0).wr (R.MONI_mCNTHI_COUNT m) 0

/-- The snapshot at cycle 0 of a period boundary tick (R543). -/
def State.snapMonitors (s : State) : State :=
  let s := (List.range 64).foldl State.snapMonitor s
  let s := { s with moniBins := [] }
  let n := s.tickN / 100000
  ((s.wr (R.MONI_SNAPSEQw_PERIOD 0) n).wr (R.MONI_SNAPSEQw_PERIOD 1) n).raiseSup 241

/-! ## Bench -/

def State.setBnch (s : State) (b : BnchS) : State := { s with bnch := b }
def wornKey (kind unit : Nat) : Nat := 65536 * kind + unit
def State.wornOf (s : State) (kind unit : Nat) : Nat := NMap.get 0 s.bnch.worn (wornKey kind unit)
def State.setWorn (s : State) (kind unit v : Nat) : State :=
  s.setBnch { s.bnch with worn := NMap.set 0 s.bnch.worn (wornKey kind unit) v }

/-- Units of a resource kind (R544). -/
def benchUnits (kind : Nat) : Nat :=
  if kind = 1 then 16 else if kind = 2 then 5 else if kind = 3 then 8192 else if kind = 4 then 16384
  else if kind = 5 then 256 else if kind = 6 then 1 else if kind = 7 then 24 else 0

/-- The spare core for the duty of core p: the lowest-numbered suitable bench core (R51). -/
def State.spareCore (s : State) (p : Nat) : Option Nat :=
  (List.range 16).find? fun q => (s.rd R.CORE_SVC_BENCH).testBit q && (isChecked q || !isChecked p)

/-- The bench lane (R199). -/
def State.spareLane (s : State) : Option Nat :=
  (List.range 5).find? fun k => s.rd (R.SOLV_LANEk_STATE k) == 0 && NMap.get 0 s.solv.vacant k == 0
    && s.wornOf 2 k != 2

/-- Is there a suitable spare (R544)? -/
def State.hasSpare (s : State) (kind unit : Nat) : Bool :=
  if kind = 1 then (s.spareCore unit).isSome
  else if kind = 2 then s.spareLane.isSome
  else if kind = 3 then decide (s.rd (R.CMNS_BANKb_BROWS (unit / 256)) < 32)
  else if kind = 4 then s.rd R.BNCH_SPARE_SROWS != 0
  else if kind = 5 then s.rd R.BNCH_SPARE_SECT != 0
  else if kind = 6 then s.rdBit R.BNCH_SPARE_PLL
  else s.rd (R.BNCH_DRVo_ACT unit) == 0

/-- A resource in service and not retired (R552, code 4). -/
def State.inUse (s : State) (kind unit : Nat) : Bool :=
  s.wornOf kind unit != 2
    && (if kind = 1 then s.inService unit else if kind = 2 then s.wornOf 2 unit != 2
          && (s.rd (R.SOLV_LANEk_STATE unit) != 0 || NMap.get 0 s.solv.vacant unit != 0) else true)

/-- Show the nearest scheduled substitution. -/
def State.showBench (s : State) : State :=
  match s.bnch.subs with
  | [] => ((s.wr R.BNCH_STAT_PEND 0).wr R.BNCH_STAT_KIND 0).wr R.BNCH_STAT_UNIT 0
  | b :: _ =>
    (((s.wr R.BNCH_STAT_PEND 1).wr R.BNCH_STAT_KIND b.kind).wr R.BNCH_STAT_UNIT b.unit).wr R.BNCH_RND_ROUND (b.tick / 1000)

/-- The first free boundary from round r on: no two substitutions share one (R545, R548). -/
def freeRound (subs : List BnchSub) (r : Nat) : Nat :=
  (List.range subs.length).foldl (fun r _ => if subs.any (fun b => b.tick == 1000 * r) then r + 1 else r) r

/-- The list of substitutions with one more, nearest boundary first. -/
def insertSub (b : BnchSub) (subs : List BnchSub) : List BnchSub :=
  subs.filter (fun x => decide (x.tick < b.tick)) ++ b :: subs.filter (fun x => decide (b.tick ≤ x.tick))

/-- Schedule a substitution at the first free boundary from round r, and raise event 245. -/
def State.benchAt (s : State) (kind unit mode r : Nat) : State :=
  let b : BnchSub := ⟨kind, unit, 1000 * freeRound s.bnch.subs r, mode⟩
  (s.setBnch { s.bnch with subs := insertSub b s.bnch.subs }).showBench.raiseSup 245

/-- A SUBST block (R548): kind, unit and the low 12 bits of the round, 0 in a request. -/
def State.sendSubst (s : State) (kind unit round : Nat) : State :=
  s.rioftControl 4 (kind % 16 + 16 * (unit % 65536) + 2 ^ 20 * (round % 4096))

/-- The active schedules a substitution at the second round boundary after this one, or at the next free boundary, and names it to
its peer (R548). -/
def State.benchName (s : State) (kind unit mode : Nat) : State :=
  let r := freeRound s.bnch.subs (s.tickN / 1000 + 2)
  (s.benchAt kind unit mode r).sendSubst kind unit r

/-- A pair member whose link is up (R545, R548). -/
def State.benchPaired (s : State) : Bool := s.isMember && s.rdBit R.PAIR_STAT_RLINK

/-- What this member does for a substitution of kind 1 to 7 that the pair makes (R548). -/
def State.benchMode (s : State) (kind unit : Nat) : Nat :=
  if kind = 1 then (if (s.spareCore (s.physOf unit)).isSome then 1 else 2)
  else if s.wornOf kind unit == 1 && s.hasSpare kind unit then 1 else 0

/-- The unit by which a substitution is known: of kind 1 the duty (R548). -/
def State.benchUnit (s : State) (kind unit : Nat) : Nat := if kind = 1 then s.dutyOf unit else unit

/-- A substitution is wanted for a resource (R545, R548); mode is what this member does for it. A standby with its link up sends a
request and waits for the answer. -/
def State.benchWant (s : State) (kind unit mode : Nat) : State :=
  let u := s.benchUnit kind unit
  if !s.benchPaired then s.benchAt kind u mode (s.tickN / 1000 + 1)
  else if s.pstate = 2 then s.sendSubst kind u 0
  else s.benchName kind u mode

/-- A field of `BNCH_CFG` as the last period boundary sampled it (R552). -/
def State.benchCfg (s : State) (f : FieldRef) : Nat := bitsOf s.bnch.cfg.toNat f.hi f.lo

/-- Does a measurement reach its threshold (R544)? The value v is the drift in 0.01 %, the phase error in ps or the
resistance in 1/64 of its production value; errs counts the period's errors, or consecutive ticks for the PLL. -/
def State.wearMet (s : State) (kind v errs : Nat) (hard : Bool) : Bool :=
  if kind = 1 then decide (10 * max 1 (s.benchCfg R.BNCH_CFG_ROTHR) ≤ (signedOf 16 v).natAbs)
      || decide (s.benchCfg R.BNCH_CFG_ECCTHR ≤ errs) || hard
  else if kind = 2 then decide (16 ≤ errs) || hard
  else if kind = 6 then decide (200 < v) && decide (1000 ≤ errs)
  else if kind = 7 then decide (64 + 8 * max 1 (s.benchCfg R.BNCH_CFG_RONTHR) ≤ v)
  else decide (max 1 (s.benchCfg R.BNCH_CFG_RTHR) ≤ errs) || hard

/-- A local-ECC trap of a core, the FAULT of a lane, a poisoned word of a commons row: present in the state (R544). -/
def State.hardError (s : State) (kind unit : Nat) : Bool :=
  if kind = 1 then s.rd (R.CORE_nTRAP_CAUSE unit) == 1
  else if kind = 2 then s.rdBit (R.SOLV_LANEk_FAULT unit) || s.solv.faulted.contains unit
  else if kind = 3 then s.cmns.err.any (fun e => bankOfWord e.1 == unit / 256 && rowOfWord e.1 == unit % 256 && e.2 == .poisoned)
  else true

/-- The measurement shown for a core or a driver. -/
def State.showWear (s : State) (kind unit v : Nat) : State :=
  if kind = 1 then s.wr (R.BNCH_COREc_DRIFT unit) v
  else if kind = 7 then
    if s.rdBit (R.BNCH_DRVo_ACT unit) then s.wr (R.BNCH_DRVo_RONB unit) v else s.wr (R.BNCH_DRVo_RONA unit) v
  else s

/-- Set WEAR for a resource. -/
def State.setWear (s : State) (kind unit : Nat) : State :=
  let s := s.setWorn kind unit 1
  if kind = 1 then s.wr (R.BNCH_COREc_WEAR unit) 1 else if kind = 7 then s.wr (R.BNCH_DRVo_WEAR unit) 1 else s

/-- WEAR_DECISION (R544): a measurement of a resource is taken, and where it reaches its threshold WEAR is set, event 244
raised and, with AUTO = 1, the substitution started or event 247 raised for want of a spare. -/
def execWearDecision (kind : Fin 8) (unit : BitVec 16) (v errs : Nat) (hard : Bool) (s : State) : Out :=
  .next (
    let k := kind.val
    let u := unit.toNat
    if decide (benchUnits k ≤ u) || !s.inUse k u then s
    else
      let s := s.showWear k u v
      if !s.wearMet k v errs (hard && s.hardError k u) || s.wornOf k u == 1 then s
      else
        let s := (s.setWear k u).raiseSup 244
        if s.benchCfg R.BNCH_CFG_AUTO = 0 then s
        else if !s.hasSpare k u then (s.raiseSup 247).when (k == 1 && s.benchPaired) (State.benchWant · 1 u 2)
        else (s.when (k == 3) (State.beginRow · (u / 256) (u % 256))).benchWant k u 1)

/-- The first failing code of a request (R552). -/
def State.benchReqCode (s : State) (kind unit : Nat) : Nat :=
  if benchUnits kind ≤ unit then 1
  else if !s.hasSpare kind unit then 2
  else if !s.bnch.subs.isEmpty then 3
  else if !s.inUse kind unit then 4 else 0

/-- A write of GO to `BNCH_REQ` (R544, R552). -/
def State.benchReq (s : State) (kind unit p : Nat) : State :=
  let code := s.benchReqCode kind unit
  let s := s.wr R.BNCH_STAT_ERR code
  if code ≠ 0 then s.raiseCoreSup 247 p
  else
    let s := s.when (kind == 3) (State.beginRow · (unit / 256) (unit % 256))
    (s.setWorn kind unit 1).benchWant kind unit 1

/-- BNCH_REQ (R544). -/
def execBnchReq (p : Port) (kind : BitVec 4) (unit : BitVec 16) (s : State) : Out :=
  .next (s.byCore p fun s => (s.hold R.BNCH_REQ (kind.toNat + 16 * unit.toNat)).benchReq kind.toNat unit.toNat p.core.val)

/-- SUBST (R548): a SUBST control block arrives from the peer. The active answers a request by scheduling the next free
boundary; a standby takes the round the active names. -/
def execSubst (arg : Word) (s : State) : Out :=
  .next (
    let kind := bitsOf arg.toNat 3 0
    let unit := bitsOf arg.toNat 19 4
    let round := bitsOf arg.toNat 31 20
    if !s.benchPaired || decide (benchUnits kind ≤ unit) then s
    else if s.pstate = 1 then s.benchName kind unit (s.benchMode kind unit)
    else
      let now := s.tickN / 1000
      s.benchAt kind unit (s.benchMode kind unit) (now + 1 + (round + 4096 * 4096 - (now + 1)) % 4096))

/-- The words of the CORE window that move with a duty (R53, R70). -/
def coreWords : List Nat := [0x00, 0x04, 0x08, 0x0C, 0x14, 0x18, 0x1C]

/-- Move the CORE registers of core p to core q; those of p take their cold values. -/
def State.moveCoreRegs (s : State) (p q : Nat) : State :=
  coreWords.foldl (fun s o =>
    let a := R.CORE_nBIND p + o
    let b := R.CORE_nBIND q + o
    let s := (s.setWord b (s.word a)).setWord a (coldWord a)
    { s with shadow := planeSet (planeSet s.shadow b (planeGet s.shadow a)) a (coldWord a) }) s

/-- Jobs of core p now run on core q (R46). An entry that was never sealed names no job, and its CORE stays as it is (DEDUCED:
notes/assumptions/17). -/
def State.moveJobs (s : State) (p q : Nat) : State :=
  (List.range 128).foldl (fun s n =>
    if s.rd (R.TIER_JOBn_CFG_CORE n) == p && (s.job n).isSealed then s.wr (R.TIER_JOBn_CFG_CORE n) q else s) s

/-- The duty of core p moves to the spare core q, with everything the core holds (R545); p is retired. -/
def State.moveDuty (s : State) (p q : Nat) : State :=
  let d := s.dutyOf p
  let s := ((s.moveCoreRegs p q).moveJobs p q)
  let s := (s.setCore q (s.core p)).setCore p CoreS.off
  let s := if d < 8 then s.wr ⟨R.BNCH_MAPLO, 4 * d + 3, 4 * d⟩ q else s.wr ⟨R.BNCH_MAPHI, 4 * (d - 8) + 3, 4 * (d - 8)⟩ q
  let s := s.wr R.CORE_SVC_INSVC (putBits (putBits (s.rd R.CORE_SVC_INSVC) p p 0) q q 1)
  let s := s.wr R.CORE_SVC_BENCH (putBits (s.rd R.CORE_SVC_BENCH) q q 0)
  let s := s.wr R.BNCH_SPARE_CORES (s.rd R.BNCH_SPARE_CORES - 1)
  (s.wr (R.BNCH_COREc_RETIRED p) 1).setWorn 1 p 2

/-- The spare lane takes the service position of the worn one, with any command that runs on it (R203). -/
def State.moveLane (s : State) (k q : Nat) : State :=
  let pos := if NMap.get 0 s.solv.vacant k ≠ 0 then NMap.get 0 s.solv.vacant k - 1 else s.posOf k
  let held := s.solv.held.map fun c =>
    { c with run := c.run.map fun r => { r with lanes := r.lanes.map (fun x => if x = k then q else x) } }
  let s := s.setSolv { s.solv with vacant := NMap.set 0 s.solv.vacant k 0, held := held }
  let s := (s.wr (R.SOLV_LANEk_POS q) pos).wr (R.SOLV_LANEk_STATE q) 1
  let s := (s.wr (R.SOLV_LANEk_STATE k) 0).wr (R.SOLV_LANEk_POS k) 7
  ((s.wr R.BNCH_SPARE_LANE 0).setWorn 2 k 2).showQueues.raiseSup 65

/-- Has the core of a duty stopped by a checker mismatch or a double trap (R547)? -/
def State.stoppedForGood (s : State) (p : Nat) : Bool :=
  (s.core p).stopped && (s.rd (R.CORE_nTRAP_STOP p) == 1 || s.rd (R.CORE_nTRAP_STOP p) == 5)

/-- What this member does for a scheduled substitution of its own (R545). -/
def State.substitute (s : State) (kind unit : Nat) : State :=
  match kind with
  | 1 =>
    let p := s.physOf unit
    if s.stoppedForGood p then
      s.setBnch { s.bnch with moveAtRestart := s.bnch.moveAtRestart ||| 2 ^ unit }
    else match s.spareCore p with
      | none => s
      | some q =>
        let s := s.moveDuty p q
        s.setBnch { s.bnch with pauseCore := q + 1, pauseUntil := 2600 }
  | 2 => match s.spareLane with
    | none => s
    | some q => s.moveLane unit q
  | 3 => s.setWorn 3 unit 2
  | 4 => ((s.wr R.BNCH_SPARE_SROWS (s.rd R.BNCH_SPARE_SROWS - 1)).setWorn 4 unit 2).raiseSup 65
  | 5 => (s.wr R.BNCH_SPARE_SECT (s.rd R.BNCH_SPARE_SECT - 1)).setWorn 5 unit 2
  | 6 => (s.wr R.BNCH_SPARE_PLL 0).setWorn 6 unit 2
  | _ => (s.wr (R.BNCH_DRVo_ACT unit) 1).setWorn 7 unit 2

/-- BENCH_SUBSTITUTION (R545, R548): at round boundary B the scheduled substitution is made, or this member pauses the
duty without moving it. A store row, a sector, the PLL or a driver for which an earlier boundary has left no spare is not
substituted (R206, R544). -/
def execBenchSubstitution (s : State) : Out :=
  .next (match s.bnch.subs with
    | [] => s
    | b :: rest =>
      if b.tick ≤ s.tickN then
        let s := s.setBnch { s.bnch with subs := rest }
        let s := if b.mode = 1 then
            (if 4 ≤ b.kind && !s.hasSpare b.kind b.unit then s.raiseSup 247 else (s.substitute b.kind b.unit).saveBench.raiseSup 246)
          else if b.mode = 2 then
            let s := s.setBnch { s.bnch with pauseCore := s.physOf b.unit + 1, pauseUntil := 2600 }
            (s.setBit R.BNCH_STAT_NOSPARE).raiseSup 246
          else s
        s.showBench
      else s)

/-- The duties of a partition whose core stopped for good move to a spare at the restart boundary or at kick-off (R547). -/
def State.moveStopped (s : State) (ps : List Nat) : State :=
  ps.foldl (fun s p =>
    let asked := s.bnch.moveAtRestart.testBit (s.dutyOf p)
    if s.stoppedForGood p && (asked || s.benchCfg R.BNCH_CFG_AUTO != 0) then
      match s.spareCore p with
      | none => s
      | some q =>
        let s := s.moveDuty p q
        (s.setBnch { s.bnch with moveAtRestart := putBits s.bnch.moveAtRestart (s.dutyOf q) (s.dutyOf q) 0 }).saveBench.raiseSup 246
    else s) s

end Sys2Proof.Machine
end

