-- ==== Sys2Proof/Machine/Fusion.lean ====
section
/-! DEFINITION. State fusion: sample intake, the alignment buffers, calibration writes and the assist commands GATE and
CUPD (06_state_fusion, R168 to R198). -/

namespace Sys2Proof.Machine

def State.setFusa (s : State) (f : FusaS) : State := { s with fusa := f }
def State.fusaRun (s : State) : Bool := s.rdBit R.FUSA_STAT_RUN

/-! ## The active generation's references (R150, R156) -/

/-- References of the generation at a base. -/
def State.nrefAt (s : State) (base : Nat) : Nat := (headerCounts (leNat (memBytes s.mem base 64))).getD 6 0

/-- The record of reference r in the generation at a base. -/
def State.refAt (s : State) (base r : Nat) : Nat := leNat (memBytes s.mem (base + sectOff 6 + 64 * r) 64)

/-- The base of the active generation. -/
def State.activeBase (s : State) : Nat := s.rd (R.FUSA_QMg_BASE_BASE (s.rd R.FUSA_QM_STAT_ACTG))

/-- References of the active generation, 0 with none. -/
def State.nref (s : State) : Nat := if s.rdBit R.FUSA_QM_STAT_AVALID then s.nrefAt s.activeBase else 0

/-- The record of reference r in the active generation. -/
def State.refRec (s : State) (r : Nat) : Nat := s.refAt s.activeBase r

/-- Reference with interval e frames is expected in buffer k (R172). -/
def expected (e k : Nat) : Bool := e != 0 && decide ((100 * (k - 1) + e - 1) / e * e < 100 * k)

/-! ## Slots (R175, R176) -/

def slotBytes : Nat := 0x9100
def slotArea : Nat := 0x5AA00
def State.slotAddr (s : State) (k : Nat) : Nat := s.rd R.FUSA_SBASE_SBASE + k % 10 * slotBytes

def entPres (e : Nat) : Bool := e.testBit 42
def entPos (e : Nat) : Nat := bitsOf e 41 32

/-- The slot entry after a sample at position pos (R176): an earlier instant is ignored, any other replaces. -/
def entryPut (e v pos : Nat) : Nat :=
  if entPres e then (if pos < entPos e then e else v % 2 ^ 32 + 2 ^ 32 * pos + 2 ^ 42 + 2 ^ 43)
  else v % 2 ^ 32 + 2 ^ 32 * pos + 2 ^ 42

/-! ## Intake (R168 to R170, R174, R178) -/

def State.showQlen (s : State) : State := s.wr R.FUSA_STAT_QLEN s.fusa.queue.length

/-- One sample leaves the intake queue for its buffer, the late list, or the discard counter (R174, R176, R178). -/
def State.placeSample (s : State) (x : Sample) : State :=
  let j := x.inst / 1000 + 1
  let pos := x.inst % 1000
  let c := s.fusa.closed - 1
  let discard (s : State) : State := s.raise 81 (s.dutiesOf 2) false
  if j < s.fusa.first then discard (s.inc R.FUSA_CNTA_DISC)
  else if s.fusa.closed ≤ j then
    let a := s.slotAddr j + 8 * x.ref
    let e := s.commonsRead busPort a 8
    e.2.2.commonsWrite busPort a 8 (entryPut e.1 x.value pos)
  else if j + 7 < c then discard (s.inc R.FUSA_CNTA_DISC)
  else if 512 ≤ s.fusa.nlate then discard (s.inc R.FUSA_CNTB_LOVF)
  else
    let a := s.slotAddr (c + 1) + 8 * (4097 + s.fusa.nlate)
    let s := s.commonsWrite busPort a 8 (x.value % 2 ^ 32 + 2 ^ 32 * pos + 2 ^ 42 * (c - j) + 2 ^ 48 * x.ref)
    (s.setFusa { s.fusa with nlate := s.fusa.nlate + 1 }).inc R.FUSA_CNTA_LATEAPP

/-- The first n queued samples leave the queue, of those written before the present cycle (R174). -/
def State.drainSamples (s : State) (n : Nat) : State :=
  let q := s.fusa.queue
  let k := min n (q.takeWhile (fun x => decide (x.wrote < s.now))).length
  ((q.take k).foldl State.placeSample (s.setFusa { s.fusa with queue := q.drop k })).showQlen

def State.drainAll (s : State) : State := s.drainSamples s.fusa.queue.length

/-- The calibrated value (R170). -/
def State.calibrated (s : State) (r v : Nat) : Int :=
  clampBits 32 (roundShift (s.rdI (R.FUSA_REFr_GAIN_GAIN r) * signedOf 32 v) 28 + s.rdI (R.FUSA_REFr_OFF_OFF r))

/-- The reason a sample is refused (R169), 0 when it is accepted. -/
def State.sampleCode (s : State) (bytes v : Nat) : Nat :=
  if !s.fusaRun then 1
  else if !s.rdBit R.FUSA_QM_STAT_AVALID || decide (s.nref ≤ bitsOf v 43 32) then 2
  else if 256 ≤ s.fusa.queue.length then 3
  else if bytes < 8 || bitsOf v 47 44 != 0 then 4
  else if s.tickN < bitsOf v 63 48 then 5
  else 0

/-- A store to `FUSA_SMP` (R168 to R170). -/
def State.sampleStore (s : State) (p bytes v : Nat) : State :=
  let code := s.sampleCode bytes v
  if code ≠ 0 then ((s.inc R.FUSA_CNTB_REFUSED).wr R.FUSA_STAT_RREASON code).raiseCore 87 p
  else
    let r := bitsOf v 43 32
    let x : Sample := ⟨r, patternOf 32 (s.calibrated r (bitsOf v 31 0)), s.tickN - bitsOf v 63 48, s.now⟩
    (s.setFusa { s.fusa with queue := s.fusa.queue ++ [x] }).showQlen

/-- FUSA_SAMPLE_WRITE (R168 to R170): the store reaches the block, which has meanwhile written `served` queued samples
into its buffers. -/
def execFusaSampleWrite (p : Port) (size : Size) (v : DWord) (served : Nat) (s : State) : Out :=
  .next (s.byCore p fun s => (s.sampleStore p.core.val size.bytes v.toNat).drainSamples served)

/-! ## The slot area (R196) -/

/-- The slot area at base overlaps a generation that is sealed or running. -/
def State.slotOverlap (s : State) (base : Nat) : Bool :=
  [0, 1].any fun g =>
    (s.qmSealed g || s.qmRunning g)
      && decide (base < s.qmRegion g + qmSpan) && decide (s.qmRegion g < base + slotArea)

/-- A write of GO to `FUSA_SEAL` (R8, R9, R196). -/
def State.fusaSeal (s : State) (p : Nat) : State :=
  if s.fusaRun then s.raiseCore 89 p
  else
    let base := s.rdColl R.FUSA_SBASE_SBASE
    let code := if base % 256 != 0 || decide (commonsBytes < base + slotArea) then 1
      else if s.slotOverlap base then 2 else 0
    let s := if code = 0 then s.applyColl 4 .fusaSbase none else s.discardColl 4 .fusaSbase none
    s.wr R.FUSA_SEAL_ERR code

/-- FUSA_SBASE_SEAL (R196): a write of GO. -/
def execFusaSbaseSeal (p : Port) (s : State) : Out := .next (s.byCore p fun s => s.fusaSeal p.core.val)

/-! ## Alignment (R171 to R177, R180) -/

/-- Does every reference expected in buffer k have a sample present in its slot? -/
def State.allPresent (s : State) (k : Nat) : Bool :=
  (List.range s.nref).all fun r =>
    !expected (recField (s.refRec r) 22 2) k || entPres (memRead s.mem (s.slotAddr k + 8 * r) 8)

/-- Buffer k closes in this evaluation (R173, R174): its content is final, and later samples are late. -/
def State.closeBuffer (s : State) (k : Nat) (byLim : Bool) : State :=
  let ctick := s.tickN - 1000 * k
  let s := s.setFusa { s.fusa with
    aligning := none, closed := k + 1, nlate := 0, closing := some ⟨k, ctick, byLim, s.fusa.nlate⟩ }
  (((s.wr R.FUSA_CBUF_CBUF k).wr R.FUSA_STAT_CTICK ctick).wrBit R.FUSA_STAT_BYLIM byLim).wr R.FUSA_STAT_ALIGN 0

/-- The evaluation at cycle 1,536 (R173); with `last` only that of tick T(k) + LIMIT, which closes in any case. -/
def State.fusaEvaluate (s : State) (last : Bool) : State :=
  match s.fusa.aligning with
  | none => s
  | some k =>
    let s := s.drainAll
    let full := s.allPresent k
    let limit := decide (1000 * k + s.fusa.limit ≤ s.tickN)
    if full && !last then s.closeBuffer k false
    else if limit && last then s.closeBuffer k (!full)
    else s

/-- ALIGNMENT_LIMIT_EXPIRY (R173): at the evaluation of tick T(k) + LIMIT the buffer closes in any case. -/
def execAlignmentLimitExpiry (s : State) : Out :=
  .next ((s.atCycle Config.changeover).fusaEvaluate true)

def zeros : Nat → List Nat
  | 0 => []
  | n + 1 => 0 :: zeros n

/-- BUFFER_CLOSED_AND_SEALED (R177): header and check word are written, event 80 is raised, with event 86 after a close by
limit, and slot (k + 2) mod 10 is cleared. -/
def execBufferClosedAndSealed (s : State) : Out :=
  .next (match s.fusa.closing with
    | none => s
    | some c =>
      let s := s.setFusa { s.fusa with closing := none }
      let a := s.slotAddr c.buf
      let s := s.commonsWrite busPort (a + 8 * 4096) 8
        (c.buf % 2 ^ 32 + 2 ^ 32 * c.ctick + 2 ^ 42 * b2n c.byLim + 2 ^ 43 * c.nlate)
      let w := s.readWords busPort a 4609
      let s := w.2.2.commonsWrite busPort (a + 8 * 4609) 8 (carryWord w.1)
      let s := s.raise 80 (s.dutiesOf 2) false
      let s := s.when c.byLim fun s => s.raise 86 (s.dutiesOf 2) false
      s.writeWords busPort (s.slotAddr (c.buf + 2)) (zeros 4610))

/-- Offsets and gains as they stand, for the rate limit of R189. -/
def State.holdCalibration (s : State) : State :=
  let lo := R.FUSA_REFr_OFF 0
  s.setFusa { s.fusa with held := s.regs.filter (fun e => decide (lo ≤ e.1) && decide (e.1 < lo + 0x8000)) }

/-- Is the offset or, with gain, the gain of reference r at its drift budget by the active generation (R190)? -/
def State.atLimit (s : State) (r : Nat) (gain : Bool) : Bool :=
  let x := s.refRec r
  if gain then (s.rdI (R.FUSA_REFr_GAIN_GAIN r) - recSigned x 12 4).natAbs == recField x 28 2 * 4096
  else (s.rdI (R.FUSA_REFr_OFF_OFF r) - recSigned x 16 4).natAbs == recField x 26 2

/-- Note whether a field just written is at its budget (R190): budgets refer to the generation active then. -/
def State.noteBudget (s : State) (r : Nat) (gain : Bool) : State :=
  let k := b2n gain
  s.setFusa { s.fusa with budget := NMap.modify 0 s.fusa.budget r fun n => putBits n k k (b2n (s.atLimit r gain)) }

/-- Is a field of reference r at its drift budget since its last write? -/
def State.budgetBit (s : State) (r : Nat) (gain : Bool) : Bool := (NMap.get 0 s.fusa.budget r).testBit (b2n gain)

/-- Is the reference at its drift budget (R190)? -/
def State.atBudget (s : State) (r : Nat) : Bool := s.budgetBit r false || s.budgetBit r true

/-- Load OFF and GAIN of every reference of the active generation (R189). -/
def State.loadCalibration (s : State) : State :=
  (List.range s.nref).foldl (fun s r =>
    let x := s.refRec r
    (((s.wr (R.FUSA_REFr_OFF_OFF r) (recField x 16 4)).wr (R.FUSA_REFr_GAIN_GAIN r) (recField x 12 4)).noteBudget r
      false).noteBudget r true) s

/-- The block's sample at cycle 0 of a round boundary tick (R171, R173, R180, R189). -/
def State.fusaBoundary (s : State) : State :=
  let k := s.tickN / 1000
  let en := s.rdBit R.FUSA_CFG_EN
  let limit := max 50 (min 900 (s.rd R.FUSA_CFG_LIMIT))
  let s := if !s.fusaRun && en then
      let s := ((s.discardColl 4 .fusaSbase none).setFusa { FusaS.init with
        first := k + 1, freeUntil := s.tickN + 1000, disputes := s.fusa.disputes, assist := s.fusa.assist,
        held := s.fusa.held, budget := s.fusa.budget, closing := s.fusa.closing }).loadCalibration
      s.wr R.FUSA_STAT_RUN 1
    else if s.fusaRun && !en then
      ((s.setFusa { s.fusa with queue := [], first := 0, closed := 0, aligning := none, nlate := 0 }).wr
        R.FUSA_STAT_RUN 0).wr R.FUSA_STAT_ALIGN 0 |>.showQlen
    else if s.fusaRun && decide (s.fusa.first ≤ k) then
      (s.setFusa { s.fusa with aligning := some k, limit := limit }).wr R.FUSA_STAT_ALIGN 1
    else s
  s.when (s.boundary 3) State.holdCalibration

/-! ## Calibration writes (R189, R190) -/

/-- The limits of R189 for a field with the value v0 of the record, the value held at the last period boundary and the
two widths: the clamped value. -/
def calClamp (free : Bool) (v v0 held : Int) (step budget : Nat) : Int :=
  let x := if free then v else clampInt (held - step) (held + step) v
  clampInt (v0 - budget) (v0 + budget) x

/-- A write to `FUSA_REFr_OFF` or, with gain, `FUSA_REFr_GAIN` (R189, R190). A reference without a record in the active
generation has no FLAGS, and the write is ignored like one with FLAGS[1] = 0. -/
def State.calStore (s : State) (r : Nat) (gain : Bool) (v : Nat) : State :=
  let x := s.refRec r
  if s.nref ≤ r || !(recField x 32 1).testBit 1 then s
  else
    let f := if gain then R.FUSA_REFr_GAIN_GAIN r else R.FUSA_REFr_OFF_OFF r
    let held := signedOf 32 ((NMap.get 0 s.fusa.held f.addr).toNat)
    let v0 := if gain then recSigned x 12 4 else recSigned x 16 4
    let step := if gain then recField x 28 2 * 16 * s.rd R.FUSA_CALR_GRATE
      else recField x 26 2 * s.rd R.FUSA_CALR_ORATE / 256
    let budget := if gain then recField x 28 2 * 4096 else recField x 26 2
    let req := signedOf 32 v
    let y := clampBits 32 (calClamp (decide (s.tickN < s.fusa.freeUntil)) req v0 held step budget)
    let was := s.budgetBit r gain
    let s := (s.wrI f y).noteBudget r gain
    if y != req || (!was && s.budgetBit r gain) then s.raise 84 (s.dutiesOf 2) true else s

/-- CALIBRATION_WRITE (R189, R190). -/
def execCalibrationWrite (p : Port) (r : Fin 4096) (gain : Bool) (v : Word) (s : State) : Out :=
  .next (s.byCore p fun s => s.calStore r.val gain v.toNat)

/-! ## Assist commands (R181 to R188, R197, R198) -/

/-- 32 bits at byte offset o of a descriptor. -/
def AssistRun.arg (r : AssistRun) (o : Nat) : Nat := recField (leNat (wordsBytes r.words)) o 4

/-- A table of n words with nothing or its check word behind it lies in the commons. -/
def inCommons (a bytes : Nat) : Bool := decide (a + bytes ≤ commonsBytes)

/-- Codes 1 to 4 of R198. -/
def State.assistCode (s : State) (r : AssistRun) : Nat :=
  let n := s.nref
  let tables := if r.op = 1 then
      inCommons (r.arg 8) (8 * (n + 1)) && inCommons (r.arg 12) (8 * (n + 1)) && r.arg 8 % 8 == 0 && r.arg 12 % 8 == 0
    else inCommons (r.arg 0) (384 * r.arg 4) && r.arg 0 % 64 == 0
  let b := r.arg 0
  let a := r.arg 4
  let c := s.fusa.closed - 1
  let isClosed (k : Nat) : Bool := decide (s.fusa.first ≤ k) && decide (k < s.fusa.closed)
  if r.desc % 64 != 0 || !inCommons r.desc 64 || !tables then 1
  else if !s.fusaRun || !s.rdBit R.FUSA_QM_STAT_AVALID then 2
  else if r.op == 1 && (!isClosed b || !isClosed a || decide (b + 7 < c) || decide (a < b) || decide (b + 7 < a)) then 3
  else if r.op == 2 && (r.arg 4 == 0 || decide (4096 < r.arg 4)) then 4
  else 0

/-- A write of OP 1 or 2 to an assist channel (R196 to R198), which samples DESC and the gate fields (R6). -/
def State.assistStart (s : State) (op k p : Nat) : State :=
  if s.rdBit (R.FUSA_AkCMD_BUSY k) then (s.wr (R.FUSA_AkCMD_ERR k) 7).raiseCoreSup 85 p
  else
    let desc := s.rdPrev (R.FUSA_AkDESC_DESC k)
    let rd := if desc % 64 = 0 ∧ inCommons desc 64 then s.readWords busPort desc 8 else ([], false, s)
    let run : AssistRun := {
      op, desc, words := rd.1, core := s.dutyOf p, code := 0, base := s.activeBase,
      g1 := s.rdPrev R.FUSA_GATEB_G1, g2 := s.rdPrev R.FUSA_GATEA_G2, g3 := s.rdPrev R.FUSA_GATEA_G3,
      rehab := max 1 (s.rdPrev R.FUSA_GATEB_REHAB) }
    let code := rd.2.2.assistCode run
    let run := { run with code := if code = 0 ∧ rd.2.1 then 6 else code }
    let s := rd.2.2.setFusa { rd.2.2.fusa with assist := NMap.set none rd.2.2.fusa.assist k (some run) }
    s.wr (R.FUSA_AkCMD_BUSY k) 1

/-- GATE (R181, R197): a write of OP 1. -/
def execGate (p : Port) (k : Fin 2) (s : State) : Out := .next (s.byCore p fun s => s.assistStart 1 k.val p.core.val)
/-- CUPD (R188, R197): a write of OP 2. -/
def execCupd (p : Port) (k : Fin 2) (s : State) : Out := .next (s.byCore p fun s => s.assistStart 2 k.val p.core.val)

/-! ### GATE -/

/-- Late entries of a slot, in order of arrival. -/
def lateEntries (slot : List Nat) : List Nat := (slot.drop 4097).take (bitsOf (slot.getD 4096 0) 52 43)

def lateRef (e : Nat) : Nat := bitsOf e 59 48

/-- Overlay a late sample on a table of entries: a later or equal instant replaces (R181). -/
def overlayOne (m : NMap Nat) (e : Nat) : NMap Nat :=
  NMap.modify 0 m (lateRef e) (fun old =>
    if entPres old && decide (bitsOf e 41 32 < entPos old) then old
    else bitsOf e 31 0 + 2 ^ 32 * bitsOf e 41 32 + 2 ^ 42)

/-- Overlay the late entries for buffer BUF found in the late lists of buffers BUF + 1 to ASOF. -/
def State.overlayLate (buf : Nat) : Nat → Nat → NMap Nat → Bool → State → NMap Nat × Bool × State
  | 0, _, m, bad, s => (m, bad, s)
  | n + 1, i, m, bad, s =>
    let h := s.commonsRead busPort (s.slotAddr (buf + i) + 8 * 4096) 8
    let l := h.2.2.readWords busPort (s.slotAddr (buf + i) + 8 * 4097) (bitsOf h.1 52 43)
    let es := l.1.filter (fun e => bitsOf e 44 42 == i - 1)
    State.overlayLate buf n (i + 1) (es.foldl overlayOne m) (bad || h.2.1 || l.2.1) l.2.2

/-- Insertion into a rising list. -/
def insertInt (x : Int) : List Int → List Int
  | [] => [x]
  | y :: r => if x ≤ y then x :: y :: r else y :: insertInt x r

def sortInts : List Int → List Int
  | [] => []
  | x :: r => insertInt x (sortInts r)

/-- The median; for an even number the mean of the two middle values, rounded half upwards (R181). -/
def median (xs : List Int) : Int :=
  let l := sortInts xs
  let n := l.length
  if n % 2 = 1 then l.getD (n / 2) 0 else (l.getD (n / 2 - 1) 0 + l.getD (n / 2) 0 + 1) / 2

/-- num / den as UQ8.8, rounded half upwards and saturated (R181). -/
def uq88 (num den : Nat) : Nat := min 0xFFFF ((512 * num + den) / (2 * den))

/-- A member of a group under vote. -/
structure Member where
  ref : Nat
  z : Int
  sigma : Nat
  /-- Disputed in the state the run uses. -/
  disp : Bool
  /-- ẑ and P of the prediction. -/
  zp : Int
  var : Nat
deriving DecidableEq, Repr

/-- The vote of a group (R181): d² of each member, whether it is outside its gate, and whether the group falls back. -/
def vote (g1 g2 g3 : Nat) (ms : List Member) : List (Nat × Nat × Bool) × Bool :=
  match ms with
  | [] => ([], false)
  | [a] =>
    let d := uq88 (256 * (a.z - a.zp).natAbs ^ 2) (a.var + 256 * a.sigma ^ 2)
    ([(a.ref, d, decide (g1 < d))], decide (g1 < d))
  | [a, b] =>
    let d := uq88 ((a.z - b.z).natAbs ^ 2) (a.sigma ^ 2 + b.sigma ^ 2)
    ([(a.ref, d, decide (g2 < d)), (b.ref, d, decide (g2 < d))], decide (g2 < d))
  | _ =>
    let m := median (ms.map Member.z)
    let ds := ms.map fun a => (a.ref, uq88 ((a.z - m).natAbs ^ 2) (a.sigma ^ 2))
    let out := ((ms.zip ds).filter (fun x => x.1.disp || decide (g3 < x.2.2))).length
    (ds.map fun d => (d.1, d.2, decide (g3 < d.2)), decide (ms.length < 2 * out))

/-- What GATE has found of a reference. -/
structure Voted where
  d2 : Nat
  outside : Bool
  fb : Bool

/-- The dispute state of a present reference after a run that advances it (R183). A reference that has been inside its own
gate often enough recovers although its group falls back on account of the others (DEDUCED: notes/assumptions/21). -/
def Dispute.advance (d : Dispute) (rehab : Nat) (v : Voted) : Dispute :=
  if d.disputed then
    let n := if v.outside then 0 else min rehab (d.inside + 1)
    if rehab ≤ n then ⟨false, 0⟩ else ⟨true, n⟩
  else ⟨v.outside || v.fb, 0⟩

/-- Distinct groups of the present references, each with its members' indices in rising order. -/
def groupsOf (gs : List (Nat × Nat)) : List (List Nat) :=
  let single := (gs.filter (fun g => g.2 == 0xFFFF)).map (fun g => [g.1])
  let ids := (gs.filter (fun g => g.2 != 0xFFFF)).map Prod.snd |>.eraseDups
  single ++ ids.map (fun i => (gs.filter (fun g => g.2 == i)).map Prod.fst)

/-- The quality word of a reference (R184). -/
def qualityWord (qual : Nat) (new oos budget rehab fb : Bool) (d2 value : Nat) : Nat :=
  qual + 4 * b2n new + 8 * b2n oos + 16 * b2n budget + 32 * b2n rehab + 64 * b2n fb + 2 ^ 16 * d2 + 2 ^ 32 * value

/-- The votes of all groups in a run over n references. -/
def State.gateVotes (s : State) (run : AssistRun) (m : NMap Nat) (pred : List Nat) (n : Nat) : NMap Voted × Nat × Bool :=
  let refs := (List.range n).filter (fun r => entPres (NMap.get 0 m r))
  let gs := refs.map (fun r => (r, recField (s.refAt run.base r) 30 2))
  let member (r : Nat) : Member :=
    { ref := r, z := signedOf 32 (bitsOf (NMap.get 0 m r) 31 0), sigma := max 1 (recField (s.refAt run.base r) 20 2),
      disp := (NMap.get ⟨false, 0⟩ s.fusa.disputes r).disputed, zp := signedOf 32 (bitsOf (pred.getD r 0) 31 0),
      var := bitsOf (pred.getD r 0) 63 32 }
  (groupsOf gs).foldl (fun acc g =>
    let v := vote run.g1 run.g2 run.g3 (g.map member)
    (v.1.foldl (fun t d => NMap.put t d.1 ⟨d.2.1, d.2.2, v.2⟩) acc.1, acc.2.1 + b2n v.2,
      acc.2.2 || (v.2 && decide (2 ≤ g.length)))) ([], 0, false)

/-- The dispute state after the run of GATE for a buffer, and the references newly disputed. -/
def State.advanceDisputes (s : State) (rehab : Nat) (vs : NMap Voted) : State :=
  vs.foldl (fun s e =>
    let d := NMap.get ⟨false, 0⟩ s.fusa.disputes e.1
    let d' := d.advance rehab e.2
    let s := s.setFusa { s.fusa with disputes := NMap.set ⟨false, 0⟩ s.fusa.disputes e.1 d' }
    if !d.disputed && d'.disputed then s.inc R.FUSA_CNTC_DISPUTES else s) s

/-- The quality word of reference r for buffer b, of the generation at a base. -/
def State.gateWord (s : State) (base b : Nat) (slot : List Nat) (m : NMap Nat) (vs : NMap Voted) (adv : Bool) (r : Nat) :
    Nat :=
  let e := NMap.get 0 m r
  let v := vs.at? r
  let d := NMap.get ⟨false, 0⟩ s.fusa.disputes r
  let bad := v.any (fun v => v.outside || v.fb)
  let disputed := d.disputed || (!adv && bad)
  let late := expected (recField (s.refAt base r) 22 2) b && !entPres (slot.getD r 0)
  let new := entPres e
  qualityWord (if disputed then 2 else if late then 1 else 0) new ((lateEntries slot).any (fun x => lateRef x == r))
    (s.atBudget r) (disputed && d.inside != 0) (v.any Voted.fb) ((v.map Voted.d2).getD 0)
    (if new then bitsOf e 31 0 else 0)

/-- The work of GATE (R181 to R184); the answer is its code, with the address of the failing check word. -/
def State.gateWork (s : State) (r : AssistRun) : Nat × Nat × State :=
  let b := r.arg 0
  let n := s.nrefAt r.base
  let a := s.slotAddr b
  let sl := s.readWords busPort a 4609
  let scw := sl.2.2.commonsRead busPort (a + 8 * 4609) 8
  let pr := scw.2.2.readWords busPort (r.arg 8) n
  let pcw := pr.2.2.commonsRead busPort (r.arg 8 + 8 * n) 8
  let base := (List.range 4096).foldl (fun m i =>
    if entPres (sl.1.getD i 0) then NMap.put m i (sl.1.getD i 0) else m) ([] : NMap Nat)
  let ov := State.overlayLate b (r.arg 4 - b) 1 base false pcw.2.2
  let s := ov.2.2
  if verifyCheck sl.1 scw.1 ≠ 0 then (5, a + 8 * 4609, s)
  else if verifyCheck pr.1 pcw.1 ≠ 0 then (5, r.arg 8 + 8 * n, s)
  else if sl.2.1 || scw.2.1 || ov.2.1 then (6, a + 8 * 4609, s)
  else if pr.2.1 || pcw.2.1 then (6, r.arg 8 + 8 * n, s)
  else
    let vt := s.gateVotes r ov.1 pr.1 n
    let adv := b == r.arg 4 && b + 1 == s.fusa.closed && s.fusa.lastGate != some b
    let s := if adv then (s.setFusa { s.fusa with lastGate := some b }).advanceDisputes r.rehab vt.1 else s
    let s := s.incBy R.FUSA_CNTC_FALLBACK vt.2.1
    let ws := (List.range n).map (s.gateWord r.base b sl.1 ov.1 vt.1 adv)
    let s := s.writeWords busPort (r.arg 12) (ws ++ [carryWord ws])
    let nd := (ws.filter (fun w => w % 4 == 2)).length
    let s := s.commonsWrite busPort (r.desc + 16) 4 (nd + 65536 * vt.2.1)
    (0, 0, s.when vt.2.2 fun s => s.raise 82 (s.dutiesOf 2 ++ s.dutiesOf 4) true)

/-! ### CUPD (R188) -/

def sumTo (n : Nat) (f : Nat → Int) : Int := ((List.range n).map f).sum

/-- Index of entry (i, j), i ≤ j, of an upper triangle of 8 states by rows. -/
def triIdx (i j : Nat) : Nat := if i ≤ j then 8 * i - i * (i - 1) / 2 + (j - i) else 8 * j - j * (j - 1) / 2 + (i - j)

/-- num / den (den > 0) rounded half upwards. -/
def divHalfUp (num den : Int) : Int := (2 * num + den) / (2 * den)

/-- Replace n bytes at offset o of a record held as a number. -/
def recPut (r o n v : Nat) : Nat := putBits r (8 * (o + n) - 1) (8 * o) v

def recPutList (r o n : Nat) : List Nat → Nat
  | [] => r
  | v :: vs => recPutList (recPut r o n v) (o + n) n vs

/-- One scalar update of a record; the Bool tells that it was done (R188). -/
def cupdRecord (r : Nat) : Nat × Bool :=
  let n := min 8 (recField r 0 1)
  if !(recField r 1 1).testBit 0 then (r, false)
  else
    let x (i : Nat) : Int := recSigned r (8 + 4 * i) 4
    let p (i j : Nat) : Int := recSigned r (40 + 8 * triIdx i j) 8
    let h (i : Nat) : Int := recSigned r (328 + 4 * i) 4
    let y := recSigned r 360 4 * 2 ^ 28 - sumTo n (fun i => h i * x i)
    let ph (i : Nat) : Int := sumTo n (fun j => p i j * h j)
    let sv := sumTo n (fun i => h i * ph i) + recField r 364 4 * 2 ^ 56
    if sv ≤ 0 then (recPut r 4 4 4, false)
    else
      let num := y.natAbs ^ 2 * 2 ^ 16
      let gate := recField r 368 2
      let r' := recPut r 370 2 (uq88 num sv.toNat)
      let sat2 := decide (0xFFFF < (512 * num + sv.toNat) / (2 * sv.toNat))
      if gate != 0 && decide (gate * sv.toNat < num * 256) then (recPut r' 4 4 (8 + 2 * b2n sat2), false)
      else
        let xs := (List.range n).map fun i => divHalfUp (x i * sv + ph i * y) sv
        let ps := (List.range n).flatMap fun i =>
          ((List.range n).filter (fun j => decide (i ≤ j))).map fun j => (triIdx i j, divHalfUp (p i j * sv - ph i * ph j) sv)
        let sat := sat2 || xs.any (fun v => !fitsBits 32 v) || ps.any (fun e => !fitsBits 64 e.2)
        let r' := recPutList r' 8 4 (xs.map fun v => patternOf 32 (clampBits 32 v))
        let r' := ps.foldl (fun r e => recPut r (40 + 8 * e.1) 8 (patternOf 64 (clampBits 64 e.2))) r'
        (recPut r' 4 4 (1 + 2 * b2n sat), true)

/-- Words of a record held as a number. -/
def numWords : Nat → Nat → List Nat
  | 0, _ => []
  | n + 1, v => v % 2 ^ 64 :: numWords n (v / 2 ^ 64)

/-- The records in order; the answer is code 6 at a poisoned record with its address, and the records updated. -/
def State.cupdRecords (a : Nat) : Nat → Nat → State → Nat × Nat × Nat × State
  | 0, done, s => (0, 0, done, s)
  | n + 1, done, s =>
    let w := s.readWords busPort a 48
    if w.2.1 then (6, a, done, w.2.2)
    else
      let u := cupdRecord (leNat (wordsBytes w.1))
      State.cupdRecords (a + 384) n (done + b2n u.2) (w.2.2.writeWords busPort a (numWords 48 u.1))

def State.cupdWork (s : State) (r : AssistRun) : Nat × Nat × State :=
  let w := State.cupdRecords (r.arg 0) (r.arg 4) 0 s
  if w.1 ≠ 0 then (w.1, w.2.1, w.2.2.2)
  else (0, 0, w.2.2.2.commonsWrite busPort (r.desc + 8) 4 (w.2.2.1 + 65536 * (r.arg 4 - w.2.2.1)))

/-- ASSIST_COMPLETE (R198): the running command's work is done and it ends with ERR and event 83, or 85. -/
def execAssistComplete (k : Fin 2) (s : State) : Out :=
  .next (match NMap.get none s.fusa.assist k.val with
    | none => s
    | some r =>
      let s := s.drainAll
      let w := if r.code ≠ 0 then (r.code, r.desc, s) else if r.op = 1 then s.gateWork r else s.cupdWork r
      let s := w.2.2
      let s := s.setFusa { s.fusa with assist := NMap.set none s.fusa.assist k.val none }
      let s := (s.wr (R.FUSA_AkCMD_BUSY k.val) 0).wr (R.FUSA_AkCMD_ERR k.val) w.1
      let s := s.when (w.1 == 5 || w.1 == 6) (State.carriedFail · w.2.1 4 false)
      if w.1 = 0 then s.raise 83 [r.core] false else s.raise 85 [r.core] true)

end Sys2Proof.Machine
end

