-- ==== Sys2Proof/Machine/LoopLaw.lean ====
section
/-! DEFINITION. The arithmetic of a loop: structures and tracking, injection waveforms and the plant model
(10_loop_engine, R291, R294, R295, R298, R303, R305). -/

namespace Sys2Proof.Machine

/-! ## Scaling and fields (R288, R291) -/

/-- A raw value in loop units. -/
def scaleVal (x g : Int) (sh : Nat) (off : Int) : Int := clampBits 32 (roundShift (g * x) sh + off)
/-- The same, with whether it saturated (R294). -/
def scaleSat (x g : Int) (sh : Nat) (off : Int) : Int × Bool :=
  (scaleVal x g sh off, !fitsBits 32 (roundShift (g * x) sh + off))

/-- A scoreboard field: [5:0] low bit, [6] width. -/
def sbField (w fld : Nat) : Int :=
  let lo := fld % 64
  let n := if fld.testBit 6 then 32 else 16
  signedOf n (bitsOf w (lo + n - 1) lo)

def fieldOk (fld : Nat) : Bool := decide (fld < 128) && decide (fld % 64 + (if fld.testBit 6 then 32 else 16) ≤ 64)

/-! ## Stored values (R294): sums are held at scale 63 -/

/-- A stored signal, and whether it saturated. -/
def storeSignal (v : Int) : Int × Bool := let r := roundShift v 63; (clampBits 32 r, !fitsBits 32 r)
/-- A stored state, with 32 fraction bits. -/
def storeState (v : Int) : Int × Bool := let r := roundShift v 31; (clampBits 64 r, !fitsBits 64 r)

def LoopS.coef (l : LoopS) (k : Nat) : Coef := l.act.e.getD k ⟨0, 0⟩
/-- Coefficient times signal. -/
def Coef.sig (k : Coef) (v : Int) : Int := k.c * v * 2 ^ (63 - k.sh)
/-- Coefficient times state. -/
def Coef.st (k : Coef) (x : Int) : Int := k.c * x * 2 ^ (31 - k.sh)

/-- What one evaluation of the law gives. -/
structure Law where
  l : LoopS
  out : Int
  sat : Bool
  e : Int
  /-- The value before limits. -/
  v : Int
  /-- Section outputs. -/
  z : List Int

/-- One biquad section on v (R295): its output, the new states, and saturation. -/
def section1 (l : LoopS) (q : Nat) (v : Int) : Int × Int × Int × Bool :=
  let k (i : Nat) : Coef := l.coef (4 + 5 * q + i)
  let z := storeSignal ((k 0).sig v + l.s1.getD q 0 * 2 ^ 31)
  let a := storeState ((k 1).sig v - (k 3).sig z.1 + l.s2.getD q 0 * 2 ^ 31)
  let b := storeState ((k 2).sig v - (k 4).sig z.1)
  (z.1, a.1, b.1, z.2 || a.2 || b.2)

def sectionsFrom (l : LoopS) : Nat → Nat → Int → LoopS × Int × List Int × Bool
  | 0, _, v => (l, v, [], false)
  | n + 1, q, v =>
    let r := section1 l q v
    let l' := { l with s1 := l.s1.set q r.2.1, s2 := l.s2.set q r.2.2.1 }
    let t := sectionsFrom l' n (q + 1) r.1
    (t.1, t.2.1, r.1 :: t.2.2.1, r.2.2.2 || t.2.2.2)

/-- Section states while tracking T, and saturation (R294, R298). -/
def trackSections (t : Int) : Nat → Nat → LoopS → LoopS × Bool
  | 0, _, l => (l, false)
  | n + 1, q, l =>
    let k (i : Nat) : Coef := l.coef (4 + 5 * q + i)
    let a := storeState (t * 2 ^ 63 - (k 0).sig t)
    let b := storeState ((k 2).sig t - (k 4).sig t)
    let r := trackSections t n (q + 1) { l with s1 := l.s1.set q a.1, s2 := l.s2.set q b.1 }
    (r.1, a.2 || b.2 || r.2)

/-- The error, the derivative and the products of the PID structure, shared by R295 and R298. -/
structure LawHead where
  l : LoopS
  e : Int
  p : Int
  di : Int
  sat : Bool

def lawHead (l : LoopS) (r y : Int) : LawHead :=
  let flags := l.f 2 1
  let e0 := if flags.testBit 1 then y - r else r - y
  let e := clampBits 32 e0
  let l := if l.first then { l with eprev := e, yprev := y } else l
  if l.f 0 1 = 1 then
    let dd := if flags.testBit 0 then l.yprev - y else e - l.eprev
    let d := storeState ((l.coef 2).st l.d + (l.coef 3).sig dd)
    ⟨{ l with d := d.1 }, e, (l.coef 0).sig e, (l.coef 1).sig e, d.2 || e != e0⟩
  else ⟨l, e, 0, 0, e != e0⟩

/-- A tracking evaluation (R298). -/
def trackLaw (l : LoopS) (r y t : Int) : Law :=
  let h := lawHead l r y
  let l := h.l
  let i := storeState (t * 2 ^ 63 - h.p - l.d * 2 ^ 31)
  let x := storeState (t * 2 ^ 63 - (l.coef 0).sig h.e)
  let kind := l.f 0 1
  let l := if kind = 1 then { l with i := i.1 } else if kind = 2 then { l with x := x.1 } else l
  let z := trackSections t (l.f 1 1) 0 l
  let sat := h.sat || (kind == 1 && i.2) || (kind == 2 && x.2) || z.2
  ⟨{ z.1 with eprev := h.e, yprev := y, outprev := t }, t, sat, h.e, t, []⟩

/-- The computed output (R295), with the output injection. -/
def computeLaw (l : LoopS) (r y inj : Int) : Law :=
  let h := lawHead l r y
  let l := h.l
  let kind := l.f 0 1
  let v0 := if kind = 1 then storeSignal (h.p + l.i * 2 ^ 31 + h.di + l.d * 2 ^ 31)
    else if kind = 2 then storeSignal ((l.coef 0).sig h.e + l.x * 2 ^ 31)
    else (h.e, false)
  let x := storeState ((l.coef 1).sig h.e - (l.coef 2).sig v0.1)
  let l := if kind = 2 then { l with x := x.1 } else l
  let ss := sectionsFrom l (l.f 1 1) 0 v0.1
  let l := ss.1
  let v := ss.2.1
  let w := clampInt l.act.umin l.act.umax v
  let w := if l.act.rmax ≠ 0 then clampInt (l.outprev - l.act.rmax) (l.outprev + l.act.rmax) w else w
  let wind := kind == 1 && w != v && (if h.di < 0 then decide (v - w < 0) else h.di != 0 && decide (0 < v - w))
  let i := storeState (l.i * 2 ^ 31 + (if wind then 0 else h.di))
  let l := if kind = 1 then { l with i := i.1 } else l
  let out := clampInt l.act.umin l.act.umax (w + inj)
  let sat := h.sat || v0.2 || (kind == 2 && x.2) || ss.2.2.2 || (kind == 1 && i.2) || w != v || out != w + inj
  ⟨{ l with eprev := h.e, yprev := y, outprev := out }, out, sat, h.e, v, ss.2.2.1⟩

/-! ## Injection (R303) -/

def prbsTaps (k : Nat) : Nat × Nat := [(7, 6), (9, 5), (11, 9), (15, 14)].getD k (7, 6)

def prbsShift (k reg : Nat) : Nat :=
  let t := prbsTaps k
  (2 * reg + (reg.testBit (t.1 - 1) != reg.testBit (t.2 - 1)).toNat) % 2 ^ t.1

/-- An integer with 40 fraction bits rounded half upwards. -/
def roundQ40 (v : Int) : Int := (v + 2 ^ 39) / 2 ^ 40

/-- The multisine sample (R303). -/
def multisine (amp : Int) (nh j f0 : Nat) : Int :=
  let sum := ((List.range nh).map fun i =>
    let h := i + 1
    let turn := (h * j * f0) % 2 ^ 32 * 2 ^ 32 + 2 ^ 64 * nh - h * (h - 1) * 2 ^ 63 / nh
    cosApprox turn).sum
  (2 * amp * sum + nh * 2 ^ 40) / (2 * nh * 2 ^ 40)

/-! ## The model (R305) -/

/-- α in units of 2^−16, and the delay in samples before it saturates. -/
def modelAlpha (div tau : Nat) : Nat := roundDiv (65536 * div) (div + 1000 * tau)
def modelDelay (div dead : Nat) : Nat := roundDiv (1000 * dead) div

/-- ŷ and bias set afresh from y and the output u, gain Q4.12. -/
def LoopS.modelInit (l : LoopS) (y u gain : Int) : LoopS :=
  { l with minit := false, yhat := clampBits 64 (y * 2 ^ 32), bias := clampBits 64 (y * 2 ^ 32 - gain * u * 2 ^ 20),
           hist := List.replicate 256 u }

/-- One evaluation of the first-order model on the history with the present output in front: the loop and the residual. -/
def LoopS.modelStep (l : LoopS) (y u gain : Int) (alpha delay : Nat) : LoopS × Int :=
  let hist := (u :: l.hist).take 256
  let yhat := clampBits 64 (roundShift (l.yhat * 65536
    + alpha * (gain * hist.getD delay 0 * 2 ^ 20 + l.bias - l.yhat)) 16)
  let res := clampBits 32 (roundShift (y * 2 ^ 32 - yhat) 32)
  let bias := clampBits 64 (l.bias + l.f 92 2 * res * 65536)
  ({ l with yhat := yhat, bias := bias, hist := hist }, res)

end Sys2Proof.Machine
end

