-- ==== Sys2Proof/Machine/Loops.lean ====
section
/-! DEFINITION. The loop engine: seals, evaluation, supervision, changes of a running loop, injectors and capture
(10_loop_engine, R283 to R309). -/

namespace Sys2Proof.Machine

def loopPort : Nat := 20
def State.loopSealed (s : State) (n : Nat) : Bool := s.rdBit (R.LOOP_nSEAL_SEALED n)
def State.loopRun (s : State) (n : Nat) : Bool := s.rdBit (R.LOOP_nSTAT_RUN n)

/-- Show NRUN, NQ and NB. -/
def State.showLoops (s : State) : State :=
  let nrun := (s.loops.loops.filter (fun e => s.loopRun e.1)).length
  ((s.wr R.LOOP_STAT_NRUN nrun).wr R.LOOP_STAT_NQ s.loops.console.length).wr R.LOOP_STAT_NB s.loops.loads.length

/-- Raise a loop event to one duty. -/
def State.loopEvent (s : State) (e duty : Nat) : State := s.raise e [duty] false

/-! ## The loop seal (R287 to R289) -/

/-- Descriptor bytes that must be 0. -/
def loopZeroOk (l : LoopS) : Bool :=
  l.f 3 1 == 0 && l.f 70 2 == 0 && l.f 94 2 == 0 && l.f 104 16 == 0

/-- The limit of a source index of a setpoint kind, and of a feedback kind. -/
def spLimit (k : Nat) : Nat := [2 ^ 32, 60, 32, Config.sbWords, 512].getD k 0
def fbLimit (k : Nat) : Nat := [0, 60, 32, 4, Config.sbWords, 512].getD k 0

/-- Code 4: codes, shifts and fields in their ranges. -/
def loopCode4 (l : LoopS) : Bool :=
  let st := l.f 0 1
  let nsec := l.f 1 1
  let fak := l.f 14 1
  inRange 1 3 st && decide (nsec ≤ 4) && (st != 3 || nsec != 0) && decide (l.f 2 1 < 4) && loopZeroOk l
    && decide (l.f 12 1 ≤ 4) && inRange 1 5 (l.f 13 1) && decide (fak ≤ 5) && decide (l.f 15 1 ≤ 3)
    && decide (l.f 30 1 < 128) && decide (l.f 31 1 < 128) && decide (l.f 68 1 < 128)
    && (l.f 12 1 != 3 || fieldOk (l.f 30 1)) && (l.f 13 1 != 4 || fieldOk (l.f 31 1))
    && (if fak = 4 then fieldOk (l.f 43 1) else l.f 43 1 == 0) && (l.f 60 1 != 4 || fieldOk (l.f 68 1))
    && decide (l.f 40 1 < 32) && decide (l.f 41 1 < 32) && decide (l.f 42 1 < 32) && decide (l.f 69 1 < 32)
    && decide (l.f 60 1 ≤ 4) && decide (l.f 61 1 ≤ 3) && l.f 86 2 != 0 && decide (0 < l.fI 88 4)
    && (l.f 15 1 != 3 || inRange 10 100000 (l.f 100 4))

/-- Code 6: source indices name something. -/
def loopCode6 (l : LoopS) : Bool :=
  (l.f 12 1 == 0 || decide (l.f 16 4 < spLimit (l.f 12 1))) && decide (l.f 20 4 < fbLimit (l.f 13 1))
    && (l.f 14 1 == 0 || decide (l.f 24 4 < fbLimit (l.f 14 1)))
    && (l.f 60 1 != 4 || decide (l.f 64 4 < Config.sbWords))

/-- Other sealed loops. -/
def State.otherLoops (s : State) (n : Nat) : List (Nat × LoopS) :=
  s.loops.loops.filter (fun e => e.1 != n && s.loopSealed e.1)

/-- Code 7: the destination exists and is no other sealed loop's. -/
def State.loopCode7 (s : State) (n : Nat) (l : LoopS) : Bool :=
  let k := l.f 15 1
  let i := l.f 28 2
  k == 0 || (decide (i < (if k = 1 then 2 * s.rd R.LOOP_OREG_ONUM else if k = 2 then 8 else 24))
    && !(s.otherLoops n).any (fun e => e.2.f 15 1 == k && e.2.f 28 2 == i))

/-- The conditions of R299 between outer loop o and inner loop i. -/
def cascadeOk (o i : Nat) (lo li : LoopS) : Bool :=
  let div := li.f 4 4
  decide (o < i) && lo.f 15 1 == 0 && lo.f 4 4 % div == 0 && inRange 2 1000 (lo.f 4 4 / div)
    && lo.f 8 4 % div == li.f 8 4

/-- Code 8: the cascade rule as inner and as outer loop. -/
def State.loopCode8 (s : State) (n : Nat) (l : LoopS) : Bool :=
  let others := s.otherLoops n
  let o := l.f 16 4
  (l.f 12 1 != 4 || (s.loopSealed o && o != n && cascadeOk o n (s.loopS o) l
      && !others.any (fun e => e.2.f 12 1 == 4 && e.2.f 16 4 == o)))
    && others.all (fun e => !(e.2.f 12 1 == 4 && e.2.f 16 4 == n) || cascadeOk n e.1 l e.2)

/-- Section counts of the active generation. -/
def State.activeCount (s : State) (k : Nat) : Nat :=
  if s.rdBit R.FUSA_QM_STAT_AVALID then
    (headerCounts (leNat (memBytes s.mem (s.rd (R.FUSA_QMg_BASE_BASE (s.rd R.FUSA_QM_STAT_ACTG))) 64))).getD k 0
  else 0

/-- Code 9: the model's record and the alternate feedback exist. -/
def State.loopCode9 (s : State) (l : LoopS) : Bool :=
  (l.f 60 1 != 2 || decide (l.f 62 2 < s.activeCount 3)) && (l.f 60 1 != 3 || decide (l.f 62 2 < s.activeCount 7))
    && (l.f 61 1 != 2 || l.f 14 1 != 0)

/-- Codes 4 to 9 of R289. -/
def State.loopSealCode (s : State) (n : Nat) (l : LoopS) : Nat :=
  if !loopCode4 l then 4
  else if !inRange 1 100000 (l.f 4 4) || decide (l.f 4 4 ≤ l.f 8 4) then 5
  else if !loopCode6 l then 6
  else if !s.loopCode7 n l then 7
  else if !s.loopCode8 n l then 8
  else if !s.loopCode9 l then 9
  else 0

/-- A write of GO to `LOOP_nSEAL` (R287): the address collected by then is what the seal checks and applies (R7). -/
def State.loopSeal (s : State) (n p : Nat) : State :=
  if s.loopRun n then s.raiseCore 99 p
  else if s.rdBit (R.LOOP_nSEAL_BUSY n) then s
  else ((s.discardColl 5 .loopDesc (some n)).wr (R.LOOP_nSEAL_BUSY n) 1).setLoops
    { s.loops with sealBy := NMap.set none s.loops.sealBy n (some (s.dutyOf p, s.rdColl (R.LOOP_nDESC_ADDR n))) }

/-- LOOP_SEAL (R287). -/
def execLoopSeal (p : Port) (n : Fin 512) (s : State) : Out := .next (s.byCore p fun s => s.loopSeal n.val p.core.val)

/-- The descriptor at a read and checked: the loop's new copy and the code (R289). -/
def State.loopRead (s : State) (n a : Nat) : LoopS × Nat × State :=
  let l := s.loopS n
  if a % 64 ≠ 0 ∨ commonsBytes < a + 128 then (l, 1, s)
  else
    let w := s.readWords loopPort a 15
    let c := w.2.2.commonsRead loopPort (a + 120) 8
    let l := { l with desc := w.1 }
    if verifyCheck w.1 c.1 ≠ 0 then (l, 2, c.2.2.carriedFail (a + 120) 5 false)
    else if w.2.1 || c.2.1 then (l, 3, c.2.2.carriedFail (a + 120) 5 false)
    else (l, c.2.2.loopSealCode n l, c.2.2)

/-- LOOP_SEAL_COMPLETE (R287, R289). -/
def execLoopSealComplete (n : Fin 512) (s : State) : Out :=
  .next (match NMap.get none s.loops.sealBy n.val with
    | none => s
    | some (duty, a) =>
      let r := s.loopRead n.val a
      let s := r.2.2
      let s := s.setLoops { s.loops with sealBy := NMap.set none s.loops.sealBy n.val none }
      let s := (s.wr (R.LOOP_nSEAL_BUSY n.val) 0).wr (R.LOOP_nSEAL_ERR n.val) r.2.1
      let s := if r.2.1 = 0 then
          ((s.wr (R.LOOP_nDESC_ADDR n.val) a).setLoop n.val { r.1 with mround := 0 }).wr (R.LOOP_nSEAL_SEALED n.val) 1
        else s
      s.loopEvent 98 duty)

/-- A write of GO to `LOOP_OSEAL` (R309). -/
def State.loopOseal (s : State) (p : Nat) : State :=
  if s.rd R.LOOP_STAT_NRUN ≠ 0 then s.raiseCore 99 p
  else
    let num := s.rdColl R.LOOP_OREG_ONUM
    let code := if 504 < num then 1 else if Config.sbWords < s.rdColl R.LOOP_OREG_OBASE + num then 2 else 0
    (if code = 0 then s.applyColl 5 .loopOut none else s.discardColl 5 .loopOut none).wr R.LOOP_OSEAL_ERR code

/-- LOOP_OUTPUT_SEAL (R309). -/
def execLoopOutputSeal (p : Port) (s : State) : Out := .next (s.byCore p fun s => s.loopOseal p.core.val)

/-- LOOP_OUTPUT_POST (R286): at cycle 52,800, while a loop runs, every output slot is posted. -/
def execLoopOutputPost (s : State) : Out :=
  .next (let s := s.atCycle 52800
    if s.rd R.LOOP_STAT_NRUN = 0 then s
    else
      let w (i : Nat) : Nat := patternOf 32 (NMap.get 0 s.loops.slots (2 * i))
        + 2 ^ 32 * patternOf 32 (NMap.get 0 s.loops.slots (2 * i + 1))
      s.postHw 20 (s.rd R.LOOP_OREG_OBASE) ((List.range (s.rd R.LOOP_OREG_ONUM)).map w))

/-! ## Changing a running loop (R300 to R302) -/

/-- A write of COMMIT (R300); one of the cycle in which an evaluation starts waits for the following one. -/
def State.loopCommit (s : State) (n : Nat) : State := s.wrLater (R.LOOP_nBANK_PEND n) 1
/-- LOOP_COMMIT (R300). -/
def execLoopCommit (p : Port) (n : Fin 512) (s : State) : Out := .next (s.byCore p fun s => s.loopCommit n.val)

/-- A write to `LOOP_BLDADDR` (R301) with the target latched from the core's write of `LOOP_BLDA`. -/
def State.setLoadQueue (s : State) (addr p : Nat) : State :=
  if 8 ≤ s.loops.loads.length then (s.inc R.LOOP_BLST_REFUSED).raiseCoreSup 103 p
  else
    let l := (s.core p).blda.toNat
    (s.setLoops { s.loops with
      loads := s.loops.loads ++ [⟨bitsOf l 8 0, l.testBit 9, addr % 2 ^ 23, s.dutyOf p⟩] }).showLoops

/-- SET_LOAD_QUEUE (R301). -/
def execSetLoadQueue (p : Port) (addr : BitVec 23) (s : State) : Out :=
  .next (s.byCore p fun s =>
    (s.hold R.LOOP_BLDADDR addr.toNat).setLoadQueue addr.toNat p.core.val)

/-- The bank a set describes (R301). -/
def setBank (ws : List Nat) : LoopBank :=
  { e := (ws.take 24).map (fun w => ⟨signedOf 32 w, bitsOf w 36 32⟩),
    umin := signedOf 32 (bitsOf (ws.getD 24 0) 31 0), umax := signedOf 32 (bitsOf (ws.getD 24 0) 63 32),
    rmax := signedOf 32 (bitsOf (ws.getD 25 0) 31 0) }

/-- Code 4 of a set load. -/
def setOk (ws : List Nat) : Bool :=
  let b := setBank ws
  (ws.take 24).all (fun w => bitsOf w 63 37 == 0) && bitsOf (ws.getD 25 0) 63 32 == 0 && decide (0 ≤ b.rmax)
    && decide (b.umin ≤ b.umax)

/-- SET_LOAD_COMPLETE (R301): in the present cycle, the oldest queued set is read, checked and written to the loop's shadow bank. -/
def execSetLoadComplete (s : State) : Out :=
  .next (match s.loops.loads with
    | [] => s
    | q :: rest =>
      let s := s.setLoops { s.loops with loads := rest }
      let inside := q.addr % 64 == 0 && decide (q.addr + 216 ≤ commonsBytes)
      let w := if inside then s.readWords loopPort q.addr 26 else ([], false, s)
      let c := if inside then w.2.2.commonsRead loopPort (q.addr + 208) 8 else (0, false, w.2.2)
      let s := c.2.2
      let code := if !inside then 1 else if verifyCheck w.1 c.1 ≠ 0 then 2 else if w.2.1 || c.2.1 then 3
        else if !setOk w.1 then 4 else if !s.loopSealed q.loop then 5 else 0
      let s := s.when (code == 2) (State.carriedFail · (q.addr + 208) 5 false)
      let s := (s.wr R.LOOP_BLST_ERR code).wr R.LOOP_BLST_LOOP q.loop
      if code = 0 then
        let l := s.loopS q.loop
        let s := s.setLoop q.loop { l with
          shd := setBank w.1, dirty := List.range 24, before := some ⟨s.now, l.shd, l.dirty⟩ }
        let s := s.wrLater (R.LOOP_nBANK_DIRTY q.loop) 1
        ((if q.commit then s.loopCommit q.loop else s).showLoops).loopEvent 102 q.core
      else s.showLoops.raise 103 [q.core] true)

/-- A write to `LOOP_CWRV` (R302) with loop, index and shift latched from the core's write of `LOOP_CWRA`. -/
def State.consoleQueue (s : State) (v p : Nat) : State :=
  let l := (s.core p).cwra.toNat
  let idx := bitsOf l 13 9
  if 24 ≤ idx ∨ 16 ≤ s.loops.console.length then (s.inc R.LOOP_CWST_REFUSED).raiseCore 101 p
  else
    (s.setLoops { s.loops with
      console := s.loops.console ++ [⟨bitsOf l 8 0, idx, bitsOf l 18 14, signedOf 32 v, s.dutyOf p, s.now⟩] }).showLoops

/-- CONSOLE_ENTRY_QUEUE (R302). -/
def execConsoleEntryQueue (p : Port) (v : Word) (s : State) : Out :=
  .next (s.byCore p fun s => (s.hold R.LOOP_CWRV v.toNat).consoleQueue v.toNat p.core.val)

/-- Remove the first entry that satisfies a test. -/
def takeFirst {α : Type} (f : α → Bool) : List α → Option α × List α
  | [] => (none, [])
  | x :: r => if f x then (some x, r) else let t := takeFirst f r; (t.1, x :: t.2)

/-- Step 1 of an evaluation (R285, R302): the loop's oldest console entry, queued before the cycle since, goes to the active
bank, and to the shadow bank unless that entry is dirty. -/
def State.applyConsole (s : State) (n since : Nat) : State :=
  let t := takeFirst (fun (e : ConsoleEntry) => e.loop == n && decide (e.wrote < since)) s.loops.console
  match t.1 with
  | none => s
  | some e =>
    let s := s.setLoops { s.loops with console := t.2 }
    let l := s.loopS n
    let k : Coef := ⟨e.val, e.sh⟩
    let act := { l.act with e := l.act.e.set e.idx k }
    let shd := if l.dirty.contains e.idx then l.shd else { l.shd with e := l.shd.e.set e.idx k }
    ((s.setLoop n { l with act := act, shd := shd }).inc R.LOOP_CWST_APPLIED).showLoops.loopEvent 100 e.core

/-- The banks of a loop after a swap in cycle t; a set load of that cycle is applied after the copy (R301). -/
def LoopS.swap (l : LoopS) (t : Nat) : LoopS :=
  match l.before.filter (fun b => b.t == t) with
  | some b => { l with act := b.shd }
  | none => { l with act := l.shd, dirty := [] }

/-- Step 2 (R300): the banks swap if a commit is pending. -/
def State.swapLoop (s : State) (n : Nat) : State :=
  if s.rdBit (R.LOOP_nBANK_PEND n) then
    let s := s.setLoop n ((s.loopS n).swap s.now)
    let s := s.swapFields [R.LOOP_nSP_SP n, R.LOOP_nMANOUT_MANOUT n, R.LOOP_nMODE_MODE n]
    (s.wr (R.LOOP_nBANK_PEND n) 0).wr (R.LOOP_nBANK_DIRTY n) 0
  else s

/-- A write of RACK (R307). -/
def State.loopRack (s : State) (n : Nat) : State := s.setLoop n { (s.loopS n) with rack := some s.now }
/-- REACTION_ACKNOWLEDGE (R307). -/
def execReactionAcknowledge (p : Port) (n : Fin 512) (s : State) : Out := .next (s.byCore p fun s => s.loopRack n.val)

/-! ## Injectors and capture (R303, R304) -/

def State.injS (s : State) (k : Nat) : InjS := NMap.get InjS.init s.loops.inj k
def State.setInj (s : State) (k : Nat) (x : InjS) : State :=
  s.setLoops { s.loops with inj := NMap.set InjS.init s.loops.inj k x }
def State.injActive (s : State) (k : Nat) : Bool := s.rdBit (R.LOOP_INJk_STAT_ACT k)

/-- The first failing code of an injector seal. -/
def State.injCode (s : State) (k : Nat) : Nat :=
  let c (f : FieldRef) : Nat := s.rdColl f
  let loop := c (R.LOOP_INJk_CFG_LOOP k)
  let amp := c (R.LOOP_INJk_AMP_AMP k)
  let f0 := c (R.LOOP_INJk_F0_F0 k)
  let nh1 := c (R.LOOP_INJk_CFG_NHM1 k)
  let bad := c (R.LOOP_INJk_CFG_HOLD k) == 0 || amp == 0 || decide (2 ^ 31 ≤ amp) || decide (2 ^ 31 ≤ f0)
    || decide (2 ^ 31 ≤ c (R.LOOP_INJk_F1_F1 k)) || c (R.LOOP_INJk_LEN_LEN k) == 0
    || nh1 == 0 || decide (2 ^ 31 ≤ (nh1 + 1) * f0)
  if !s.loopSealed loop then 1 else if bad then 2
  else if (List.range 8).any (fun j => j != k && (s.injS j).isSealed && s.rd (R.LOOP_INJk_CFG_LOOP j) == loop) then 3
  else 0

/-- A write of GO to `LOOP_INJk_SEAL` (R303). -/
def State.injSeal (s : State) (k p : Nat) : State :=
  if s.injActive k then s.raiseCore 99 p
  else
    let code := s.injCode k
    (if code = 0 then (s.applyColl 5 .inj (some k)).setInj k { (s.injS k) with isSealed := true }
      else s.discardColl 5 .inj (some k)).wr (R.LOOP_INJk_SEAL_ERR k) code

/-- INJECTOR_SEAL (R303). -/
def execInjectorSeal (p : Port) (k : Fin 8) (s : State) : Out := .next (s.byCore p fun s => s.injSeal k.val p.core.val)

def State.injStart (s : State) (k p : Nat) : State :=
  if s.injActive k || !(s.injS k).isSealed then s
  else s.setInj k { (s.injS k) with starting := some s.now, core := s.dutyOf p }

/-- INJECTOR_START (R303). -/
def execInjectorStart (p : Port) (k : Fin 8) (s : State) : Out := .next (s.byCore p fun s => s.injStart k.val p.core.val)

/-- An injector ends (R303), and its loop shows none active. -/
def State.injEnd (s : State) (k code : Nat) : State :=
  let s := (s.wr (R.LOOP_INJk_STAT_ACT k) 0).wr (R.LOOP_INJk_STAT_END k) code
  (s.wr (R.LOOP_nSTAT_INJ (s.rd (R.LOOP_INJk_CFG_LOOP k))) 0).loopEvent 104 (s.injS k).core

def State.injStop (s : State) (k : Nat) : State :=
  let s := s.setInj k { (s.injS k) with starting := none }
  if s.injActive k then s.injEnd k 2 else s

/-- INJECTOR_STOP (R303). -/
def execInjectorStop (p : Port) (k : Fin 8) (s : State) : Out := .next (s.byCore p fun s => s.injStop k.val)

/-- Nodes of the capture: 1, 2 or 4. -/
def State.capNodes (s : State) : Nat := 2 ^ min 2 (s.rd R.LOOP_CAPCFG_NN)

/-- The first failing code of the capture seal. -/
def State.capCode (s : State) : Nat :=
  let c (f : FieldRef) : Nat := s.rdColl f
  let nn := 2 ^ min 2 (c R.LOOP_CAPCFG_NN)
  let ns := c R.LOOP_CAPCFG_NSAMP
  let base := c R.LOOP_CAPBASE_BASE
  let nodeBad (i : Nat) : Bool := !s.loopSealed (c (R.LOOP_CAPNODEi_LOOP i)) || decide (14 ≤ c (R.LOOP_CAPNODEi_NODE i))
  if base % 8 != 0 || decide (commonsBytes < base + 4 * nn * ns) then 1
  else if ns == 0 || decide (65536 < ns) then 2
  else if c R.LOOP_CAPCFG_NN == 3 || !s.loopSealed (c R.LOOP_CAPCFG_PACE) || (List.range nn).any nodeBad then 3
  else 0

def State.capSeal (s : State) (p : Nat) : State :=
  if s.rdBit R.LOOP_CAPSTAT_ACT then s.raiseCore 99 p
  else
    let code := s.capCode
    (if code = 0 then s.applyColl 5 .cap none else s.discardColl 5 .cap none).wr R.LOOP_CAPSEAL_ERR code

/-- CAPTURE_SEAL (R304). -/
def execCaptureSeal (p : Port) (s : State) : Out := .next (s.byCore p fun s => s.capSeal p.core.val)

/-- Capture begins, for the core that wrote START or for an injector (R304). -/
def State.capBegin (s : State) (core : Option Nat) : State :=
  if s.rdBit R.LOOP_CAPSTAT_ACT then s
  else ((((s.discardColl 5 .cap none).setLoops { s.loops with capCore := core }).wr R.LOOP_CAPSTAT_ACT 1).wr R.LOOP_CAPSTAT_WRAP 0).wr
    R.LOOP_CAPSTAT_N 0

/-- CAPTURE_START (R304). -/
def execCaptureStart (p : Port) (s : State) : Out :=
  .next (s.byCore p fun s => s.capBegin (some (s.dutyOf p.core.val)))

def State.capEnd (s : State) : State :=
  let s := s.wr R.LOOP_CAPSTAT_ACT 0
  match s.loops.capCore with
  | some d => s.loopEvent 105 d
  | none => s.raiseSup 105

def State.capStop (s : State) : State := if s.rdBit R.LOOP_CAPSTAT_ACT then s.capEnd else s

/-- CAPTURE_STOP (R304). -/
def execCaptureStop (p : Port) (s : State) : Out := .next (s.byCore p fun s => s.capStop)

/-- Record one sample at the end of an evaluation of the pace loop (R304). -/
def State.capRecord (s : State) (n : Nat) : State :=
  if s.rdBit R.LOOP_CAPSTAT_ACT && s.rd R.LOOP_CAPCFG_PACE == n then
    let nn := s.capNodes
    let ns := s.rd R.LOOP_CAPCFG_NSAMP
    let done := s.rd R.LOOP_CAPSTAT_N
    let j := if ns ≤ done then 0 else done
    let s := if ns ≤ done then s.wr R.LOOP_CAPSTAT_WRAP 1 else s
    let val (i : Nat) : Nat := patternOf 32
      (NMap.get 0 (s.loopS (s.rd (R.LOOP_CAPNODEi_LOOP i))).nodes (s.rd (R.LOOP_CAPNODEi_NODE i)))
    let a := s.rd R.LOOP_CAPBASE_BASE + 4 * nn * j
    let s := if nn = 1 then s.commonsWrite loopPort a 4 (val 0)
      else (List.range (nn / 2)).foldl
        (fun t i => t.commonsWrite loopPort (a + 8 * i) 8 (val (2 * i) + 2 ^ 32 * val (2 * i + 1))) s
    let s := s.wr R.LOOP_CAPSTAT_N (j + 1)
    if !s.rdBit R.LOOP_CAPCFG_RING && decide (ns ≤ j + 1) then s.capEnd else s
  else s

/-- The injector that acts on loop n, if any. -/
def State.injOf (s : State) (n : Nat) : Option Nat :=
  (List.range 8).find? (fun k => (s.injS k).isSealed && s.rd (R.LOOP_INJk_CFG_LOOP k) == n
    && (s.injActive k || (s.injS k).starting.any (fun t => decide (t < s.now))))

/-- START takes effect at the loop's evaluation (R303). -/
def State.injBegin (s : State) (k : Nat) : State :=
  let x := s.injS k
  if x.starting.any (fun t => decide (t < s.now)) then
    let n := (prbsTaps (s.rd (R.LOOP_INJk_CFG_PRBSN k))).1
    let s := (s.discardColl 5 .inj (some k)).setInj k { x with starting := none, phase := 0, prbs := 2 ^ n - 1 }
    let s := ((s.wr (R.LOOP_INJk_STAT_ACT k) 1).wr (R.LOOP_INJk_STAT_END k) 0).wr (R.LOOP_INJk_STAT_J k) 0
    if s.rdBit (R.LOOP_INJk_CFG_TRIGCAP k) then s.capBegin none else s
  else s

/-- The sample s[j] (R303). -/
def State.injSample (s : State) (k : Nat) : Int :=
  let x := s.injS k
  let amp := s.rdI (R.LOOP_INJk_AMP_AMP k)
  match s.rd (R.LOOP_INJk_CFG_WAVE k) with
  | 0 => amp
  | 1 => if x.prbs.testBit ((prbsTaps (s.rd (R.LOOP_INJk_CFG_PRBSN k))).1 - 1) then amp else -amp
  | 2 => roundQ40 (amp * sinApprox (x.phase * 2 ^ 32))
  | _ => multisine amp (s.rd (R.LOOP_INJk_CFG_NHM1 k) + 1) (s.rd (R.LOOP_INJk_STAT_J k)) (s.rd (R.LOOP_INJk_F0_F0 k))

/-- The injector moves on to its next sample. -/
def State.injNext (s : State) (k : Nat) : State :=
  let x := s.injS k
  let j := s.rd (R.LOOP_INJk_STAT_J k)
  let f0 : Int := s.rd (R.LOOP_INJk_F0_F0 k)
  let f1 : Int := s.rd (R.LOOP_INJk_F1_F1 k)
  let len := s.rd (R.LOOP_INJk_LEN_LEN k)
  let phase := patternOf 32 (x.phase + f0 + truncDiv ((f1 - f0) * j) len)
  let prbs := if (j + 1) % max 1 (s.rd (R.LOOP_INJk_CFG_HOLD k)) = 0 then
    prbsShift (s.rd (R.LOOP_INJk_CFG_PRBSN k)) x.prbs else x.prbs
  let s := (s.setInj k { x with phase := phase, prbs := prbs }).wr (R.LOOP_INJk_STAT_J k) (j + 1)
  if len ≤ j + 1 then s.injEnd k 1 else s

/-! ## Sources (R290 to R292) -/

/-- A channel's accumulator, without what a conversion that ends in the present cycle adds (R410). -/
def State.accOf (s : State) (ch : Nat) : AccRead :=
  let s := s.beforeHw fun a => a == R.ADCS_ACCn ch
  ⟨s.rd (R.ADCS_ACCn_SUM ch), s.rd (R.ADCS_ACCn_COUNT ch)⟩

/-- The mean of the results between two readings; none where there is none (R290, R412). -/
def accMean (prev cur : AccRead) : Option Int :=
  let n := (cur.count + 65536 - prev.count % 65536) % 65536
  let d := signedOf 48 (cur.sum + 2 ^ 48 - prev.sum % 2 ^ 48)
  if n = 0 then none else some ((2 * d + n) / (2 * n))

/-- The setpoint of a loop without injection, and whether its scaling saturated (R290 to R292, R294). -/
def State.loopSetpoint (s : State) (n : Nat) (l : LoopS) : Int × Bool :=
  let i := l.f 16 4
  let sc (x : Int) : Int × Bool := scaleSat x (l.fI 32 4) (l.f 40 1) (l.fI 36 4)
  match l.f 12 1 with
  | 0 => (s.rdI (R.LOOP_nSP_SP n), false)
  | 1 => match accMean l.accS (s.accOf i) with
    | some x => sc x
    | none => (l.sp, false)
  | 2 => sc (s.rd (R.DIOP_PIp_FREQ_FREQ i))
  | 3 => if (s.sbAt i).src = 32 then (s.rdI (R.LOOP_nSP_SP n), false) else sc (sbField (s.sbAt i).val.toNat (l.f 30 1))
  | _ => (s.rdI (R.LOOP_nOUT_OUT i), false)

/-- One feedback source of kind k, index i and field fld: the value in loop units and whether its scaling saturated, or none when
the reading is lost. -/
def State.loopFeedback (s : State) (k i fld : Nat) (acc : AccRead) (sc : Int → Int × Bool) : Option (Int × Bool) :=
  match k with
  | 1 => (accMean acc (s.accOf i)).map sc
  | 2 => some (sc (s.rd (R.DIOP_PIp_FREQ_FREQ i)))
  | 3 => some (sc (s.rdI (R.AXIS_ENCe_POS_COUNT i)))
  | 4 => if (s.sbAt i).src = 32 ∨ s.isStale i then none else some (sc (sbField (s.sbAt i).val.toNat fld))
  | _ => some (s.rdI (R.LOOP_nOUT_OUT i), false)

/-- The feedback in use: primary, or the alternate under a switch reaction. -/
def State.loopY (s : State) (l : LoopS) : Option (Int × Bool) :=
  if l.alt then
    s.loopFeedback (l.f 14 1) (l.f 24 4) (l.f 43 1) l.accA (fun x => scaleSat x (l.fI 52 4) (l.f 42 1) (l.fI 56 4))
  else
    s.loopFeedback (l.f 13 1) (l.f 20 4) (l.f 31 1) l.accF (fun x => scaleSat x (l.fI 44 4) (l.f 41 1) (l.fI 48 4))

/-- Accumulator readings kept for the next evaluation. -/
def State.keepAcc (s : State) (l : LoopS) : LoopS :=
  { l with
    accS := if l.f 12 1 = 1 then s.accOf (l.f 16 4) else l.accS,
    accF := if l.f 13 1 = 1 then s.accOf (l.f 20 4) else l.accF,
    accA := if l.f 14 1 = 1 then s.accOf (l.f 24 4) else l.accA }

/-! ## Tracking (R295 to R299) -/

/-- The loop's safe value (R297). -/
def LoopS.safe (l : LoopS) : Int := if l.f 60 1 = 3 then l.msafe else l.fI 96 4

def State.loopForced (s : State) (l : LoopS) : Bool :=
  (l.f 15 1 == 2 && s.forcedAx (l.f 28 2)) || (l.f 15 1 == 3 && s.forcedDo (l.f 28 2))

/-- The setpoint in use of an inner loop that does not take it from outer loop n (R297, R299): one that is stopped, in manual,
tracking or under a reaction. -/
def State.innerTrack (s : State) (n : Nat) : Option Int :=
  match s.loops.loops.find? (fun e => s.loopSealed e.1 && e.2.f 12 1 == 4 && e.2.f 16 4 == n) with
  | none => none
  | some e =>
    if !s.loopRun e.1 || (s.rdBit (R.LOOP_nSTAT_TRACK e.1) || s.rd (R.LOOP_nSTAT_REACT e.1) != 0) then
      some (s.rdI (R.LOOP_nRSP_RSP e.1))
    else none

/-- The destination's present value (R295): the slot's, the axis's target, the duty last delivered, or with no
destination the loop's own last output. -/
def State.destValue (s : State) (n : Nat) (l : LoopS) : Int :=
  match l.f 15 1 with
  | 1 => NMap.get 0 s.loops.slots (l.f 28 2)
  | 2 => s.sourceTarget (l.f 28 2) (s.axis (l.f 28 2))
  | 3 => (l.duty.map (fun d => (d : Int))).getD (s.rdI (R.LOOP_nOUT_OUT n))
  | _ => s.rdI (R.LOOP_nOUT_OUT n)

/-- What the loop tracks in this evaluation, if anything: forcing, a reaction, the return on RACK, manual, the outer
loop's case and the first evaluation, in this order. -/
def State.loopTrack (s : State) (n : Nat) (l : LoopS) (back : Bool) : Option Int :=
  let react := s.rd (R.LOOP_nSTAT_REACT n)
  if s.loopForced l || react == 3 then some l.safe
  else if react == 1 then some l.outprev
  else if back then some (s.rdI (R.LOOP_nOUT_OUT n))
  else if !s.rdBit (R.LOOP_nMODE_MODE n) then some (s.rdI (R.LOOP_nMANOUT_MANOUT n))
  else match s.innerTrack n with
  | some t => some t
  | none => if l.first then some (s.destValue n l) else none

/-! ## Supervision (R305 to R307) -/

/-- Step 3 (R285): the model fields are read from the active generation, but not while supervision is suspended. -/
def State.readModel (s : State) (l : LoopS) : LoopS :=
  let k := l.f 60 1
  let due := (k == 2 || k == 3) && l.mround != s.tickN / 1000 + 1
  if due && !s.rdBit R.FUSA_QM_STAT_CORRUPT && decide (l.f 62 2 < s.activeCount (if k = 2 then 3 else 7)) then
    let base := s.rd (R.FUSA_QMg_BASE_BASE (s.rd R.FUSA_QM_STAT_ACTG))
    if k = 2 then
      let r := leNat (memBytes s.mem (base + sectOff 3 + 128 * l.f 62 2) 128)
      { l with mtau := recField r 54 2, mdead := recField r 56 2, mgain := recSigned r 58 2, mround := s.tickN / 1000 + 1 }
    else
      let r := leNat (memBytes s.mem (base + sectOff 7 + 64 * l.f 62 2) 64)
      { l with mtau := recField r 26 2, mdead := recField r 28 2, mgain := 4096, msafe := recField r 24 2,
               mround := s.tickN / 1000 + 1 }
  else l

/-- TAU, DEAD and GAIN in use. -/
def LoopS.modelArgs (l : LoopS) : Nat × Nat × Int :=
  if l.f 60 1 = 1 then (l.f 80 2, l.f 82 2, l.fI 84 2) else (l.mtau, l.mdead, l.mgain)

/-- Is supervision suspended (R306)? -/
def State.suspended (s : State) (l : LoopS) : Bool :=
  let k := l.f 60 1
  ((k == 2 || k == 3) && s.rdBit R.FUSA_QM_STAT_CORRUPT)
    || (k == 4 && ((s.sbAt (l.f 64 4)).src == 32 || s.isStale (l.f 64 4)))

/-- The model's step: the loop, the residual, ŷ in loop units, and DCLAMP (R305). -/
def State.loopModel (s : State) (l : LoopS) (y u : Int) : LoopS × Int × Bool :=
  match l.f 60 1 with
  | 0 => ({ l with minit := false, hist := (u :: l.hist).take 256 }, 0, false)
  | 4 =>
    let w := (s.sbAt (l.f 64 4)).val.toNat
    let yh := if s.suspended l then (if l.minit then y * 2 ^ 32 else l.yhat)
      else scaleVal (sbField w (l.f 68 1)) (l.fI 72 4) (l.f 69 1) (l.fI 76 4) * 2 ^ 32
    let l := { l with minit := false, yhat := yh, hist := (u :: l.hist).take 256 }
    (l, clampBits 32 (roundShift (y * 2 ^ 32 - yh) 32), false)
  | _ =>
    let a := l.modelArgs
    let d := modelDelay (l.f 4 4) a.2.1
    let clampd := decide (255 < d)
    if l.minit then (l.modelInit y u a.2.2, 0, clampd)
    else
      let r := l.modelStep y u a.2.2 (modelAlpha (l.f 4 4) a.1) (min 255 d)
      (r.1, r.2, clampd)

/-- Show a flag and raise an event to the supervisor on its change from 0 to 1. -/
def State.riseSup (s : State) (f : FieldRef) (b : Bool) (e : Nat) : State :=
  let was := s.rdBit f
  let s := s.wrBit f b
  if b && !was then s.raiseSup e else s

/-- A reaction is taken (R307): the bit, the count and event 96. -/
def State.takeReaction (s : State) (n : Nat) : State :=
  let f : FieldRef := ⟨R.LOOP_RPENDw (n / 32), n % 32, n % 32⟩
  ((s.setBit f).inc (R.LOOP_nCNT_REACTS n)).raise 96 (s.dutiesOf 4) true

/-! ## Start, stop and evaluation (R285, R288) -/

/-- The loop starts running: writes collected for its group are discarded (R8), and its supervision starts afresh. -/
def State.loopStart (s : State) (n : Nat) : State :=
  let s := (s.discardColl 5 .loopDesc (some n)).discardColl 5 .loopOut none
  let l := s.loopS n
  let s := s.setLoop n { l with first := true, minit := true, alt := false, outside := 0, rack := none }
  let z (s : State) (f : FieldRef) : State := s.wr f 0
  let s := [R.LOOP_nSTAT_REACT n, R.LOOP_nSTAT_CASLOST n, R.LOOP_nSTAT_SUSP n, R.LOOP_nSTAT_DCLAMP n,
    R.LOOP_nSTAT_FBLOSS n, R.LOOP_nSTAT_OUTB n].foldl z s
  (s.wr (R.LOOP_nSTAT_RUN n) 1).showLoops

/-- An injector on the loop ends early (R303). -/
def State.injAbort (s : State) (n : Nat) : State :=
  match s.injOf n with
  | some k => if s.injActive k then s.injEnd k 3 else s
  | none => s

/-- The loop stops running; an injector on it ends (R288, R303), and it takes no setpoint from an outer loop (R299). -/
def State.loopStop (s : State) (n : Nat) : State :=
  (((s.wr (R.LOOP_nSTAT_RUN n) 0).wr (R.LOOP_nSTAT_CASC n) 0).injAbort n).showLoops

/-- Latest node values of an evaluation (R304). -/
def lawNodes (l : LoopS) (w : Law) (r y inj res : Int) : NMap Int :=
  let m := NMap.set 0 (NMap.set 0 (NMap.set 0 (NMap.set 0 l.nodes 0 r) 1 y) 2 w.e) 3 w.v
  let m := NMap.set 0 (NMap.set 0 (NMap.set 0 (NMap.set 0 m 4 w.out) 5 (w.l.i / 2 ^ 32)) 6 (w.l.d / 2 ^ 32)) 7 inj
  let m := NMap.set 0 (NMap.set 0 m 8 res) 9 (clampBits 32 (roundShift l.yhat 32))
  (w.z.zip [10, 11, 12, 13]).foldl (fun m e => NMap.set 0 m e.2 e.1) m

/-- Step 7: the output goes to its destination (R285, R293). -/
def State.deliver (s : State) (n : Nat) (l : LoopS) (out : Int) : State :=
  let s := s.wrI (R.LOOP_nOUT_OUT n) out
  match l.f 15 1 with
  | 1 => s.setLoops { s.loops with slots := NMap.set 0 s.loops.slots (l.f 28 2) out }
  | 2 => s.setAxis (l.f 28 2) { (s.axis (l.f 28 2)) with loopTgt := some out }
  | 3 => s.setLoop n { (s.loopS n) with duty := some (clampInt 0 10000 out).toNat }
  | _ => s

/-- What supervision leaves: the law, the residual, whether the loop tracks, and the state. -/
structure Supervised where
  w : Law
  res : Int
  track : Bool
  s : State

/-- Reactions 1 and 3 track in the evaluation that takes them (R307, R298): the law is taken again, from the loop before
it, and the history holds the output sent. -/
def reactLaw (before l : LoopS) (r y t : Int) : Law :=
  let w := trackLaw before r y t
  { w with l := { w.l with
      outside := 0, yhat := l.yhat, bias := l.bias, hist := t :: l.hist.drop 1, minit := false, mtau := l.mtau,
      mdead := l.mdead, mgain := l.mgain, msafe := l.msafe, mround := l.mround } }

/-- The reaction REACT of loop n takes effect (R307). -/
def State.react (s : State) (n : Nat) (before l : LoopS) (hold : Int) (r y : Int) (x : Supervised) : Supervised :=
  let k := l.f 61 1
  let s := s.takeReaction n
  match k with
  | 0 => { x with s := s }
  | 2 => { x with w := { x.w with l := { l with outside := 0, alt := true, minit := true } },
                  s := (s.wr (R.LOOP_nSTAT_REACT n) 2).injAbort n }
  | _ => { x with w := reactLaw before l r y (if k = 1 then hold else l.safe), track := true,
                  s := (s.wr (R.LOOP_nSTAT_REACT n) k).injAbort n }

/-- The outside count of an evaluation that is neither suspended nor under a reaction (R307). -/
def State.countOutside (s : State) (n : Nat) (before l : LoopS) (hold : Int) (r y : Int) (lost : Bool) (x : Supervised) :
    Supervised :=
  let out := lost || (l.f 60 1 != 0 && decide (l.fI 88 4 < (x.res.natAbs : Int)))
  let count := if out then l.outside + 1 else 0
  let l := { l with outside := count }
  let x := { x with w := { x.w with l := l } }
  if out && count == l.f 86 2 then s.react n before l hold r y x else { x with s := s }

/-- Step 6 for a computed law w: supervision, and the reaction it may take in this evaluation (R306, R307). The loop before
the law serves a reaction that tracks. -/
def State.supervise (s : State) (n : Nat) (before : LoopS) (w : Law) (r y : Int) (lost track : Bool) : Supervised :=
  let hold := s.rdI (R.LOOP_nOUT_OUT n)
  let susp := s.suspended w.l
  let m := s.loopModel w.l y w.out
  let s := s.wrI (R.LOOP_nRES_RES n) m.2.1
  let s := (s.riseSup (R.LOOP_nSTAT_SUSP n) susp 107).riseSup (R.LOOP_nSTAT_DCLAMP n) m.2.2 107
  let x : Supervised := ⟨{ w with l := m.1 }, m.2.1, track, s⟩
  if susp || s.rd (R.LOOP_nSTAT_REACT n) != 0 then x else s.countOutside n before m.1 hold r y lost x

/-- Steps 3 to 7 of a running loop's evaluation. -/
def State.loopCycle (s : State) (n : Nat) : State :=
  let l := s.readModel (s.loopS n)
  let acked := l.rack.any fun t => decide (t < s.now)
  let back := acked && s.rd (R.LOOP_nSTAT_REACT n) != 0
  let s := if back then s.wr (R.LOOP_nSTAT_REACT n) 0 else s
  let l := if back then { l with alt := false, outside := 0, minit := true } else l
  let l := if acked then { l with rack := none } else l
  let fb := s.loopY l
  let y := (fb.map Prod.fst).getD (s.rdI (R.LOOP_nYUSE_YUSE n))
  let lost := fb.isNone
  let s := (if lost then s.inc (R.LOOP_nCNT_FBL n) else s).riseSup (R.LOOP_nSTAT_FBLOSS n) lost 97
  let inner := l.f 12 1 == 4
  let outerRuns := s.loopRun (l.f 16 4)
  let s := s.riseSup (R.LOOP_nSTAT_CASLOST n) (inner && !outerRuns) 106
  let inj := s.injOf n
  let s := match inj with
    | some k => s.injBegin k
    | none => s
  let smp : Int := (inj.map s.injSample).getD 0
  let atOut := (inj.map fun k => s.rdBit (R.LOOP_INJk_CFG_POINT k)).getD false
  let sp := s.loopSetpoint n l
  let r0 := sp.1
  let l := { l with sp := r0 }
  let r := if atOut then r0 else clampBits 32 (r0 + smp)
  let track := s.loopTrack n l back
  let l := s.keepAcc l
  let w := match track with
    | some t => trackLaw l r y t
    | none => computeLaw l r y (if atOut then smp else 0)
  let w := { w with sat := w.sat || sp.2 || fb.any Prod.snd || (!atOut && r != r0 + smp) }
  let forced := s.loopForced l
  let s := (s.wrI (R.LOOP_nYUSE_YUSE n) y).wrI (R.LOOP_nRSP_RSP n) r
  let v := s.supervise n l w r y lost track.isSome
  let w := v.w
  let s := v.s
  let lf := { w.l with first := false, nodes := lawNodes w.l w r y smp v.res }
  let s := s.setLoop n lf
  let s := (s.wrBit (R.LOOP_nSTAT_TRACK n) v.track).wrBit (R.LOOP_nSTAT_SAT n) w.sat
  let s := (s.wrBit (R.LOOP_nSTAT_FORCED n) forced).wrBit (R.LOOP_nSTAT_OUTB n) (lf.outside != 0)
  let s := s.wrBit (R.LOOP_nSTAT_CASC n) (inner && outerRuns && !v.track && s.rd (R.LOOP_nSTAT_REACT n) == 0)
  let s := s.when w.sat fun s => s.inc (R.LOOP_nCNT_SATS n)
  let s := match inj with
    | some k => if s.injActive k then s.injNext k else s
    | none => s
  let s := s.wrBit (R.LOOP_nSTAT_INJ n) ((s.injOf n).any s.injActive)
  (s.deliver n lf w.out).capRecord n

/-- LOOP_EVALUATION (R283 to R285, R288): loop n's cycles of the present tick. A loop that is not running takes its oldest
console entry of an earlier tick; a loop that is not due does nothing. A loop does not start while its seal is in progress
(DEDUCED: notes/assumptions/27). -/
def State.loopEvaluate (s : State) (n : Nat) : State :=
  let l := s.loopS n
  let due := s.loopSealed n && s.tickN % l.f 4 4 == l.f 8 4
  let en := s.rdBit (R.LOOP_nCTRL_EN n)
  let edge := s.tickN * Config.cyclesPerTick
  if s.loopRun n then
    if !due then s
    else if !en then (s.loopStop n).applyConsole n edge
    else ((s.applyConsole n s.now).swapLoop n).loopCycle n
  else if due && en && !s.rdBit (R.LOOP_nSEAL_BUSY n) then
    (((s.loopStart n).applyConsole n s.now).swapLoop n).loopCycle n
  else s.applyConsole n edge

/-- LOOP_EVALUATION: what is written in its first cycle acts at the following one (R6, R10). -/
def execLoopEvaluation (n : Fin 512) (s : State) : Out :=
  .next ((s.atCycle (1600 + 100 * n.val)).sampled (State.loopEvaluate · n.val))

end Sys2Proof.Machine
end

