-- ==== Sys2Proof/Machine/Cyclic.lean ====
section
/-! DEFINITION. Restarts of partitions and the release of the outputs (12_cyclic_programs, R332 to R335, R353; 21, R565). -/

namespace Sys2Proof.Machine

def State.setRst (s : State) (r : RstS) : State := { s with rst := r }

/-- Is a core of the cyclic or safety partition stopped (R353, R565)? -/
def State.keyCoreStopped (s : State) : Bool :=
  (List.range 16).any fun p => (s.core p).stopped && (s.partOf p == 1 || s.partOf p == 8)

/-- Physical cores sealed to a partition. -/
def State.coresOf (s : State) (part : Nat) : List Nat := (List.range 16).filter (fun p => s.partOf p == part)

/-- The first failing code of a request to restart (R353). -/
def State.restartCode (s : State) (part kind : Nat) : Nat :=
  if !s.ticking then 7
  else if part ≠ 1 ∧ part ≠ 8 then 1
  else if (s.coresOf part).isEmpty then 2
  else if s.rdBit R.DIOP_RSTAT_PEND then 3
  else if 2 ≤ kind then 6 else 0

/-- The next round boundary tick after the present one. -/
def State.nextRound (s : State) : Nat := 1000 * (s.tickN / 1000 + 1)

/-- A write of GO to `DIOP_RST` (R333). -/
def State.restartReq (s : State) (part kind : Nat) : State :=
  let code := s.restartCode part kind
  let s := s.wr R.DIOP_RSTAT_ERR code
  if code ≠ 0 then s
  else (s.wr R.DIOP_RSTAT_PEND 1).setRst { s.rst with req := some (part, kind, s.nextRound) }

/-- A write of REL to `DIOP_RST` (R335, R353). -/
def State.releaseReq (s : State) : State :=
  if !s.ticking then s.wr R.DIOP_RSTAT_ERR 7
  else if s.rdBit R.DIOP_RSTAT_PEND || s.keyCoreStopped then s.wr R.DIOP_RSTAT_ERR 5
  else (s.wr R.DIOP_RSTAT_ERR 0).setRst { s.rst with rel := some (s.tickN + 1) }

/-- A write to `DIOP_RST` (R353). -/
def State.rstWrite (s : State) (v : Word) : State :=
  let go := v.toNat.testBit 8
  let rel := v.toNat.testBit 9
  if !go && !rel then s
  else if go && rel then s.wr R.DIOP_RSTAT_ERR (if s.ticking then 4 else 7)
  else if go then s.restartReq (bitsOf v.toNat 3 0) (bitsOf v.toNat 5 4)
  else s.releaseReq

/-- RESTART_REQUEST (R333). -/
def execRestartRequest (p : Port) (part : BitVec 4) (kind : BitVec 2) (s : State) : Out :=
  .next (s.byCore p fun s =>
    (s.hold R.DIOP_RST (part.toNat + 16 * kind.toNat)).restartReq part.toNat kind.toNat)

/-- OUTPUT_RELEASE_REQUEST (R335). -/
def execOutputReleaseRequest (p : Port) (s : State) : Out := .next (s.byCore p State.releaseReq)

/-- A job of a restarted partition: its active instance is ended and its skipped releases are dropped (R334). -/
def State.endJob (s : State) (n : Nat) : State :=
  (s.setJob n { s.job n with active := false, taken := false, missed := false, skips := [], due := false, lastOk := false }).settleJob n

/-- Clear a duty's event pending and overflow bits. -/
def State.clearEvents (s : State) (d : Nat) : State :=
  (List.range 8).foldl (fun s w => (s.setWord (R.EVNT_nPENDw d w) 0).setWord (R.EVNT_nOVFw d w) 0) s

/-- A core's state after a restart (R334): local data zero with valid ECC, registers as at kick-off, instruction memory and
the per-core latches of the blocks kept. -/
def CoreS.restarted (c : CoreS) : CoreS :=
  { CoreS.off with imem := c.imem, imemErr := c.imemErr, tickh := c.tickh, efrac := c.efrac, cwra := c.cwra,
                   blda := c.blda, wcode := c.wcode, wp0 := c.wp0, wp1 := c.wp1 }

/-- One core's part of a restart (R334 items 3 and 4). -/
def State.restartCore (s : State) (p : Nat) : State :=
  let s := s.swapFields [R.CORE_nVEC_RESTART p, R.CORE_nVEC_TRAPV p]
  let s := s.setCore p (s.core p).restarted
  s.clearEvents (s.dutyOf p)

/-- A restart at cycle 0 of tick Q (R334). -/
def State.restart (s : State) (part kind : Nat) : State :=
  let ps := s.coresOf part
  let s := (List.range 128).foldl (fun s n => if ps.contains (s.rd (R.TIER_JOBn_CFG_CORE n)) then s.endJob n else s) s
  let s := s.wr R.DIOP_RSTAT_WHOLD 1
  let s := s.moveStopped ps
  let ps := (s.coresOf part).filter s.inService
  let s := ps.foldl State.restartCore s
  let s := s.setRst { s.rst with
    req := none, holds := NMap.set 0 s.rst.holds part (s.tickN + 1000), starts := s.rst.starts ++ ps }
  (((s.wr R.DIOP_RSTAT_LKIND (2 + kind)).inc R.DIOP_RSTAT_RCNT).wr R.DIOP_RSTAT_PEND 0).showForced

/-- PARTITION_RESTART (R334): at cycle 0 of tick Q. -/
def execPartitionRestart (s : State) : Out :=
  .next (match s.rst.req with
    | none => s
    | some r => if r.2.2 ≤ s.tickN then (s.atCycle 0).restart r.1 r.2.1 else s)

/-- A core starts at a byte address with no current job and the state it holds (R55, R334). -/
def State.startCore (s : State) (p addr : Nat) : State :=
  let s := s.setCore p { (s.core p) with on := true, stopped := false, trapMode := false, wait := .none, job := none,
                                         pc := addr }
  s.when (s.partOf p == 8) fun s => { s with safe := { s.safe with started := true } }

/-- Restarted cores start at cycle 1,536 of tick Q at their restart address (R334 item 7); in SYNC every core is off (R478). -/
def State.startRestarted (s : State) : State :=
  let ps := if s.inSync then [] else s.rst.starts
  ps.foldl (fun s p => s.startCore p (4 * s.rd (R.CORE_nVEC_RESTART p))) (s.setRst { s.rst with starts := [] })

/-- May the outputs be released (R565)? -/
def State.mayRelease (s : State) : Bool :=
  (s.rd R.PAIR_STAT_STRAP == 0 || (s.isMember && (s.rd R.PAIR_STAT_STATE == 1 || s.rd R.PAIR_STAT_STATE == 2)))
    && !s.keyCoreStopped

/-- OUTPUT_RELEASE (R335, R565): at cycle 1,536, from the tick after the write on, once the conditions hold. -/
def execOutputRelease (s : State) : Out :=
  .next (match s.rst.rel with
    | none => s
    | some t =>
      if t ≤ s.tickN && s.mayRelease then
        (((s.atCycle Config.changeover).setRst { s.rst with rel := none }).wr R.DIOP_RSTAT_WHOLD 0).showForced
      else s)

end Sys2Proof.Machine
end

