-- ==== Sys2Proof/Machine/Can.lean ====
section
/-! DEFINITION. The substation bus: objects, channels, transmission, errors and stations (13_substation_bus, R354 to R374;
03, R111). -/

namespace Sys2Proof.Machine

def State.setCan (s : State) (c : CanS) : State := { s with can := c }
def State.canCh (s : State) (c : Nat) : CanCh := NMap.get CanCh.init s.can.ch c
def State.setCh (s : State) (c : Nat) (x : CanCh) : State :=
  s.setCan { s.can with ch := NMap.set CanCh.init s.can.ch c x }
def State.objS (s : State) (j : Nat) : ObjS := NMap.get ObjS.init s.can.obj j
def State.setObj (s : State) (j : Nat) (o : ObjS) : State :=
  s.setCan { s.can with obj := NMap.set ObjS.init s.can.obj j o }

/-! ## Events and status (R373, R374) -/

/-- Raise the channel event of channel c with a cause of `CANB_cEVC` (R373). -/
def State.canEvent (s : State) (c cause : Nat) : State :=
  (s.setBit ⟨R.CANB_cEVC c, cause, cause⟩).raise (120 + 2 * c) (s.dutiesOf 6) true

/-- Raise the station event of channel c (R373). -/
def State.stationEvent (s : State) (c cause : Nat) : State :=
  (s.setBit ⟨R.CANB_cEVC c, cause, cause⟩).raise (121 + 2 * c) (s.dutiesOf 1 ++ s.dutiesOf 6) false

def State.canRun (s : State) (c : Nat) : Bool := s.rdBit (R.CANB_cSTAT_RUN c)
def State.canState (s : State) (c : Nat) : Nat := s.rd (R.CANB_cSTAT_STATE c)

/-- Error active or error passive, by the counters (R365). -/
def CanCh.errState (x : CanCh) : Nat := if 127 < x.tec || 127 < x.rcv then 1 else 0

/-- The count is stopped by HOLD (R366). -/
def State.canHeld (s : State) (c : Nat) : Bool :=
  s.canState c == 2 && s.rdBit (R.CANB_cCTRL_HOLD c) && !(s.canCh c).recov

/-- Show the counters and HELD of channel c (R374). -/
def State.showCan (s : State) (c : Nat) : State :=
  let x := s.canCh c
  let s := (s.wr (R.CANB_cSTAT_TEC c) (min 255 x.tec)).wr (R.CANB_cSTAT_REC c) x.rcv
  (s.wrBit (R.CANB_cSTAT_RP c) (decide (127 < x.rcv))).wrBit (R.CANB_cSTAT_HELD c) (s.canHeld c)

/-! ## Object RAM (R356, R359) -/

def objRam : Nat := 0x30000000
def objAddr (j : Nat) : Nat := objRam + 80 * j

def State.objMark (s : State) (w : Nat) : ErrMark := NMap.get .clean s.can.err w
def State.setObjMark (s : State) (w : Nat) (m : ErrMark) : State :=
  s.setCan { s.can with err := NMap.set .clean s.can.err w m }

/-- The sealed channel whose range holds an object, if any. -/
def State.objOwner (s : State) (j : Nat) : Option Nat :=
  (List.range 16).find? fun c => s.rdBit (R.CANB_cSEAL_SEALED c) && decide (s.rd (R.CANB_cOBJ_OBASE c) ≤ j)
    && decide (j < s.rd (R.CANB_cOBJ_OBASE c) + s.rd (R.CANB_cOBJ_ONUM c))

/-- An uncorrectable object word is met (R359): counted and recorded, and the channel event raised. -/
def State.objBad (s : State) (off : Nat) : State :=
  let s := (s.inc R.CANB_ECC_UNC).wr R.CANB_ECCADDR_OFF (off / 8 * 8)
  match s.objOwner (off / 80) with
  | some c => s.canEvent c 6
  | none => s.raiseSup 120

/-- The ECC side of an access to the object word at offset off; the Bool tells that the word is uncorrectable. -/
def State.objCheck (s : State) (off : Nat) : State × Bool :=
  match s.objMark (off / 8) with
  | .clean => (s, false)
  | .single => ((s.setObjMark (off / 8) .clean).inc R.CANB_ECC_COR, false)
  | _ => (s.objBad off, true)

/-- The ten words of object j; the Bool tells that one is uncorrectable. -/
def State.objWords (s : State) (j : Nat) : List Nat × Bool × State :=
  (List.range 10).foldl (fun (a : List Nat × Bool × State) i =>
    let r := a.2.2.objCheck (80 * j + 8 * i)
    (a.1 ++ [memRead r.1.mem (objAddr j + 8 * i) 8], a.2.1 || r.2, r.1)) ([], false, s)

/-- The object as it was before its channel changed it in the present cycle (R358, R362). -/
def State.objOld (s : State) (j : Nat) : Option ObjOld := s.can.old.find? (fun x => x.t == s.now && x.obj == j)

/-- Keep an object as it is before its channel changes it; `clr` is what the change makes of it after an OBJSEQ that clears ND and
LOST in the same cycle (R111, R358, R362). -/
def State.keepObj (s : State) (j : Nat) (clr : ObjS) (lostc : Option Nat) : State :=
  if (s.objOld j).isSome then s
  else
    let ws := (List.range 10).map fun i => memRead s.mem (objAddr j + 8 * i) 8
    s.setCan { s.can with old := ⟨s.now, j, ws, s.objS j, clr, lostc⟩ :: s.can.old.filter (fun x => x.t == s.now) }

/-- The object memory as a core load of the present cycle sees it (R358). -/
def State.objMem (s : State) (j : Nat) : NMap Byte :=
  match s.objOld j with
  | some x => memPutWords s.mem (objAddr j) x.words
  | none => s.mem

/-- Store words into object j from word k on, with fresh ECC. -/
def State.objPut (s : State) (j : Nat) : Nat → List Nat → State
  | _, [] => s
  | k, v :: r =>
    (State.objPut ({ (s.setObjMark (10 * j + k) .clean) with mem := memWrite s.mem (objAddr j + 8 * k) 8 v }) j (k + 1) r)

/-! ## The object table (R357) -/

def entKey (e : Nat) : Nat := bitsOf e 29 0
def entTx (e : Nat) : Bool := e.testBit 30
def entHoldo (e : Nat) : Bool := e.testBit 31
def entObj (e : Nat) : Nat := bitsOf e 44 32
/-- The station of an entry. -/
def entStn (e : Nat) : Option Nat := if e.testBit 51 then none else some (bitsOf e 50 45)

/-- The order of R361: base identifiers first, a standard frame before an extended one of the same base. -/
def arbKey (e : Nat) : Nat :=
  if e.testBit 29 then bitsOf e 28 18 * 2 ^ 19 + 2 ^ 18 + bitsOf e 17 0 else bitsOf e 10 0 * 2 ^ 19

/-- Data bytes of a frame (R356). -/
def canLen (fdf : Bool) (dlc : Nat) : Nat :=
  if dlc ≤ 8 then dlc else if fdf then [12, 16, 20, 24, 32, 48, 64].getD (dlc - 9) 64 else 8

/-- Word 0 of a stored frame (R356). -/
def frameWord0 (f : CanFrame) : Nat :=
  (if f.ide then f.id.toNat else f.id.toNat % 2 ^ 11) + 2 ^ 29 * b2n f.ide + 2 ^ 30 * b2n f.fdf + 2 ^ 31 * b2n f.brs
    + 2 ^ 32 * f.dlc.toNat + 2 ^ 36 * b2n f.esi

/-- The nine data words of a stored frame. -/
def frameWords (f : CanFrame) : List Nat :=
  let d := f.data.toNat % 2 ^ (8 * canLen f.fdf f.dlc.toNat)
  (frameWord0 f) :: (List.range 8).map (fun i => bitsOf d (64 * i + 63) (64 * i))

/-! ## Reception (R358) -/

/-- Stations that watch object j on channel c (R367). -/
def State.watchers (s : State) (c j : Nat) : List Nat :=
  (List.range 64).filter fun k => s.rdBit (R.CANB_cSTAs_USED c k) && s.rd (R.CANB_cSTAs_WOBJ c k) == j

/-- A store into a watch object (R367). -/
def State.noteStore (s : State) (c j : Nat) : State :=
  (s.watchers c j).foldl (fun s k =>
    let x := s.canCh c
    let l := NMap.get 0 x.last k
    s.setCh c { x with
      last := NMap.set 0 x.last k (s.tickN + 1), older := if l = s.tickN + 1 then x.older else NMap.set 0 x.older k l,
      seen := if NMap.get 0 x.seen k = 0 then NMap.set 0 x.seen k (s.tickN + 1) else x.seen }) s

/-- A frame is stored into its object: 80 bytes, SEQ, ND and LOST in one cycle (R358). -/
def State.canStore (s : State) (c j : Nat) (ws : List Nat) : State :=
  let s := s.noteItem 6 c
  let o := s.objS j
  let s := s.keepObj j ⟨(o.seq + 1) % 256, true, false⟩ (if o.nd then some c else none)
  let s := s.objPut j 0 (ws ++ [carryWord ws])
  let s := s.setObj j { seq := (o.seq + 1) % 256, nd := true, lost := o.lost || o.nd }
  let s := (s.inc (R.CANB_cCNTA_RXOK c)).when o.nd (fun s => s.inc (R.CANB_cCNTB_LOSTC c))
  s.noteStore c j

/-- A channel changes between error active and error passive (R365). -/
def State.canErrState (s : State) (c : Nat) : State :=
  let n := (s.canCh c).errState
  let s := s.noteItem 6 c
  let s := if s.canState c == 0 && n == 1 then (s.wr (R.CANB_cSTAT_STATE c) 1).canEvent c 2
    else if s.canState c == 1 && n == 0 then s.wr (R.CANB_cSTAT_STATE c) 0 else s
  s.showCan c

/-- Set REC (ISO 11898-1, PRESUMED, notes/assumptions/30): a receive error adds 1 or 8, a frame received takes 1 off, or
brings a count above 127 back to a value from 119 to 127. -/
def State.recUp (s : State) (c d : Nat) : State :=
  let x := s.canCh c
  (s.setCh c { x with rcv := min 255 (x.rcv + d) }).canErrState c

def State.recDown (s : State) (c : Nat) : State :=
  let x := s.canCh c
  if 127 < x.rcv then
    let d := s.draw
    (d.2.setCh c { x with rcv := 119 + Config.freeNat 61 d.1 % 9 }).canErrState c
  else (s.setCh c { x with rcv := x.rcv - 1 }).canErrState c

/-- Does the channel take frames from its wire? -/
def State.canOn (s : State) (c : Nat) : Bool := s.canRun c && decide (s.canState c < 2)

/-- A correct frame is stored into its object, or counted (R354, R357). -/
def State.frameTaken (s : State) (c : Nat) (f : CanFrame) : State :=
  if f.remote then s.inc (R.CANB_cCNTC_REMOTE c)
  else
    let key := (frameWord0 f) % 2 ^ 30
    match (s.canCh c).table.find? (fun e => entKey e == key && !entTx e) with
    | some e => s.canStore c (entObj e) (frameWords f)
    | none => s.inc (R.CANB_cCNTB_NOMATCH c)

/-- Is the frame the one that a channel whose EN was sampled 0 was receiving (R372)? -/
def State.lastFrame (s : State) (c : Nat) (f : CanFrame) : Bool := !s.canRun c && decide (f.begun + 1 < (s.canCh c).offAt)

/-- A frame from the wire (R354, R358). -/
def State.canReceive (s : State) (c : Nat) (f : CanFrame) : State :=
  let fdBad := f.fdf && !s.rdBit (R.CANB_cCFG_FD c)
  if s.canOn c then
    if fdBad then (s.inc (R.CANB_cCNTB_OTHERR c)).recUp c 1
    else if !f.crcOk then (s.inc (R.CANB_cCNTB_CRCERR c)).recUp c 1
    else (s.recDown c).frameTaken c f
  else if s.lastFrame c f then
    let s := s.setCh c { s.canCh c with offAt := 0 }
    if fdBad then s.inc (R.CANB_cCNTB_OTHERR c)
    else if !f.crcOk then s.inc (R.CANB_cCNTB_CRCERR c)
    else s.frameTaken c f
  else s

/-- CAN_FRAME_RECEIVE (R358, R354, R357): a frame from the wire is stored, counted, or dropped. On a standby it is a local input:
the snapshot's stores take effect (R371). -/
def execCanFrameReceive (c : Fin 16) (f : CanFrame) (s : State) : Out :=
  .next (s.input s.cycle (.canFrame c f) (State.canReceive · c.val f))

/-! ## Transmission (R360 to R364) -/

/-- A request ends without transmission: LOST (R362). -/
def State.endLost (s : State) (c : Nat) (r : CanReq) : State :=
  let s := s.noteItem 6 c
  let x := s.canCh c
  let o := s.objS r.obj
  let s := (s.keepObj r.obj { o with nd := false, lost := true } none).setCh c
    { x with reqs := x.reqs.filter (fun q => q.obj != r.obj) }
  s.setObj r.obj { o with lost := true }

/-- A request is cancelled (R363): at once, or with the end of its attempt. -/
def State.cancelReq (s : State) (c : Nat) (r : CanReq) : State :=
  match r.attempt with
  | none => s.endLost c r
  | some _ =>
    let x := s.canCh c
    s.setCh c { x with reqs := x.reqs.map (fun q => if q.obj = r.obj then { q with cancel := true } else q) }

/-- A station's bit in the dropout bitmaps. -/
def dropBit (c k : Nat) : FieldRef := ⟨if k < 32 then R.CANB_cDROPL c else R.CANB_cDROPH c, k % 32, k % 32⟩

/-- Is the entry's station in dropout substitution with DROP = 1 (R364)? -/
def State.entDropped (s : State) (c e : Nat) : Bool :=
  match entStn e with
  | none => false
  | some k => s.rdBit (R.CANB_cSTAs_USED c k) && s.rdBit (R.CANB_cSTAs_CMODE c k) && s.rdBit (dropBit c k)

/-- Word 0 of a transmit object agrees with its entry and the channel (R360, code 4). -/
def State.word0Ok (s : State) (c e w0 : Nat) : Bool :=
  w0 % 2 ^ 30 == entKey e && !(w0.testBit 30 && !s.rdBit (R.CANB_cCFG_FD c)) && !(w0.testBit 31 && !w0.testBit 30)

/-- The first failing code of a transmit request (R360). -/
def State.txCode (s : State) (c j : Nat) (sealed : Bool) (ws : List Nat) : Nat :=
  let x := s.canCh c
  if !s.canRun c || s.rdBit (R.CANB_cCFG_LOM c) then 1
  else match x.table.find? (fun e => entObj e == j && entTx e) with
    | none => 2
    | some e =>
      if x.reqs.any (fun r => r.obj == j) then 3
      else if !s.word0Ok c e (ws.getD 0 0) then 4
      else if s.entDropped c e then 5
      else if !sealed && verifyCheck (ws.take 9) (ws.getD 9 0) ≠ 0 then 6 else 0

/-- A write to `CANB_cTXREQ` (R360). -/
def State.canTxReq (s : State) (c j : Nat) (sealed : Bool) : State :=
  let r := s.objWords j
  let ws := r.1
  let s := r.2.2
  let s := if sealed then s.objPut j 9 [carryWord (ws.take 9)] else s
  let code := s.txCode c j sealed ws
  if code ≠ 0 then
    let s := ((s.wr (R.CANB_cSTAT_TXERR c) code).inc (R.CANB_cCNTC_TXREF c)).canEvent c 3
    s.when (code == 6) fun s => s.carriedFail (80 * j + 72) 7 false
  else
    let x := s.canCh c
    let e := (x.table.find? (fun e => entObj e == j && entTx e)).getD 0
    let s := s.setObj j { s.objS j with nd := false, lost := false }
    let s := s.outRec 6 c (leBytes 2 j ++ wordsBytes (ws.take 9))
    s.setCh c { x with reqs := x.reqs ++ [⟨j, e, s.now, false, none⟩] }

/-- CAN_TX_REQUEST (R360). -/
def execCanTxRequest (p : Port) (c : Fin 16) (obj : BitVec 13) (sealed : Bool) (s : State) : Out :=
  .next (s.byCore p fun s =>
    (s.hold (R.CANB_cTXREQ c.val) (obj.toNat + 8192 * b2n sealed)).canTxReq c.val obj.toNat sealed)

/-- A write to `CANB_cTXCAN` (R363). -/
def State.canTxCan (s : State) (c j : Nat) : State :=
  match (s.canCh c).reqs.find? (fun r => r.obj == j) with
  | none => s
  | some r => s.cancelReq c r

/-- CAN_TX_CANCEL (R363). -/
def execCanTxCancel (p : Port) (c : Fin 16) (obj : BitVec 13) (s : State) : Out :=
  .next (s.byCore p fun s => (s.hold (R.CANB_cTXCAN c.val) obj.toNat).canTxCan c.val obj.toNat)

/-- May the channel start a frame: it runs, is not in bus-off, monitors nothing only, and its module is not gated
(R361, R371, R479)? -/
def State.canMaySend (s : State) (c : Nat) : Bool :=
  s.canOn c && !s.rdBit (R.CANB_cCFG_LOM c) && !s.gated && !(s.canCh c).stopping

/-- The request that the channel enters at an opportunity: the lowest arbitration field of those that need not wait. -/
def State.nextReq (s : State) (c : Nat) : Option CanReq :=
  ((s.canCh c).reqs.filter (fun r => !(entHoldo r.ent && s.whold))).foldl (fun best r =>
    match best with
    | none => some r
    | some b => if arbKey r.ent < arbKey b.ent then some r else some b) none

/-- An object that fails its egress check starts no attempt (R361). -/
def State.egressFail (s : State) (c : Nat) (r : CanReq) : State :=
  (((s.endLost c r).inc (R.CANB_cCNTC_EXITF c)).canEvent c 4).carriedFail (80 * r.obj + 72) 7 true

/-- CAN_TX_ATTEMPT (R361): an opportunity to start a frame. -/
def execCanTxAttempt (c : Fin 16) (cyc : Nat) (s : State) : Out :=
  .next (
    let n := c.val
    let s := s.atCycle cyc
    if !s.canMaySend n || (s.canCh n).reqs.any (fun r => r.attempt.isSome) then s
    else match s.nextReq n with
      | none => s
      | some r =>
        let w := s.objWords r.obj
        let s := w.2.2
        if w.2.1 || verifyCheck (w.1.take 9) (w.1.getD 9 0) ≠ 0 then s.egressFail n r
        else
          let x := s.canCh n
          s.setCh n { x with reqs := x.reqs.map (fun q => if q.obj = r.obj then { q with attempt := some s.now } else q) })

/-- Clocks of a nominal bit (R355). -/
def State.nominalBit (s : State) (c : Nat) : Nat :=
  (s.rd (R.CANB_cNBT_NBRP c) + 1) * (3 + s.rd (R.CANB_cNBT_NTSEG1 c) + s.rd (R.CANB_cNBT_NTSEG2 c))

/-- A frame has been sent (R362, R366): ND, SEQ, TXOK, and after a recovery `CANB_cBOREC` and the event. -/
def State.txSent (s : State) (c : Nat) (r : CanReq) (start : Nat) : State :=
  let s := s.noteItem 6 c
  let x := s.canCh c
  let due := x.firstDue
  let s := s.setCh c { x with reqs := x.reqs.filter (fun q => q.obj != r.obj), tec := x.tec - 1, firstDue := false }
  let o := s.objS r.obj
  let s := s.keepObj r.obj ⟨(o.seq + 1) % 256, true, false⟩ none
  let s := s.setObj r.obj { o with seq := (o.seq + 1) % 256, nd := true }
  let s := (s.inc (R.CANB_cCNTA_TXOK c)).canErrState c
  let s := s.monitor 4 c ((start - r.acc) * 2 / (15 * s.nominalBit c) : Nat)
  if due then
    let wait := min 65535 (s.tickN - r.acc / Config.cyclesPerTick)
    ((s.wr (R.CANB_cBOREC_WAIT c) wait).wr (R.CANB_cBOREC_OBJ c) r.obj).canEvent c 1
  else s

/-- Every pending request of the channel ends with LOST (R372). -/
def State.endAll (s : State) (c : Nat) : State := (s.canCh c).reqs.foldl (fun s r => s.endLost c r) s

/-- The channel goes off (R372). -/
def State.canOff (s : State) (c : Nat) : State :=
  let at0 := if s.canOn c then s.now + 1 else 0
  let s := s.endAll c
  let s := s.setCh c { s.canCh c with offAt := at0, tec := 0, rcv := 0, integrated := false, stopping := false, count := 0, recov := false,
                                      firstDue := false }
  ((s.wr (R.CANB_cSTAT_RUN c) 0).wr (R.CANB_cSTAT_STATE c) 3).showCan c

/-- The attempt in progress ends without success: the request goes on waiting, or ends if it was cancelled (R361, R363). -/
def State.txFailed (s : State) (c : Nat) (r : CanReq) : State :=
  let x := s.canCh c
  if r.cancel then s.endLost c r
  else s.setCh c { x with reqs := x.reqs.map (fun q => if q.obj = r.obj then { q with attempt := none } else q) }

/-- A channel starts running: bus integration begins, and every used station has DROP = 1 (R367, R372). -/
def State.canStart (s : State) (c : Nat) : State :=
  let s := s.discardColl 7 .can (some c)
  let s := s.setCh c { s.canCh c with tec := 0, rcv := 0, integrated := false, stopping := false, runAt := s.tickN,
                                      last := [], older := [], seen := [], offAt := 0, reqs := [] }
  let s := (List.range 64).foldl (fun s k => s.wrBit (dropBit c k) (s.rdBit (R.CANB_cSTAs_USED c k))) s
  ((s.wr (R.CANB_cSTAT_RUN c) 1).wr (R.CANB_cSTAT_STATE c) 3).showCan c

/-- EN is sampled (R372). -/
def State.canSample (s : State) (c : Nat) : State :=
  let en := s.rdBit (R.CANB_cCTRL_EN c)
  if en && !s.canRun c && s.rdBit (R.CANB_cSEAL_SEALED c) then s.canStart c
  else if !en && s.canRun c then
    if (s.canCh c).reqs.any (fun r => r.attempt.isSome) then s.setCh c { s.canCh c with stopping := true }
    else s.canOff c
  else s.showCan c

/-- The frame in progress has ended: a channel whose EN was sampled 0 in it goes off, and starts again where EN is 1 by then
(R372). -/
def State.settleStop (s : State) (c : Nat) : State := s.when (s.canCh c).stopping fun s => (s.canOff c).canSample c

/-- CAN_TX_COMPLETE (R361 to R363): the attempt in progress succeeds, or ends in lost arbitration. -/
def execCanTxComplete (c : Fin 16) (ok : Bool) (s : State) : Out :=
  .next (
    let n := c.val
    match (s.canCh n).reqs.find? (fun r => r.attempt.isSome) with
    | none => s
    | some r =>
      let s := if ok then s.txSent n r (r.attempt.getD 0) else s.txFailed n r
      s.settleStop n)

/-! ## Errors and bus-off (R365, R366) -/

/-- Entry into bus-off (R365, R366): requests stay pending. -/
def State.busOff (s : State) (c : Nat) : State :=
  let s := s.noteItem 6 c
  let x := s.canCh c
  let s := s.setCh c { x with boffAt := s.tickN, count := 0, recov := false }
  (((s.wr (R.CANB_cSTAT_STATE c) 2).inc (R.CANB_cCNTC_BOFF c)).showCan c).canEvent c 0

/-- What a transmitter's error adds to TEC: 8, but for the two exceptions of ISO 11898-1 (PRESUMED, notes/assumptions/30). -/
def CanCh.tecStep (x : CanCh) (e : CanErr) : Nat :=
  if e.kind == .stuffArb || (e.kind == .ackPassive && x.errState == 1) then 0 else 8

/-- An error on the wire of a running channel (R365): a transmitter's ends the attempt and adds to TEC, a receiver's adds 1 or 8 to
REC (ISO 11898-1, PRESUMED, notes/assumptions/30). -/
def State.canError (s : State) (c : Nat) (e : CanErr) : State :=
  if !s.canOn c then s
  else
    let s := s.inc (if e.kind == .crc then R.CANB_cCNTB_CRCERR c else R.CANB_cCNTB_OTHERR c)
    if e.tx then
      let s := match (s.canCh c).reqs.find? (fun r => r.attempt.isSome) with
        | some r => s.txFailed c r
        | none => s
      let x := s.canCh c
      let tec := x.tec + x.tecStep e
      let s := s.setCh c { x with tec := tec }
      let s := if 255 < tec then s.busOff c else s.canErrState c
      s.settleStop c
    else s.recUp c (if e.heavy then 8 else 1)

/-- CAN_BUS_ERROR (R365); on a standby it is a local input (R371). -/
def execCanBusError (c : Fin 16) (e : CanErr) (s : State) : Out :=
  .next (s.input s.cycle (.canError c e) (State.canError · c.val e))

/-- A channel recovers from bus-off (R366). -/
def State.canRecovered (s : State) (c : Nat) : State :=
  let s := s.noteItem 6 c
  let x := s.canCh c
  let s := s.setCh c { x with tec := 0, rcv := 0, count := 0, recov := false, firstDue := true }
  ((s.wr (R.CANB_cSTAT_STATE c) 0).wr (R.CANB_cBODUR_DUR c) (s.tickN - x.boffAt)).showCan c

/-- The active's error counters and bus state take their place on a standby (R371), with what a change of state brings (R365,
R366). -/
def State.canTake (s : State) (c tec rcv st : Nat) : State :=
  let o := s.canState c
  if !s.canRun c then s
  else
    let s := s.setCh c { s.canCh c with tec := tec, rcv := rcv, integrated := (s.canCh c).integrated || st != 3 }
    if st = o then s.showCan c
    else if st = 2 then s.busOff c
    else if o = 2 then s.canRecovered c
    else ((s.wr (R.CANB_cSTAT_STATE c) st).when (st == 1) (State.canEvent · c 2)).showCan c

/-- BUS_OFF_RECOVERY (R366): n more occurrences of 11 recessive bits; at 128 the channel recovers. On a standby in step the
snapshot's bus states take its place (R371). -/
def execBusOffRecovery (c : Fin 16) (n : Nat) (s : State) : Out :=
  .next (
    let k := c.val
    if s.canState k != 2 || s.canHeld k || s.onSnapshot then s
    else
      let x := s.canCh k
      if x.count + n < 128 then s.setCh k { x with count := x.count + n } else s.canRecovered k)

/-- A write of RECOV (R366). -/
def State.canRecovWrite (s : State) (c : Nat) : State :=
  if s.canState c = 2 then (s.setCh c { s.canCh c with recov := true }).showCan c else s

/-- CAN_RECOV (R366). -/
def execCanRecov (p : Port) (c : Fin 16) (s : State) : Out := .next (s.byCore p fun s => s.canRecovWrite c.val)

/-! ## Running (R367, R372) -/

/-- BUS_INTEGRATION_COMPLETE (R372): the channel becomes error active, on a standby in step through the snapshot (R371). -/
def execBusIntegrationComplete (c : Fin 16) (s : State) : Out :=
  .next (
    let n := c.val
    if s.canRun n && s.canState n == 3 && !(s.canCh n).integrated && !s.onSnapshot then
      (((s.noteItem 6 n).setCh n { s.canCh n with integrated := true }).wr (R.CANB_cSTAT_STATE n) 0).showCan n
    else s)

/-- Has the station been silent for its timeout (R367)? A store in cycle 0 of the present tick does not count yet. -/
def State.stationSilent (s : State) (c k : Nat) : Bool :=
  let x := s.canCh c
  let l := if NMap.get 0 x.last k = s.tickN + 1 then NMap.get 0 x.older k else NMap.get 0 x.last k
  decide ((if l = 0 then x.runAt else l - 1) + 10 * s.rd (R.CANB_cSTAs_TMO c k) ≤ s.tickN)

/-- A station enters dropout (R367, R364). -/
def State.dropOut (s : State) (c k : Nat) : State :=
  let x := s.canCh c
  let s := (s.setCh c { x with
    seen := NMap.set 0 x.seen k (if NMap.get 0 x.last k = s.tickN + 1 then s.tickN + 1 else 0) }).setBit (dropBit c k)
  let f : FieldRef := ⟨R.CANB_cDCNTw c (k / 4), 8 * (k % 4) + 7, 8 * (k % 4)⟩
  let s := s.incWrap f
  let s := if s.rdBit (R.CANB_cSTAs_CMODE c k) then
      ((s.canCh c).reqs.filter (fun r => entStn r.ent == some k)).foldl (fun s r => s.cancelReq c r) s
    else s
  s.stationEvent c 8

/-- STATION_DROPOUT (R367): the evaluation of station k at cycle 0. -/
def execStationDropout (c : Fin 16) (k : Fin 64) (s : State) : Out :=
  .next (if s.cycle == 0 && s.canRun c.val && s.rdBit (R.CANB_cSTAs_USED c.val k.val) && !s.rdBit (dropBit c.val k.val)
      && s.stationSilent c.val k.val then (s.atCycle 0).dropOut c.val k.val else s)

/-- Has a store into the station's watch object been made since it entered dropout, before the present tick (R367)? -/
def State.stationBack (s : State) (c k : Nat) : Bool :=
  let t := NMap.get 0 (s.canCh c).seen k
  t != 0 && decide (t ≤ s.tickN)

/-- STATION_RETURN (R367): the evaluation of station k at cycle 0. -/
def execStationReturn (c : Fin 16) (k : Fin 64) (s : State) : Out :=
  .next (if s.cycle == 0 && s.canRun c.val && s.rdBit (R.CANB_cSTAs_USED c.val k.val) && s.rdBit (dropBit c.val k.val)
      && s.stationBack c.val k.val then
      ((s.atCycle 0).wr (dropBit c.val k.val) 0).stationEvent c.val 9
    else s)

/-! ## Sealing a channel (R372) -/

/-- A write of GO (R372). -/
def State.canSeal (s : State) (c p : Nat) : State :=
  if s.canRun c then s.canEvent c 7
  else if s.rdBit (R.CANB_cSEAL_BUSY c) then s
  else ((s.latchColl 7 .can (some c)).wr (R.CANB_cSEAL_BUSY c) 1).setCh c { s.canCh c with sealBy := some (s.dutyOf p) }

/-- CAN_CHANNEL_SEAL (R372). -/
def execCanChannelSeal (p : Port) (c : Fin 16) (s : State) : Out := .next (s.byCore p fun s => s.canSeal c.val p.core.val)

/-- Timing in range (code 1): SJW at most SEG2, nominal 125 kb/s to 1 Mb/s, data at most 5 Mb/s and not below it. -/
def State.canTimingOk (s : State) (c : Nat) : Bool :=
  let nb := (s.rdColl (R.CANB_cNBT_NBRP c) + 1) * (3 + s.rdColl (R.CANB_cNBT_NTSEG1 c) + s.rdColl (R.CANB_cNBT_NTSEG2 c))
  let db := (s.rdColl (R.CANB_cDBT_DBRP c) + 1) * (3 + s.rdColl (R.CANB_cDBT_DTSEG1 c) + s.rdColl (R.CANB_cDBT_DTSEG2 c))
  decide (s.rdColl (R.CANB_cNBT_NSJW c) ≤ s.rdColl (R.CANB_cNBT_NTSEG2 c))
    && decide (s.rdColl (R.CANB_cDBT_DSJW c) ≤ s.rdColl (R.CANB_cDBT_DTSEG2 c))
    && decide (80 ≤ nb) && decide (nb ≤ 640) && decide (16 ≤ db) && decide (db ≤ nb)

/-- The object range is free (code 2). -/
def State.canRangeOk (s : State) (c : Nat) : Bool :=
  let b := s.rdColl (R.CANB_cOBJ_OBASE c)
  let n := s.rdColl (R.CANB_cOBJ_ONUM c)
  decide (b + n ≤ 8192) && !((List.range 16).any fun d => d != c && s.rdBit (R.CANB_cSEAL_SEALED d)
    && regionsOverlap b n (s.rd (R.CANB_cOBJ_OBASE d)) (s.rd (R.CANB_cOBJ_ONUM d)))

/-- One table entry in itself (code 6). -/
def State.entOk (s : State) (c e : Nat) : Bool :=
  let b := s.rdColl (R.CANB_cOBJ_OBASE c)
  bitsOf e 63 52 == 0 && decide (b ≤ entObj e) && decide (entObj e < b + s.rdColl (R.CANB_cOBJ_ONUM c))
    && (e.testBit 29 || decide (bitsOf e 28 0 ≤ 0x7FF))

/-- No object and no identifier twice (code 7). -/
def tableDistinct : List Nat → Bool
  | [] => true
  | e :: r => !(r.any fun x => entObj x == entObj e || entKey x == entKey e) && tableDistinct r

/-- The station registers agree with the table (code 8). -/
def State.stationsOk (s : State) (c : Nat) (t : List Nat) : Bool :=
  (List.range 64).all fun k =>
    if s.rdColl (R.CANB_cSTAs_USED c k) ≠ 0 then
      t.any (fun e => !entTx e && entObj e == s.rdColl (R.CANB_cSTAs_WOBJ c k))
        && s.rdColl (R.CANB_cSTAs_TMO c k) != 0
    else !(t.any fun e => entStn e == some k)

/-- The checks of a channel seal in the order of R372: the code, the table and the state after its reads. -/
def State.canCheck (s : State) (c : Nat) : Nat × List Nat × State :=
  let a := s.rdColl (R.CANB_cFTAB_ADDR c)
  let n := s.rdColl (R.CANB_cCFG_FNUM c)
  if !s.canTimingOk c then (1, [], s)
  else if !s.canRangeOk c then (2, [], s)
  else if a % 8 != 0 || decide (commonsBytes < a + 8 * (n + 1)) || decide (s.rdColl (R.CANB_cOBJ_ONUM c) < n) then
    (3, [], s)
  else
    let w := s.readWords busPort a n
    let cw := w.2.2.commonsRead busPort (a + 8 * n) 8
    let t := w.1
    let code := if verifyCheck t cw.1 ≠ 0 then 4
      else if w.2.1 || cw.2.1 then 5
      else if !(t.all (fun e => s.entOk c e)) then 6
      else if !tableDistinct t then 7
      else if !s.stationsOk c t then 8 else 0
    (code, t, cw.2.2)

/-- The end of channel c's seal, on the writes collected when GO was written (R7, R372). -/
def State.canSealEnd (s : State) (c : Nat) : State :=
  let r := s.canCheck c
  let a := s.rdColl (R.CANB_cFTAB_ADDR c) + 8 * s.rdColl (R.CANB_cCFG_FNUM c)
  let s := (r.2.2.wr (R.CANB_cSEAL_BUSY c) 0).wr (R.CANB_cSEAL_ERR c) r.1
  let s := if r.1 = 0 then
      ((s.applyColl 7 .can (some c)).wr (R.CANB_cSEAL_SEALED c) 1).setCh c { s.canCh c with table := r.2.1, sealBy := none }
    else
      let s := s.discardColl 7 .can (some c)
      (s.setCh c { s.canCh c with sealBy := none }).when (r.1 == 4) fun s => s.carriedFail a 7 false
  s.canEvent c 5

/-- CAN_CHANNEL_SEAL_COMPLETE (R372): the seal ends and raises the channel event with SEALD. -/
def execCanChannelSealComplete (c : Fin 16) (s : State) : Out :=
  .next (if !s.rdBit (R.CANB_cSEAL_BUSY c.val) then s
    else (s.onSealing (State.canSealEnd · c.val)).canSample c.val)

/-! ## OBJSEQ (R111) -/

/-- ND and LOST of an object are cleared; a store or a completion of the same cycle is applied after it (R111, R362). -/
def State.objClear (s : State) (j : Nat) : State :=
  match s.objOld j with
  | none => s.setObj j { s.objS j with nd := false, lost := false }
  | some x =>
    let s := match x.lostc with
      | some c => s.unInc (R.CANB_cCNTB_LOSTC c)
      | none => s
    s.setObj j x.clr

/-- OBJSEQ (R111): SEQ, ND and LOST of object ra to rd; sel14[0] = 1 clears ND and LOST after the read. -/
def execObjseq (i : Issue) (rd ra : BitVec 6) (sel : BitVec 14) (s : State) : Out :=
  .next (s.runBlock i (decide (sel.toNat < 2)) fun s c =>
    let j := c.regN ra.toNat
    if 8192 ≤ j then s.enterTrap i.core.val 8 (some ((objRam + 80 * j) % 2 ^ 32))
    else
      let o := match s.objOld j with
        | some x => x.was
        | none => s.objS j
      let v := o.seq + 256 * b2n o.nd + 512 * b2n o.lost
      let s := if sel = 1 then s.objClear j else s
      s.finish i.core.val (c.setRegN rd.toNat v) 3)

end Sys2Proof.Machine
end

