-- ==== Sys2Proof/Machine/Ether.lean ====
section
/-! DEFINITION. Ethernet: ports, PRP, receive and transmit rings and the interface seal (17_network_time_and_clock, R446 to
R454, R456, R457, R472, R473). -/

namespace Sys2Proof.Machine

def State.setEth (s : State) (i : Nat) (e : EthS) : State := { s with eth := NMap.set EthS.init s.eth i e }

/-- The interface of a port, and the ports of an interface (R446). -/
def ifOf (p : Nat) : Nat := if p = 4 then 2 else p % 2
def portsOf (i : Nat) : List Nat := if i = 2 then [4] else [i, i + 2]
def isLanB (p : Nat) : Bool := p == 2 || p == 3

def State.ethRuns (s : State) (i : Nat) : Bool := (s.ethOf i).isSealed && s.rdBit (R.ETHN_iCTRL_EN i)
def State.linkUp (s : State) (p : Nat) : Bool := s.rdBit (R.ETHN_pSTAT_LINK p)
def State.commDuties (s : State) : List Nat := s.dutiesOf 6

/-- The table of timestamp corrections is by speed: 0 is 1000 Mb/s, 1 is 100, 2 is 10 (R456). -/
def State.corIndex (s : State) (p : Nat) : Nat := 2 - min 2 (s.rd (R.ETHN_pSTAT_SPD p))

/-- Corrected timestamps of the present cycle at a port, in 2^-32 ns (R456). -/
def State.rxStamp (s : State) (p : Nat) : Nat :=
  (s.counter + 2 ^ 64 - s.rd (R.PTPT_CORs_RXC (s.corIndex p)) * 2 ^ 32) % 2 ^ 64
def State.txStamp (s : State) (p : Nat) : Nat :=
  (s.counter + s.rd (R.PTPT_CORs_TXC (s.corIndex p)) * 2 ^ 32) % 2 ^ 64

/-- NS and the high 16 bits of the fraction, as descriptors hold them. -/
def stampWord (t : Nat) : Nat := t / 2 ^ 32 % 2 ^ 32 + 2 ^ 32 * (t / 2 ^ 16 % 2 ^ 16)

/-! ## Frames -/

def etherType (bs : List Nat) : Nat := beAt bs 12 2
/-- Bytes before the LSDU: 14, or 18 with a VLAN tag. -/
def lsduAt (bs : List Nat) : Nat := if etherType bs = 0x8100 then 18 else 14

/-- A valid redundancy control trailer (R448, IEC 62439-3): sequence number and LanId. -/
def rctOf (bs : List Nat) : Option (Nat × Nat) :=
  let n := bs.length
  let lan := beAt bs (n - 4) 2 / 4096
  if decide (lsduAt bs + 6 ≤ n) && beAt bs (n - 2) 2 == 0x88FB && (lan == 10 || lan == 11)
      && beAt bs (n - 4) 2 % 4096 == (n - lsduAt bs) % 4096 then
    some (beAt bs (n - 6) 2, lan)
  else none

/-- Destination addresses always passed (R449). -/
def alwaysPassed (dest : Nat) : Bool :=
  dest == 0x011B19000000 || dest == 0x0180C200000E || dest / 256 == 0x01154E0001

/-- Is a frame for this port (R449)? -/
def State.passes (s : State) (p dest : Nat) : Bool :=
  dest == s.macOf p || dest == 0xFFFFFFFFFFFF || alwaysPassed dest
    || (s.rdBit (R.ETHN_iCTRL_ALLMC (ifOf p)) && (dest / 2 ^ 40) % 2 == 1)

/-! ## The receive ring (R450, R451) -/

/-- A received frame is dropped: counted in a field of the interface, with event 201. -/
def State.dropFrame (s : State) (f : FieldRef) : State := (s.inc f).raise 201 s.commDuties false

/-- Bytes as words, the last filled with zeros. -/
def padWords (bs : List Nat) : List Nat :=
  (List.range ((bs.length + 7) / 8)).map (fun k => leAt bs (8 * k) 8)

/-- Deliver a frame into the next receive descriptor of an interface. -/
def State.ringDeliver (s : State) (i p : Nat) (bs : List Nat) (rct : Bool) (ts : Nat) : State :=
  let k := s.rd (R.ETHN_iSTAT_RXNEXT i)
  let d := s.rd (R.ETHN_iRXR_BASE i) + 16 * k
  let w0 := s.commonsRead busPort d 8
  let s := w0.2.2
  let buf := bitsOf w0.1 22 0
  let ws := padWords bs
  if w0.2.1 || !w0.1.testBit 23 || buf % 8 != 0 || decide (commonsBytes < buf + 8 * ws.length + 8) then
    s.dropFrame (R.ETHN_iCNT_NOBUF i)
  else
    let s := (s.noteItem 7 i).writeWords busPort buf (ws ++ [carryWord ws])
    let s := s.commonsWrite busPort (d + 8) 8 (stampWord ts)
    let s := s.commonsWrite busPort d 8 (buf + 2 ^ 24 * bs.length + 2 ^ 35 * p + 2 ^ 38 * b2n rct)
    let s := s.wr (R.ETHN_iSTAT_RXNEXT i) (if s.rd (R.ETHN_iRXN_N i) ≤ k + 1 then 0 else k + 1)
    s.raise (192 + i) s.commDuties false

/-! ## PRP (R448) -/

/-- Live entries of a duplicate table. -/
def State.liveDup (s : State) (e : EthS) : List DupEnt :=
  e.dup.filter (fun d => decide (s.tickN < d.tick + 10 * s.rd R.ETHN_PRP_EFT))

/-- Enter a frame in the table; when it is full the oldest entry goes. -/
def State.enterDup (s : State) (i src seq : Nat) : State :=
  let e := s.ethOf i
  let live := s.liveDup e
  let live := if 2048 ≤ live.length then live.drop 1 else live
  s.setEth i { e with dup := live ++ [⟨src, seq, s.tickN⟩] }

/-- A LAN has delivered a frame with a valid RCT. -/
def State.lanAlive (s : State) (i : Nat) (b : Bool) : State :=
  let e := s.ethOf i
  if b then (s.setEth i { e with lanB := s.tickN + 1 }).wr (R.ETHN_iPRPST_LANBS i) 0
  else (s.setEth i { e with lanA := s.tickN + 1 }).wr (R.ETHN_iPRPST_LANAS i) 0

/-- A frame with a valid RCT on a port of a pair. -/
def State.prpReceive (s : State) (i p : Nat) (bs : List Nat) (ts seq lan : Nat) : State :=
  let s := s.lanAlive i (isLanB p)
  let src := beAt bs 6 6
  let body := bs.take (bs.length - 6)
  let dup := (s.liveDup (s.ethOf i)).any (fun d => d.src == src && d.seq == seq)
  if (lan == 11) != isLanB p then
    ((s.inc (R.ETHN_iPRPST_WRONGLAN i)).enterDup i src seq).ringDeliver i p body true ts
  else if dup then s.inc (R.ETHN_iPRPST_DUPD i)
  else (s.enterDup i src seq).ringDeliver i p body true ts

/-- The frame length that counts against 1,522 bytes: without a trailer. -/
def giant (bs : List Nat) (rct : Bool) : Bool := decide (1522 < bs.length - (if rct then 6 else 0))

/-- A frame that has passed its FCS (R446, R448, R449). -/
def State.frameIn (s : State) (p : Nat) (fifo : Bool) (bs : List Nat) (ts : Nat) : State :=
  let i := ifOf p
  let rct := if p = 4 then none else rctOf bs
  if etherType bs = 0x8808 then s.inc (R.ETHN_pCNT_PAUSE p)
  else if etherType bs = 0x88B5 then s
  else if !s.passes p (beAt bs 0 6) then s
  else if giant bs rct.isSome then s.dropFrame (R.ETHN_iCNT_GIANT i)
  else if fifo then s.dropFrame (R.ETHN_iCNT_FIFO i)
  else match rct with
    | some r => s.prpReceive i p bs ts r.1 r.2
    | none => s.ringDeliver i p bs false ts

/-- ETHERNET_FRAME_RECEIVE (R449, R451): a frame without its FCS ends on port p; its start-of-frame delimiter ended in cycle
`cyc`; `fifo` tells that it overflowed the receive memory. Bextis frames go to the SAFE block (BEXTIS_COPY_RECEIVE). A standby
keeps its own receptions (R454); the fields live in the cycles before the frame's are used (R6). -/
def execEthernetFrameReceive (p : Fin 5) (cyc : Nat) (fcsOk fifo : Bool) (frame : List Byte) (s : State) : Out :=
  .next ((s.atCycle cyc).sampled fun s =>
    if !s.ethRuns (ifOf p.val) || !s.linkUp p.val then s
    else if !fcsOk then s.inc (R.ETHN_pCNT_FCSERR p.val)
    else s.input cyc (.frame p fifo (s.rxStamp p.val) frame) fun s =>
      s.frameIn p.val fifo (frame.map BitVec.toNat) (s.rxStamp p.val))

/-! ## The transmit ring (R452, R453, R457) -/

/-- A write of KICK (R452). -/
def State.kick (s : State) (i : Nat) : State :=
  if s.ethRuns i then s.setEth i { s.ethOf i with busy := true } else s

/-- TRANSMIT_KICK (R452). -/
def execTransmitKick (p : Port) (i : Fin 3) (s : State) : Out := .next (s.byCore p fun s => s.kick i.val)

/-- A transmit descriptor's word 0 (R452). -/
structure TxDesc where
  buf : Nat
  len : Nat
  pmask : Nat
  prp : Bool
  onestep : Bool
  tsreq : Bool
  udp : Bool
  off : Nat
deriving DecidableEq, Repr

def txDesc (w : Nat) : TxDesc :=
  { buf := bitsOf w 22 0, len := bitsOf w 34 24, pmask := bitsOf w 39 35, prp := w.testBit 40, onestep := w.testBit 41,
    tsreq := w.testBit 42, udp := w.testBit 43, off := bitsOf w 51 44 }

/-- The mask of an interface's ports. -/
def portMask (i : Nat) : Nat := (portsOf i).foldl (fun m p => m + 2 ^ p) 0

/-- Ports named by a mask. -/
def maskPorts (m : Nat) : List Nat := (List.range 5).filter m.testBit

/-- Status 4 (R453). -/
def TxDesc.bad (d : TxDesc) (i : Nat) : Bool :=
  !within 14 1522 d.len || d.pmask == 0 || (d.pmask &&& portMask i) != d.pmask
    || (d.prp && (i == 2 || d.pmask != portMask i))
    || (d.onestep && (i == 2 || decide (1 < (maskPorts d.pmask).length) || decide (d.len < d.off + 34)))
    || d.buf % 8 != 0 || decide (commonsBytes < d.buf + 8 * ((d.len + 7) / 8) + 8)

/-- The sum of 16-bit big-endian words, an odd last byte filled with a zero. -/
def sum16 : List Nat → Nat
  | [] => 0
  | [a] => 256 * a
  | a :: b :: r => 256 * a + b + sum16 r

/-- The one's complement checksum of a sum. -/
def checksum16 (n : Nat) : Nat :=
  let f (x : Nat) : Nat := x % 65536 + x / 65536
  let v := 0xFFFF - f (f n)
  if v = 0 then 0xFFFF else v

/-- The UDP checksum of an IPv4 frame is recomputed (R457). -/
def fixUdp (bs : List Nat) : List Nat :=
  let ip := lsduAt bs
  let u := ip + 4 * (beAt bs ip 1 % 16)
  let n := beAt bs (u + 4) 2
  let z := bs.take (u + 6) ++ [0, 0] ++ bs.drop (u + 8)
  let c := checksum16 (sum16 (slice bs (ip + 12) 8) + 17 + n + sum16 (slice z u n))
  bs.take (u + 6) ++ beBytes 2 c ++ bs.drop (u + 8)

/-- One-step insertion (R457): Δ in 2^-16 ns is added to the correction field at PTPOFF + 8. -/
def oneStep (d : TxDesc) (delta : Nat) (bs : List Nat) : List Nat :=
  let a := d.off + 8
  let c := (beAt bs a 8 + delta / 2 ^ 16) % 2 ^ 64
  let bs := bs.take a ++ beBytes 8 c ++ bs.drop (a + 8)
  if d.udp then fixUdp bs else bs

/-- Frames below 60 bytes are padded with zeros. -/
def padFrame (bs : List Nat) : List Nat := bs ++ List.replicate (60 - bs.length) 0

/-- A copy with its trailer for a port (R453). -/
def withRct (bs : List Nat) (seq p : Nat) : List Nat :=
  bs ++ beBytes 2 seq ++ beBytes 2 (4096 * (if isLanB p then 11 else 10) + (bs.length - lsduAt bs + 6) % 4096) ++ [0x88, 0xFB]

/-- Send a frame on ports with link; a gated member transmits nothing (R454). -/
def State.sendOn (s : State) (ps : List Nat) (f : Nat → List Nat) : State :=
  let s := ps.foldl (fun s p => if s.linkUp p then s.outRec 7 (ifOf p) (f p) else s) s
  if s.gated then s else ps.foldl (fun s p => if s.linkUp p then s.send p (f p) else s) s

/-- The outcome of one descriptor: TST, the timestamp to report, and the state after sending. -/
structure TxDone where
  tst : Nat
  ts : Option Nat
  st : State

/-- Send a checked buffer. -/
def State.transmit (s : State) (i : Nat) (d : TxDesc) (w1 : Nat) (bs : List Nat) : TxDone :=
  let up := (maskPorts d.pmask).filter s.linkUp
  let t := s.txStamp (up.headD 0)
  let delta := (t + 2 ^ 64 - w1 % 2 ^ 32 * 2 ^ 32) % 2 ^ 64
  if up.isEmpty then ⟨3, none, s⟩
  else if d.onestep && decide (2 ^ 63 ≤ delta) then ⟨2, none, s⟩
  else
    let ts := if d.tsreq || d.onestep then some t else none
    let bs := padFrame (if d.onestep then oneStep d delta bs else bs)
    if d.prp then
      let e := s.ethOf i
      let s := s.setEth i { e with seq := (e.seq + 1) % 65536 }
      ⟨0, ts, s.sendOn (maskPorts d.pmask) (fun p => withRct bs e.seq p)⟩
    else ⟨0, ts, s.sendOn (maskPorts d.pmask) (fun _ => bs)⟩

/-- Check a descriptor and its buffer, and send (R453). -/
def State.txWork (s : State) (i : Nat) (w0 w1 : Nat) : TxDone :=
  let d := txDesc w0
  if d.bad i then ⟨4, none, s⟩
  else
    let n := (d.len + 7) / 8
    let r := s.readWords busPort d.buf n
    let cw := r.2.2.commonsRead busPort (d.buf + 8 * n) 8
    let code := verifyCheck r.1 cw.1
    if code ≠ 0 then ⟨1, none, cw.2.2.carriedFail (d.buf + 8 * n) 0x0B true⟩
    else if r.2.1 || cw.2.1 then ⟨5, none, cw.2.2⟩
    else cw.2.2.transmit i d w1 ((wordsBytes r.1).take d.len)

/-- Hand a descriptor back: word 1, then word 0 with OWN = 0 (R453). -/
def State.txReturn (s : State) (i a w0 w1 tst : Nat) (ts : Option Nat) : State :=
  let s := s.commonsWrite busPort (a + 8) 8 (ts.elim w1 stampWord)
  let s := s.commonsWrite busPort a 8 (putBits (putBits w0 23 23 0) 54 52 tst)
  let k := s.rd (R.ETHN_iSTAT_TXNEXT i)
  let s := s.wr (R.ETHN_iSTAT_TXNEXT i) (if s.rd (R.ETHN_iTXN_N i) ≤ k + 1 then 0 else k + 1)
  let s := s.raise (195 + i) s.commDuties false
  if tst = 0 then s else s.raise 202 s.commDuties false

/-- TRANSMIT_DESCRIPTOR (R452, R453): the next descriptor, its frame's delimiter leaving in cycle `cyc`; processing ends at
OWN = 0. A poisoned word of the descriptor itself is status 5 (DEDUCED: notes/assumptions/38). -/
def execTransmitDescriptor (i : Fin 3) (cyc : Nat) (s : State) : Out :=
  .next ((s.atCycle cyc).sampled fun s =>
    let e := s.ethOf i.val
    if !e.busy || !s.ethRuns i.val || s.txHeld then s
    else
      let a := s.rd (R.ETHN_iTXR_BASE i.val) + 16 * s.rd (R.ETHN_iSTAT_TXNEXT i.val)
      let w0 := s.commonsRead busPort a 8
      if !w0.1.testBit 23 then w0.2.2.setEth i.val { e with busy := false }
      else
        let w1 := w0.2.2.commonsRead busPort (a + 8) 8
        let d : TxDone := if w0.2.1 || w1.2.1 then ⟨5, none, w1.2.2⟩ else w1.2.2.txWork i.val w0.1 w1.1
        d.st.txReturn i.val a w0.1 w1.1 d.tst d.ts)

/-! ## Supervision, LANs and links (R448, R471) -/

/-- A supervision frame of type DANP (IEC 62439-3). -/
def supervisionFrame (mac seq : Nat) : List Nat :=
  padFrame (beBytes 6 0x01154E000100 ++ beBytes 6 mac ++ [0x88, 0xFB, 0, 1] ++ beBytes 2 seq ++ [20, 6] ++ beBytes 6 mac
    ++ [0, 0])

/-- PRP_SUPERVISION_SEND (R448): every LCI milliseconds on both LANs. -/
def execPrpSupervisionSend (i : Fin 2) (s : State) : Out :=
  .next (
    let e := s.ethOf i.val
    if s.ethRuns i.val && !s.gated && (e.supAt == 0 || decide (e.supAt + 10 * s.rd R.ETHN_PRP_LCI ≤ s.tickN + 1)) then
      let f := supervisionFrame (s.macOf i.val) e.supSeq
      let s := s.setEth i.val { e with supAt := s.tickN + 1, supSeq := (e.supSeq + 1) % 65536, seq := (e.seq + 1) % 65536 }
      s.sendOn (portsOf i.val) (fun p => withRct f e.seq p)
    else s)

/-- Has a LAN been silent for 3 × LCI (R448)? -/
def State.lanSilent (s : State) (last : Nat) : Bool := decide (max 1 last + 30 * s.rd R.ETHN_PRP_LCI ≤ s.tickN + 1)

/-- PRP_LAN_SILENT (R448): one LAN of a pair silent while the other delivers. -/
def execPrpLanSilent (i : Fin 2) (lanB : Bool) (s : State) : Out :=
  .next (
    let e := s.ethOf i.val
    let this := if lanB then e.lanB else e.lanA
    let other := if lanB then e.lanA else e.lanB
    let f := if lanB then R.ETHN_iPRPST_LANBS i.val else R.ETHN_iPRPST_LANAS i.val
    if s.ethRuns i.val && s.lanSilent this && other != 0 && !s.lanSilent other && !s.rdBit f then
      (s.setBit f).raiseSup 200
    else s)

/-- LINK_CHANGE (R446, R471, R472): a port's link goes up or down, with the speed and duplex that auto-negotiation has found, or
without it the forced ones; half duplex is for 10 and 100 Mb/s only. -/
def execLinkChange (p : Fin 5) (up : Bool) (spd : Fin 3) (fdx : Bool) (s : State) : Out :=
  .next (
    let was := s.linkUp p.val
    let an := s.rdBit (R.ETHN_pCFG_AN p.val)
    let speed := if an then spd.val else s.rd (R.ETHN_pCFG_SPEED p.val)
    let full := if an then fdx || spd.val == 2 else s.rdBit (R.ETHN_pCFG_FDX p.val)
    let s := (s.wrBit (R.ETHN_pSTAT_LINK p.val) up).wr (R.ETHN_pSTAT_SPD p.val) speed
    let s := s.wrBit (R.ETHN_pSTAT_DPX p.val) full
    if was = up then s else s.raise 199 s.commDuties true)

/-! ## The seal (R473) -/

/-- First byte and length of a ring as it would be sealed. -/
def State.collRings (s : State) (i : Nat) : List (Nat × Nat) :=
  [(s.rdColl (R.ETHN_iRXR_BASE i), 16 * s.rdColl (R.ETHN_iRXN_N i)),
   (s.rdColl (R.ETHN_iTXR_BASE i), 16 * s.rdColl (R.ETHN_iTXN_N i))]

/-- The rings of sealed interfaces other than i. -/
def State.otherRings (s : State) (i : Nat) : List (Nat × Nat) :=
  ((List.range 3).filter (fun j => j != i && (s.ethOf j).isSealed)).flatMap fun j =>
    [(s.rd (R.ETHN_iRXR_BASE j), 16 * s.rd (R.ETHN_iRXN_N j)), (s.rd (R.ETHN_iTXR_BASE j), 16 * s.rd (R.ETHN_iTXN_N j))]

def ringsMeet (a b : Nat × Nat) : Bool := regionsOverlap a.1 a.2 b.1 b.2

def State.collMac (s : State) (p : Nat) : Nat := s.rdColl (R.ETHN_pMACL_MAC p) + 2 ^ 32 * s.rdColl (R.ETHN_pMACH_MAC p)

/-- SPEED = 3, or half duplex forced at 1000 Mb/s (code 5). -/
def State.badSpeed (s : State) (p : Nat) : Bool :=
  let v := s.rdColl (R.ETHN_pCFG_SPEED p)
  v == 3 || (s.rdColl (R.ETHN_pCFG_FDX p) == 0 && v == 2 && s.rdColl (R.ETHN_pCFG_AN p) == 0)

/-- The first failing code of an interface's seal (R473). -/
def State.ethCode (s : State) (i : Nat) : Nat :=
  let rs := s.collRings i
  let ps := portsOf i
  if rs.any (fun r => r.1 % 16 != 0 || decide (commonsBytes < r.1 + r.2)) then 1
  else if rs.any (fun r => !within 16 65520 r.2) then 2
  else if ps.any (fun p => s.collMac p == 0 || (s.collMac p / 2 ^ 40) % 2 == 1) then 3
  else if i != 2 && s.collMac i != s.collMac (i + 2) then 4
  else if ps.any s.badSpeed then 5
  else if ringsMeet (rs.headD (0, 0)) (rs.getLastD (0, 0)) || rs.any (fun r => (s.otherRings i).any (ringsMeet r)) then 6
  else 0

/-- The collected writes of an interface's group are applied, or dropped. -/
def State.ethColl (s : State) (i : Nat) (apply : Bool) : State :=
  let f (s : State) (g : Grp) (n : Nat) : State := if apply then s.applyColl 11 g (some n) else s.discardColl 11 g (some n)
  (portsOf i).foldl (fun s p => f s .ethnPort p) (f s .ethn i)

/-- A write of GO to `ETHN_iSEAL` (R473). -/
def State.ethSeal (s : State) (i p : Nat) : State :=
  if s.rdBit (R.ETHN_iCTRL_EN i) then s.raiseCore 204 p
  else
    let code := s.ethCode i
    let s := if code = 0 then
        let s := (s.ethColl i true).setEth i { s.ethOf i with isSealed := true, busy := false }
        (s.wr (R.ETHN_iSTAT_RXNEXT i) 0).wr (R.ETHN_iSTAT_TXNEXT i) 0
      else (s.ethColl i false).raiseCore 204 p
    s.wr (R.ETHN_iSEAL_ERR i) code

/-- ETHN_SEAL (R473). -/
def execEthnSeal (p : Port) (i : Fin 3) (s : State) : Out := .next (s.byCore p fun s => s.ethSeal i.val p.core.val)

end Sys2Proof.Machine
end

