-- ==== Sys2Proof/Machine/Clock.lean ====
section
/-! DEFINITION. The network time counter and the backup clock (17_network_time_and_clock, R455 to R470). -/

namespace Sys2Proof.Machine

/-! ## The network time counter (R455, R458, R459) -/

def State.setPtpt (s : State) (x : PtptS) : State := { s with ptpt := x }

/-- Take every wrap the counter has passed (R455, R39): WRAPC advances, event 198 is raised, ANCH moves by 32,704 modulo
100,000; an ANCH that a program writes in that cycle stays as written. -/
def State.takeWrap (s : State) : State :=
  if s.counterRaw < 2 ^ 64 then s
  else
    let s := s.counterSync
    let s := s.setPtpt { s.ptpt with base := s.ptpt.base - 2 ^ 64 }
    let s := s.incWrap R.PTPT_STAT_WRAPC
    let s := s.sampled fun s => s.wr R.TIER_DISC_ANCH_ANCH ((s.rd R.TIER_DISC_ANCH_ANCH + 32704) % 100000)
    s.raise 198 s.commDuties true

/-- NETWORK_TIME_WRAP (R455): in cycle `cyc`, the first that begins at or after the wrap. -/
def execNetworkTimeWrap (cyc : Nat) (s : State) : Out := .next (s.atCycle cyc).takeWrap

/-- NS, the high 24 bits of the fraction and WRAPC (R459). -/
def State.timeWord (s : State) : Nat :=
  let t := s.counter
  t / 2 ^ 32 + 2 ^ 32 * (t / 2 ^ 8 % 2 ^ 24) + 2 ^ 56 * s.rd R.PTPT_STAT_WRAPC

/-- The counter's clock has not yet reached the last step: SPEND. -/
def State.stepPending (s : State) : Bool := decide (s.counterClocks s.cycle < s.ptpt.stepAt)

/-- A write to `PTPT_STEP` (R458): the step falls at the next counter clock; event 203 in every case. -/
def State.stepWrite (s : State) (v : Int) (p : Nat) : State :=
  let fin (code : Nat) (s : State) : State := (s.wr R.PTPT_STAT_STEPERR code).raiseCore 203 p
  if s.stepPending then fin 3 s
  else if v < -1000000000 ∨ 1000000000 < v then fin 1 s
  else
    let s := s.counterSync
    let clk := s.counterClocks s.cycle + 1
    if (s.counterAt clk : Int) + v * 2 ^ 32 < 0 then fin 2 s
    else fin 0 (s.setPtpt { s.ptpt with stepAt := clk, step := v })

/-- PTPT_STEP (R458). -/
def execPtptStep (p : Port) (v : Word) (s : State) : Out := .next (s.byCore p fun s => s.stepWrite v.toInt p.core.val)

/-- A write to `PTPT_FADJ` is clamped to ±500 ppm (R455). -/
def State.fadjWrite (s : State) (v : Int) : State :=
  s.counterSync.wrI R.PTPT_FADJ_FADJ (clampInt (-8589934) 8589934 v)

/-- `PTPT_TEDGE` captures the counter at the tick edge (R459). -/
def State.captureEdge (s : State) : State :=
  let w := s.timeWord
  (s.setWord R.PTPT_TEDGE (BitVec.ofNat 32 w)).setWord (R.PTPT_TEDGE + 4) (BitVec.ofNat 32 (w / 2 ^ 32))

/-- The fraction of a clock that the tick that ends leaves over (R38, R455). -/
def State.edgePhase (s : State) : Nat × Nat :=
  let d := 12 * s.discDen * s.ptpt.phDen
  let n := (s.ptpt.phNum * (12 * s.discDen) + 500000000 * Config.cyclesPerTick * s.ptpt.phDen) % d
  (n / Nat.gcd n d, d / Nat.gcd n d)

/-- The counter at cycle 0 of a tick; TEDGE captures it (R455, R459). -/
def State.counterEdge (s : State) : State :=
  let n := s.counterClocks Config.cyclesPerTick
  let x := s.ptpt
  let ph := s.edgePhase
  ((s.setPtpt { base := s.counterAt n, clk := x.clk - n, stepAt := x.stepAt - n, step := if x.stepAt ≤ n then 0 else x.step,
                phNum := ph.1, phDen := ph.2 }).takeWrap).captureEdge

/-! ### A standby's own counter (R462, R481) -/

/-- A counter value with its WRAPC, in 2^-32 ns, as a marker carries it. -/
def markerValue (m : DWord) : Nat :=
  bitsOf m.toNat 63 56 * 2 ^ 64 + bitsOf m.toNat 31 0 * 2 ^ 32 + bitsOf m.toNat 55 32 * 2 ^ 8

/-- A standby's own counter at a tick edge: within 40 ns of the value in the active's marker, with the active's FADJ; without a
marker it runs on (R481). -/
def State.ownClock (s : State) (m : Option DWord) : State :=
  if !s.isStandby then s
  else match m with
    | some m =>
      let k := s.draw
      let v := (markerValue m + 2 ^ 72 + Config.freeNat 7 k.1 % (80 * 2 ^ 32 + 1) - 40 * 2 ^ 32) % 2 ^ 72
      { k.2 with pair := { k.2.pair with clock := some v } }
    | none =>
      let add := (25000 * s.counterStep).toNat
      { s with pair := { s.pair with clock := s.pair.clock.map (fun v => (v + add) % 2 ^ 72) } }

/-- A standby that becomes ACTIVE uses its own counter from this edge on (R462, R495); a wrap that lies between the two counters
is taken now. -/
def State.useOwnClock (s : State) : State :=
  match s.pair.clock with
  | none => s
  | some v =>
    let wraps := (v / 2 ^ 64 + 256 - s.rd R.PTPT_STAT_WRAPC) % 256
    (((s.setPtpt { s.ptpt with base := v % 2 ^ 64 + (if wraps = 1 then 2 ^ 64 else 0), clk := 0, stepAt := 0, step := 0 }).takeWrap).wr
      R.PTPT_STAT_WRAPC (v / 2 ^ 64)).captureEdge

/-! ## The backup domain (R463 to R470) -/

def State.setRtcb (s : State) (x : RtcbS) : State := { s with rtcb := x }

/-- A write to an RTCB register, by words (R467): refused while BUSY, discarded on a standby (R470). -/
def State.rtcbWrite (s : State) (ws : List (Nat × Nat)) (p : Nat) : State :=
  if s.isStandby then s
  else if s.rdBit R.RTCB_STAT_BUSY then (s.inc R.RTCB_STAT_REFUSED).raiseCore 211 p
  else (s.setRtcb { s.rtcb with crossing := ws }).wr R.RTCB_STAT_BUSY 1

/-- RTCB_SET (R467). -/
def execRtcbSet (p : Port) (v : BitVec 48) (s : State) : Out :=
  .next (s.byCore p fun s => s.rtcbWrite
    [(R.RTCB_SET, v.toNat % 2 ^ 32), (R.RTCB_SET + 4, v.toNat / 2 ^ 32)] p.core.val)

/-- DST (R467). -/
def execDst (p : Port) (s : State) : Out := .next (s.byCore p fun s => s.rtcbWrite [(R.RTCB_CMD, 1)] p.core.val)

/-- An alarm armed with SEC at or below the count is marked (R468). -/
def State.armCheck (s : State) (k : Nat) : State :=
  if s.rdBit (R.RTCB_ALMk_ARM k) && decide (s.rd (R.RTCB_ALMk_SEC k) ≤ s.rd R.RTCB_TIME_SEC) then
    s.setRtcb { s.rtcb with past := (k :: s.rtcb.past).eraseDups }
  else s.setRtcb { s.rtcb with past := s.rtcb.past.filter (· != k) }

/-- One word of a write takes effect in the domain. -/
def State.rtcbTake (s : State) (w : Nat × Nat) : State :=
  let a := w.1
  let v : Word := BitVec.ofNat 32 w.2
  if a = R.RTCB_SET then s.setRtcb { s.rtcb with setTo := some (s.rtcb.setTo.getD (s.rd R.RTCB_TIME_SEC) / 2 ^ 32 * 2 ^ 32 + w.2) }
  else if a = R.RTCB_SET + 4 then
    s.setRtcb { s.rtcb with setTo := some (s.rtcb.setTo.getD (s.rd R.RTCB_TIME_SEC) % 2 ^ 32 + 2 ^ 32 * (w.2 % 65536)) }
  else if a = R.RTCB_CMD then s.setRtcb { s.rtcb with dst := s.rtcb.dst || w.2.testBit 0 }
  else if a = R.RTCB_ASTAT then s.setWord a (s.word a &&& ~~~v)
  else if a = R.RTCB_TRIM then s.setWord a (v &&& 0x1FFF)
  else if a = R.RTCB_PON then s.setWord a (v &&& 1)
  else if a = R.RTCB_ALMk 0 ∨ a = R.RTCB_ALMk 1 then s.setWord a v
  else s.setWord a (v &&& 0x3FFFF)

/-- DOMAIN_WRITE_CROSSING (R467): the write reaches the domain; BUSY clears but for an adjustment. -/
def execDomainWriteCrossing (s : State) : Out :=
  .next (match s.rtcb.crossing with
    | [] => s
    | ws =>
      let alarm (k : Nat) : Bool := ws.any (fun w => w.1 == R.RTCB_ALMk k || w.1 == R.RTCB_ALMk k + 4)
      let s := ws.foldl State.rtcbTake (s.setRtcb { s.rtcb with crossing := [] })
      let s := if alarm 0 then s.armCheck 0 else s
      let s := if alarm 1 then s.armCheck 1 else s
      if s.rtcb.setTo.isSome || s.rtcb.dst then s else s.wr R.RTCB_STAT_BUSY 0)

/-- Pulses added (or, negative, skipped) in second k of a window (R466). -/
def trimPulses (trim : Int) (k : Nat) : Int :=
  let n := ((k + 1) * trim.natAbs / 1024 : Nat) - (k * trim.natAbs / 1024 : Nat)
  if trim < 0 then -(n : Int) else n

/-- Oscillator pulses reach the domain (R465): each adds 2 to the fraction. -/
def State.rtcbPulses (s : State) (n : Nat) : State :=
  let o := min 65535 (s.rtcb.osc + n)
  (s.setRtcb { s.rtcb with osc := o }).wr R.RTCB_TIME_FRAC (min 65534 (2 * o))

/-- The adjustment due at a second boundary (R467); the Bool tells that there was one. -/
def State.rtcbAdjust (s : State) : Bool × State :=
  let x := s.rtcb
  let sec := s.rd R.RTCB_TIME_SEC
  let s' := s.setRtcb { x with setTo := none, dst := false }
  match x.setTo with
  | some v => (true, (s'.wr R.RTCB_TIME_SEC v).wr R.RTCB_STAT_BUSY 0)
  | none =>
    if x.dst then
      let sum := s.rdBit R.RTCB_STAT_SUMMER
      let s' := s'.wr R.RTCB_TIME_SEC (if sum then (sec + 2 ^ 48 - 3600) % 2 ^ 48 else sec + 3600)
      (true, (s'.wrBit R.RTCB_STAT_SUMMER (!sum)).wr R.RTCB_STAT_BUSY 0)
    else (false, s)

/-- One alarm at a second boundary (R468). -/
def State.rtcbAlarm (adj : Bool) (s : State) (k : Nat) : State :=
  let sec := s.rd (R.RTCB_ALMk_SEC k)
  if s.rdBit (R.RTCB_ALMk_ARM k) && decide (sec ≤ s.rd R.RTCB_TIME_SEC) then
    let bit (b : Nat) : FieldRef := ⟨R.RTCB_ASTAT, b + k, b + k⟩
    let s := (s.wr (R.RTCB_ALMk_ARM k) 0).setBit (bit 0)
    let s := s.when (adj && decide (sec < s.rd R.RTCB_TIME_SEC)) (State.setBit · (bit 2))
    let s := s.when (s.rtcb.past.contains k) (State.setBit · (bit 4))
    let s := s.setRtcb { s.rtcb with past := s.rtcb.past.filter (· != k) }
    let s := s.when (s.rdBit (R.RTCB_ALMk_WAKE k)) (State.wr · R.RTCB_PON_PON 1)
    s.when s.ticking (State.raiseSup · (208 + k))
  else s

/-- A second boundary (R465 to R468): the count advances, the trim window moves on, the adjustment comes first and then the
alarms. -/
def State.rtcbSecond (s : State) : State :=
  let k := (s.rtcb.second + 1) % 1024
  let s := s.setRtcb { s.rtcb with second := k, osc := 0, trim := if k = 0 then s.rdI R.RTCB_TRIM_TRIM else s.rtcb.trim }
  let s := (s.incWrap R.RTCB_TIME_SEC).wr R.RTCB_TIME_FRAC 0
  let a := s.rtcbAdjust
  let s := a.2.when (a.1 && s.ticking) (State.raiseSup · 210)
  [0, 1].foldl (State.rtcbAlarm a.1) s

/-- RTC_SECOND_BOUNDARY (R465, R466): after `osc` further pulses, the boundary falls once the pulses of this second with
those that the trim adds or skips make 32,768. -/
def execRtcSecondBoundary (osc : Nat) (s : State) : Out :=
  .next (
    let s := s.rtcbPulses osc
    if (32768 : Int) ≤ s.rtcb.osc + trimPulses s.rtcb.trim s.rtcb.second then s.rtcbSecond else s)

/-- BACKUP_SUPPLY_SWITCH (R463): the supplies, in mV, as the domain's comparators see them. -/
def execBackupSupplySwitch (vmain vbak : Nat) (s : State) : Out :=
  .next (
    let x := s.rtcb
    if x.onVbak then
      (if decide (vbak + 100 ≤ vmain) && decide (2800 ≤ vmain) then s.setRtcb { x with onVbak := false } else s)
    else if decide (vmain < vbak) || decide (vmain < 2700) then s.setRtcb { x with onVbak := true } else s)

/-- The addresses of the domain's words. -/
def rtcbWords : List Nat := [0, 4, 8, 12, 16, 20, 24, 32, 36, 40, 44, 48, 52]

/-- BACKUP_DOMAIN_RESET (R464): the node has fallen below 1.6 V; every register takes its value after a domain reset. -/
def execBackupDomainReset (s : State) : Out :=
  .next (
    let s := rtcbWords.foldl (fun s o => s.setWord (R.RTCB_TIME + o) (coldWord (R.RTCB_TIME + o))) s
    s.setRtcb { RtcbS.init with onVbak := s.rtcb.onVbak })

end Sys2Proof.Machine
end

