-- ==== Sys2Proof/Machine/Pair.lean ====
section
/-! DEFINITION. A pair member: roles, the Rioft link, the input snapshot, the output hash, the referee link as a member sees
it, resynchronisation, handover and the seals (18_pair_and_referee). -/

namespace Sys2Proof.Machine

/-! ## Health (R491) -/

/-- A stopped core with a stop reason, on the cores of a partition or all. -/
def State.anyStopped (s : State) (reason : Nat) (f : Nat → Bool) : Bool :=
  (List.range 16).any fun p => f p && (s.core p).stopped && s.rd (R.CORE_nTRAP_STOP p) == reason

/-- A solver lane is out of the scheduling with no bench lane in its place. -/
def State.laneLost (s : State) : Bool := s.solv.vacant.any (fun e => e.2 != 0)

/-- The hardware fault code (R491), 0 for none. -/
def State.hwc (s : State) : Nat :=
  if s.pair.hwc ≠ 0 then s.pair.hwc
  else if s.anyStopped 5 (fun _ => true) then 1
  else if (List.range 16).any (fun p => (s.core p).trapMode && s.rd (R.CORE_nTRAP_CAUSE p) == 1) then 2
  else if s.anyStopped 1 (fun _ => true) then 3
  else if s.safe.detected.testBit 3 then 4
  else if s.safe.detected.testBit 4 then 5
  else if s.laneLost then 6 else 0

/-- The health word. SYNCP is the share of the first pass, of which the manual gives no more than the unit (free). -/
def State.healthWord (s : State) : Nat :=
  let h := s.hwc
  let inStep := if s.pstate = 1 then s.rdBit R.PAIR_STAT_RLINK && s.pair.peer.testBit 6 else s.rdBit R.PAIR_STAT_INSTEP
  let syncp := if s.pstate = 3 then (if s.pair.passDone then 255 else Config.freeFun 130 [s.tickN] % 256) else 0
  s.pstate + 8 * b2n (h != 0) + 16 * b2n (s.anyStopped 2 (fun p => s.partOf p == 1)) + 32 * b2n (s.chState == 0)
    + 64 * b2n inStep + 128 * s.rd R.PAIR_STAT_LOCALIN + 256 * s.rd R.PAIR_STAT_RLINK + 512 * s.rd R.PAIR_STAT_REFPRES
    + 1024 * s.rd R.FEED_STAT_APRES + 2048 * s.rd R.FEED_STAT_BPRES + 4096 * b2n s.whold
    + 8192 * b2n s.rst.kick.isSome + 2 ^ 16 * syncp + 2 ^ 24 * h

/-! ## Blocks on the Rioft link (R482, R483) -/

/-- Checks of a received block: CRC, TAG, BSEQ (R483). -/
def State.blockSound (s : State) (bs : List Nat) : Bool :=
  let n := bs.length
  let x := s.pair
  let h := bs.take (n - 20)
  decide (36 ≤ n) && n == 36 + leAt bs 2 2 && blockLen (leAt bs 2 2) && leAt bs (n - 4) 4 == crc32c (bs.take (n - 4))
    && slice bs (n - 20) 16 == blockTag x.keyL x.nonceOwn x.rxSeq h && leAt bs 8 4 == x.rxSeq

/-- The items of a snapshot body (R484), in order; n bounds their number. -/
def snapItems (tick : Nat) : Nat → List Nat → List SnapItem
  | 0, _ => []
  | n + 1, bs =>
    if bs.length < 8 then []
    else ⟨tick, leAt bs 0 1, leAt bs 1 1, leAt bs 4 2⟩ :: snapItems tick n (bs.drop (8 + (leAt bs 2 2 + 7) / 8 * 8))

/-- The items of a snapshot body as the active sends them (R484): none where a header or its data is not whole. -/
def sentItems (tick : Nat) : Nat → List Nat → Option (List SnapItem)
  | n, bs =>
    if bs.isEmpty then some []
    else match n with
      | 0 => none
      | n + 1 =>
        let size := 8 + (leAt bs 2 2 + 7) / 8 * 8
        if bs.length < size || leAt bs 6 2 != 0 then none
        else (sentItems tick n (bs.drop size)).map (⟨tick, leAt bs 0 1, leAt bs 1 1, leAt bs 4 2⟩ :: ·)

/-- Do the items of a body carry what has taken effect: in ascending CYC, each one an input not yet sent, and none up to CYCHI left
out (R482, R484)? Answers the inputs still to be sent. -/
def State.itemsLeft (s : State) (hs : List SnapItem) (cychi : Nat) : Option (List SnapItem) :=
  let rest := hs.foldl List.erase s.pair.taken
  let ordered := (hs.zip (hs.drop 1)).all fun e => decide (e.1.cyc ≤ e.2.cyc)
  if ordered && hs.length + rest.length == s.pair.taken.length && rest.all (fun i => decide (cychi < i.cyc)) then some rest
  else none

/-- May a block leave with this CYCHI (R485): with LAST at cycle 59,999, after 4,096 cycles, or, in the cycles between, full? -/
def State.blockDue (s : State) (len cychi : Nat) (last : Bool) : Bool :=
  let start := if s.pair.sentAt = s.tickN + 1 then s.pair.sentHi else 0
  if last then cychi == 59999
  else decide (cychi < 59999) && decide (start ≤ cychi) && decide (cychi ≤ start + 4096) && (cychi == start + 4096 || len != 0)

/-- The active sends a snapshot block (R484, R485). -/
def State.sendSnapshot (s : State) (body : List Nat) (cychi : Nat) (last : Bool) : State :=
  if s.pair.sentAt = s.tickN + 1 && s.pair.sentHi == 59999 then s
  else if !blockLen body.length || !s.blockDue body.length cychi last then s
  else
    let s := s.atCycle cychi
    match (sentItems (s.tickN % 2 ^ 32) body.length body).bind (s.itemsLeft · cychi) with
    | none => s
    | some rest =>
      (s.setPair { s.pair with taken := rest, sentHi := cychi, sentAt := s.tickN + 1 }).rioftSend 1 (b2n last) s.tickN cychi body

/-- The join as the active sees it (R501): a peer that reports STANDBY has joined; one still in SYNC after its time has abandoned
the join, and the copy resumes with a new pass. -/
def State.joinSeen (s : State) (st : Nat) : State :=
  match s.pair.join with
  | none => s
  | some j =>
    if s.pstate != 1 || s.tickN ≤ j + 1 then s
    else if st = 2 then ((s.setPair { s.pair with join := none }).wr R.PAIR_SYNC_PHASE 3).raiseSup 223
    else if st = 3 then
      ((s.setPair { s.pair with join := none, passDone := false }).wr R.PAIR_SYNC_PHASE 1).raiseSup 223
    else s

/-- A STATUS block (R481, R482). -/
def State.statusIn (s : State) (health : Nat) : State :=
  let x := s.pair
  let f := s.tickN / 10 + 1
  let s := s.setPair { x with peer := health, stat1 := f, stat2 := if x.stat1 = f then x.stat2 else x.stat1 }
  (s.wrBit R.PAIR_STAT_PEERACT (health % 8 == 1)).joinSeen (health % 8)

/-- Lines of mirrored memory with device addresses (R500): address and 64 bytes each. -/
def applyLines (m : NMap Byte) : Nat → List Nat → NMap Byte
  | 0, _ => m
  | n + 1, bs =>
    if bs.length < 72 then m
    else applyLines (memPutBytes m (leAt bs 0 8) (slice bs 8 64)) n (bs.drop 72)

/-- What a sound block says (R482). -/
def State.blockIn (s : State) (bs : List Nat) : State :=
  let x := s.pair
  let typ := leAt bs 0 1
  let body := slice bs 16 (leAt bs 2 2)
  let tick := leAt bs 4 4
  if typ = 1 then
    s.setPair { x with items := x.items ++ snapItems tick body.length body, hiTick := tick + 1, hiCyc := leAt bs 12 2,
                       lastK := if (leAt bs 1 1).testBit 0 then tick else x.lastK }
  else if typ = 2 then s.setPair { x with hashes := ((tick, leAt body 0 16) :: x.hashes).take 4 }
  else if typ = 3 then
    if s.pstate = 3 then { s with mem := applyLines s.mem (body.length / 72) body } else s
  else
    let code := leAt body 0 4
    let arg := leAt body 4 4
    if code = 1 then s.statusIn arg
    else if code = 2 then s.setPair { x with handAt := some arg }
    else if code = 3 then s.setPair { x with join := some arg }
    else s

/-- RIOFT_BLOCK_RECEIVE (R483): a block that fails breaks the stream until the link trains again. SUBST blocks (CODE 4) are
the command SUBST. -/
def execRioftBlockReceive (block : List Byte) (s : State) : Out :=
  .next (
    let bs := block.map BitVec.toNat
    if !s.pair.trained || s.pair.broken then s
    else if s.blockSound bs then
      (s.setPair { s.pair with rxSeq := (s.pair.rxSeq + 1) % 2 ^ 32 }).blockIn bs
    else (s.inc R.PAIR_CNTB_LNKERR).setPair { s.pair with broken := true })

/-- Set RLINK or REFPRES, with its event on a change (R481, R491). -/
def State.setLinkBit (s : State) (f : FieldRef) (e : Nat) (b : Bool) : State :=
  if s.rdBit f = b then s else (s.wrBit f b).raiseSup e

/-- RIOFT_TRAINING (R481, R483): the link trains, with the nonces exchanged, or is lost. -/
def execRioftTraining (up : Bool) (own peer : Nat) (s : State) : Out :=
  .next (
    let s := s.setPair { s.pair with trained := up, broken := !up, nonceOwn := own, noncePeer := peer, txSeq := 0, rxSeq := 0,
                                     stat1 := if up then s.pair.stat1 else 0, stat2 := if up then s.pair.stat2 else 0 }
    if up then s else s.setLinkBit R.PAIR_STAT_RLINK 221 false)

/-- STATUS_BLOCK_SEND (R482): each side sends its health word once per frame. -/
def execStatusBlockSend (s : State) : Out :=
  .next (if s.isMember && s.pair.statAt != s.tickN / 10 + 1 then
      let s := s.setPair { s.pair with statAt := s.tickN / 10 + 1 }
      let h := s.healthWord
      (s.wr R.PAIR_HEALTH_HEALTH h).rioftControl 1 h
    else s)

/-! ## The output hash (R488, R489) -/

/-- One record: kind, unit, length in two bytes, data. -/
def recordBytes (r : Nat × Nat × List Nat) : List Nat := [r.1, r.2.1] ++ leBytes 2 r.2.2.length ++ r.2.2

/-- The posts of the present tick from the hashed sources. -/
def State.hashedPosts (s : State) : List (Nat × Nat × List Nat) :=
  (List.range 24).flatMap fun src =>
    if (s.rd R.PAIR_HMASK_SRC).testBit src then
      (s.staged src).map (fun p => (5, src, leBytes 3 p.idx ++ wordsBytes p.data))
    else []

/-- The output image of the tick that ends (R488). -/
def State.outImage (s : State) : List (Nat × Nat × List Nat) :=
  let dos := (List.range 24).foldl (fun m o => if s.doWant o then m + 2 ^ o else m) 0
  let issued (k : Nat) := s.outs.filter (fun r => r.1 == k)
  [(1, 0, leBytes 3 dos), (2, 0, [s.safeWant])] ++ issued 3
    ++ (List.range 8).map (fun a => (4, a, leBytes 4 (s.rd (R.AXIS_aTGT_TGT a)))) ++ s.hashedPosts ++ issued 6
    ++ (issued 7).filter (fun r => (s.rd R.PAIR_HMASK_IF).testBit r.2.1) ++ issued 8

/-- H(n): the first 16 bytes of SHA-512 over the records. -/
def State.outHash (s : State) : Nat := sha512 (s.outImage.flatMap recordBytes) / 2 ^ 384

/-- RIOFT_BLOCK_SEND (R485, R489): the active sends a snapshot block, or the hash of the tick just ended. -/
def execRioftBlockSend (b : RioftOut) (s : State) : Out :=
  .next (if s.isActive then
      match b with
      | .snapshot body cychi last => s.sendSnapshot (body.map BitVec.toNat) cychi last
      | .hash => s.sendHash
    else s)

/-! ## States (R478 to R480) -/

def State.setPstate (s : State) (k : Nat) : State := (s.wr R.PAIR_STAT_STATE k).showForced

/-- A standby takes over (R462, R495): its outputs are switched on, and its own network time counter and modulator inputs are
used. -/
def State.takeOver (s : State) : State :=
  let s := s.cmdLift.useOwnClock
  (s.setMetr { s.metr with fault := s.metr.ownFault }).showInf

/-- A member becomes ACTIVE (R480, R495): it ends gating, uses its own inputs and follows no other's ticks. What it still held of
its local inputs is for a tick one behind, and is not used (notes/assumptions/43). -/
def State.becomeActive (s : State) : State :=
  let s := if s.isStandby then s.takeOver else s
  let s := (s.wr R.PAIR_STAT_INSTEP 0).wr R.PAIR_STAT_LOCALIN 0
  let s := (s.wr R.TIER_DISC_STAT_FOLLOW 0).setPair { s.pair with
    items := [], locals := [], loads := [], taken := [], clock := none, handAt := none, role := none, sync := false, join := none }
  (s.setPstate 1).raiseSup 218

/-- Every core is off (R478). -/
def State.coresOff (s : State) : State :=
  (List.range 16).foldl (fun s p => s.setCore p { (s.core p) with on := false, wait := .none, job := none }) s

/-- Entry into SYNC (R497, R499, R489): resynchronisation begins with its copy (R501). -/
def State.enterSync (s : State) : State :=
  let s := ((s.wr R.PAIR_STAT_INSTEP 0).wr R.PAIR_STAT_LOCALIN 0).coresOff
  let s := s.setPair { s.pair with items := [], locals := [], taken := [], clock := none, role := none, sync := false, join := none,
                                   passDone := false }
  let s := (s.wr R.PAIR_SYNC_PHASE 1).wr R.PAIR_SYNC_PASSES 0
  ((s.wr R.TIER_DISC_STAT_FOLLOW 1).setPstate 3).raiseSup 223

/-- Entry into DIVERGED (R487, R489). -/
def State.enterDiverged (s : State) : State := ((s.wr R.PAIR_STAT_INSTEP 0).wr R.PAIR_STAT_LOCALIN 0).setPstate 4

/-- Fenced (R494): every core is stopped through event 216. -/
def State.enterFenced (s : State) : State :=
  let ds := (List.range 16).filter s.isTarget
  (s.setPstate 5).raise 216 ds false

/-- FENCE_INPUT (R494): the FENCE input has been asserted for 2 µs, or is released. -/
def execFenceInput (on : Bool) (s : State) : Out :=
  .next (
    let s := s.wrBit R.PAIR_STAT_FENCEIN on
    if on && s.isMember && s.ticking && s.pstate != 5 then s.enterFenced else s)

/-- STRAP_CHANGE (R477): a change of the straps' level raises event 217; the role is kept until the next kick-off (R2). -/
def execStrapChange (strap : Fin 4) (s : State) : Out :=
  .next (
    let new := s.pair.strapIn != strap.val
    let s := s.setPair { s.pair with strapIn := strap.val }
    if s.ticking && new then s.raiseSup 217 else s)

/-! ## The snapshot at the standby (R486, R487) -/

/-- The snapshot's data takes effect in the standby's blocks. -/
def State.applyItem (s : State) (unit : Nat) (x : SnapData) : State :=
  match x with
  | .din raw => s.early (State.sampleDin · raw.toNat)
  | .pulse count freq =>
    if unit < 32 then
      (s.wr (R.DIOP_PIp_CNT_CNT unit) count.toNat).early (State.wr · (R.DIOP_PIp_FREQ_FREQ unit) freq.toNat) else s
  | .encoder count => if unit < 4 then s.wr (R.AXIS_ENCe_POS_COUNT unit) count.toNat else s
  | .loadAngle la => s.setPair { s.pair with angles := NMap.set 0 s.pair.angles unit la.toNat }
  | .chopper code => if unit < 8 then s.chopper unit code.val else s
  | .modulator v fault =>
    let s := s.setPair { s.pair with mods := NMap.set 0 s.pair.mods unit v.toNat }
    if 32 ≤ unit then s else if fault then s.faultOn unit (1000 * s.tickN) else s.faultOff unit (1000 * s.tickN)
  | .conversion ch v code listed => s.conversionIn ch.val v.toInt code.toInt listed none
  | .urgent outcome duty =>
    if outcome.val = 0 then s.raise 171 [duty.val] false else s.urgentDrop (outcome.val == 2) duty.val
  | .canStore obj data => if unit < 16 then s.canStore unit obj.toNat (data.map BitVec.toNat) else s
  | .canSent obj ok =>
    match (s.canCh unit).reqs.find? (fun r => r.obj == obj.toNat) with
    | some r => if ok then s.txSent unit r s.now else s.endLost unit r
    | none => s
  | .canState tec rcv st => if unit < 16 then s.canTake unit tec.toNat rcv.toNat st.val else s
  | .frame port rct ts bytes =>
    let i := ifOf port.val
    (s.when rct (State.lanAlive · i (isLanB port.val))).ringDeliver i port.val (bytes.map BitVec.toNat) rct ts.toNat
  | .bextis b dest msg => s.bextisCopy unit b dest.toNat (msg.map BitVec.toNat)
  | .safeIn raw => s.takeSafe raw.toNat
  | .safeBack rb => s.readback rb.toNat
  | .safeDark o off => s.darkTest o.val off
  | .load v => s.setPair { s.pair with loads := NMap.set [] s.pair.loads unit (NMap.get [] s.pair.loads unit ++ [v.toNat]) }

/-- The kind of an item's data (R484). -/
def snapKind : SnapData → Nat
  | .din _ => 1
  | .pulse _ _ => 2
  | .encoder _ | .loadAngle _ | .chopper _ => 3
  | .modulator _ _ => 4
  | .conversion _ _ _ _ | .urgent _ _ => 5
  | .canStore _ _ | .canSent _ _ | .canState _ _ _ => 6
  | .frame _ _ _ _ => 7
  | .bextis _ _ _ => 8
  | .safeIn _ | .safeBack _ | .safeDark _ _ => 9
  | .load _ => 10

/-- What a standby's own receivers took in the tick before takes effect in its blocks (R486, R487). -/
def State.applyLocal (s : State) (x : LocalData) : State :=
  match x with
  | .din raw => s.early (State.sampleDin · raw.toNat)
  | .pulse p ten => s.pulseEdge p.val (10000 * s.tickN + ten)
  | .encoder e k => s.encoderEdge e.val k
  | .angles la => s.takeAngles la.toNat
  | .bridge a w => w.foldl (State.chopStep a.val) s
  | .modulators xs => s.setPair { s.pair with
      mods := (List.range 32).foldl (fun m k => NMap.set 0 m k (xs.getD k 0).toNat) s.pair.mods }
  | .conversion ch v code duty => s.conversionIn ch.val v.toInt code.toInt duty.isNone (duty.map Fin.val)
  | .canFrame c f => s.canReceive c.val f
  | .canError c e => s.canError c.val e
  | .frame p fifo ts bytes => s.frameIn p.val fifo (bytes.map BitVec.toNat) ts
  | .bextis c b dest msg => s.bextisCopy c.val b dest.toNat (msg.map BitVec.toNat)
  | .safeIn raw => s.takeSafe raw.toNat
  | .safeBack rb => s.readback rb.toNat

/-- The next item of the snapshot of the present tick, whose data is x, takes effect in its cycle. -/
def State.nextItem (s : State) (x : SnapData) : State :=
  match s.pair.items.filter (fun i => i.tick == s.tickN % 2 ^ 32) with
  | [] => s
  | i :: _ =>
    if i.kind = snapKind x then
      ((s.setPair { s.pair with items := s.pair.items.erase i }).atCycle i.cyc).applyItem i.unit x
    else s

/-- The next local input of the present tick takes effect in its cycle (R487). -/
def State.nextLocal (s : State) : State :=
  match s.pair.locals.filter (fun i => i.tag == s.tickN) with
  | [] => s
  | i :: _ => ((s.setPair { s.pair with locals := s.pair.locals.erase i }).atCycle i.cyc).applyLocal i.data

/-- SNAPSHOT_ITEM_APPLY (R486): the next item of the standby's tick takes effect in its cycle; with LOCALIN = 1 the next local
input (R487). -/
def execSnapshotItemApply (x : SnapData) (s : State) : Out :=
  .next (if s.onSnapshot then s.nextItem x else if s.isStandby then s.nextLocal else s)

/-- STARVATION (R487): in cycle `cyc` the standby holds no block of its tick that reaches it, or the stream is broken. Local inputs
of earlier cycles are not used. -/
def execStarvation (cyc : Nat) (s : State) : Out :=
  .next (
    let x := s.pair
    let fed := !x.broken && x.hiTick == s.tickN % 2 ^ 32 + 1 && decide (cyc ≤ x.hiCyc)
    let ahead := !x.broken && decide (s.tickN % 2 ^ 32 + 1 < x.hiTick)
    if !s.onSnapshot || fed || ahead then s
    else
      let s := (s.atCycle cyc).wr R.PAIR_STAT_LOCALIN 1
      let s := (s.wr R.PAIR_STAT_INSTEP 0).inc R.PAIR_CNTA_STARVE
      let late (i : LocalIn) : Bool := decide (s.tickN < i.tag) || (i.tag == s.tickN && decide (cyc ≤ i.cyc))
      (s.setPair { s.pair with localAt := s.tickN, items := [], locals := s.pair.locals.filter late }).raiseSup 220)

/-- LOCALMAX_EXPIRY (R487). -/
def execLocalmaxExpiry (s : State) : Out :=
  .next (if s.pstate == 2 && s.rdBit R.PAIR_STAT_LOCALIN
      && decide (s.pair.localAt + 10 * s.rd R.PAIR_CFG_LOCALMAX ≤ s.tickN) then s.enterDiverged else s)

/-- The standby compares its hash of the tick just ended with the active's (R489). -/
def State.compareHash (s : State) : State :=
  match s.pair.own with
  | none => s
  | some (n, h) =>
    match s.pair.hashes.find? (fun e => e.1 == n) with
    | none => s
    | some e =>
      if s.pstate != 2 || s.rdBit R.PAIR_STAT_LOCALIN || e.2 == h then s
      else
        let s := ((s.inc R.PAIR_CNTA_HASHMM).wr R.PAIR_MMTICK_MMTICK n).raiseSup 219
        let s := s.enterDiverged
        if s.rdBit R.PAIR_CFG_AUTORS && decide (s.rd R.PAIR_CNTA_AUTON < 3) then
          (s.inc R.PAIR_CNTA_AUTON).setPair { s.pair with sync := true }
        else s

/-! ## The referee link at a member (R490, R491) -/

/-- A referee message of this module (R490). -/
def State.refMessage (s : State) (typ src : Nat) (body : List Nat) : List Nat :=
  let m := [typ, src, body.length, 0] ++ leBytes 4 s.pair.msgSeq ++ body
  let m := m ++ beBytes 16 (tag16 s.pair.keyR m)
  m ++ leBytes 4 (crc32c m)

/-- Send a message with the next SEQ on a referee link. -/
def State.refSend (s : State) (links : List Nat) (typ src : Nat) (body : List Nat) : State :=
  let s := s.setPair { s.pair with msgSeq := (s.pair.msgSeq + 1) % 2 ^ 32 }
  let m := s.refMessage typ src body
  links.foldl (fun s l => s.send l m) s

/-- Is a message accepted from a sender of which SEQ `seq` was last accepted at tick `seen` − 1 (R490)? -/
def State.msgSound (s : State) (typ src seq seen : Nat) (bs : List Nat) : Bool :=
  let n := bs.length
  decide (28 ≤ n) && n == 28 + leAt bs 2 1 && leAt bs 0 1 == typ && leAt bs 1 1 == src
    && leAt bs (n - 4) 4 == crc32c (bs.take (n - 4))
    && beAt bs (n - 20) 16 == tag16 s.pair.keyR (bs.take (n - 20))
    && (seqNewer (leAt bs 4 4) seq || seen == 0 || decide (seen + 30 ≤ s.tickN + 1))

def msgBody (bs : List Nat) : List Nat := slice bs 8 (leAt bs 2 1)

/-- May the member answer polls: its PAIR seal groups are sealed (R562, R566)? -/
def State.mayAnswer (s : State) : Bool :=
  s.isMember && s.pair.sealedP && s.pair.sealedR && s.phase != .off

/-- A message accepted from the referee. -/
def State.fromReferee (s : State) (bs : List Nat) : State :=
  s.setPair { s.pair with refSeq := leAt bs 4 4, refSeen := s.tickN + 1 }

/-- HEART (R491): the PAIR block answers an accepted POLL. -/
def execHeart (msg : List Byte) (s : State) : Out :=
  .next (
    let bs := msg.map BitVec.toNat
    if !s.mayAnswer || !s.msgSound 1 0 s.pair.refSeq s.pair.refSeen bs then s
    else
      let s := s.fromReferee bs
      let s := s.setPair { s.pair with pollAt := s.tickN + 1 }
      let s := s.setLinkBit R.PAIR_STAT_REFPRES 222 true
      let h := s.healthWord
      let s := s.wr R.PAIR_HEALTH_HEALTH h
      let s := s.refSend [refLinkA] 2 (s.rd R.PAIR_STAT_STRAP)
        (leBytes 4 (leAt bs 4 4) ++ leBytes 4 s.tickN ++ leBytes 4 h ++ leBytes 4 (s.rd R.PAIR_KLAST_KLAST))
      s.setPair { s.pair with heart := s.pair.msgSeq })

/-- Is a CMD for this member accepted (R490, R562)? -/
def State.cmdSound (s : State) (code : Nat) (bs : List Nat) : Bool :=
  let b := msgBody bs
  s.mayAnswer && s.ticking && s.msgSound 3 0 s.pair.refSeq s.pair.refSeen bs && leAt b 0 1 == code
    && leAt b 1 1 == s.rd R.PAIR_STAT_STRAP && leAt b 4 4 == s.pair.heart

/-- An accepted CMD acts at the next tick edge (R491). -/
def State.command (s : State) (code : Nat) (msg : List Byte) : State :=
  let bs := msg.map BitVec.toNat
  if s.cmdSound code bs then
    let s := s.fromReferee bs
    if code == 3 && s.pstate != 2 then (s.inc R.PAIR_CNTB_TKREF).raiseSup 224
    else s.setPair { s.pair with role := some code }
  else s

/-- ASSIGN_ACTIVE (R497). -/
def execAssignActive (msg : List Byte) (s : State) : Out := .next (s.command 1 msg)
/-- ASSIGN_STANDBY (R497). -/
def execAssignStandby (msg : List Byte) (s : State) : Out := .next (s.command 2 msg)
/-- TAKEOVER (R495, R496). -/
def execTakeover (msg : List Byte) (s : State) : Out := .next (s.command 3 msg)

/-- The role command accepted takes effect at a tick edge (R491, R495, R497). -/
def State.takeRole (s : State) : State :=
  match s.pair.role with
  | none => s
  | some code =>
    let s := s.setPair { s.pair with role := none }
    if code = 1 ∧ s.pstate = 0 then s.becomeActive
    else if code = 2 ∧ s.pstate = 0 then s.enterSync
    else if code = 3 ∧ s.pstate = 2 then
      ((s.wr R.PAIR_TKTICK_TKTICK s.tickN).wr R.PAIR_KLAST_KLAST s.pair.lastK).becomeActive
    else s

/-- REFEREE_ABSENT_START (R498): member A in START after 30 frames with REFPRES = 0. -/
def execRefereeAbsentStart (s : State) : Out :=
  .next (if s.rd R.PAIR_STAT_STRAP == 1 && s.ticking && s.pstate == 0 && !s.rdBit R.PAIR_STAT_REFPRES
      && s.rdBit R.PAIR_STAT_RLINK && !s.rdBit R.PAIR_STAT_PEERACT && decide (s.pair.noRef + 300 ≤ s.tickN + 1) then
      s.becomeActive else s)

/-- The result of a PAIR_CTRL write (R505). -/
def State.pairResult (s : State) (code p : Nat) : State := (s.wr R.PAIR_STAT_CERR code).raiseCoreSup 224 p

/-- A write of SOLO (R498). -/
def State.soloWrite (s : State) (p : Nat) : State :=
  if !s.isMember || s.pstate != 0 then s.pairResult 6 p
  else if s.rdBit R.PAIR_STAT_REFPRES || (s.rdBit R.PAIR_STAT_RLINK && s.rdBit R.PAIR_STAT_PEERACT) then s.pairResult 5 p
  else (s.pairResult 0 p).becomeActive

/-- SOLO (R498). -/
def execSolo (p : Port) (s : State) : Out := .next (s.byCore p fun s => s.soloWrite p.core.val)

/-! ## Planned handover (R499) -/

/-- A write of HANDOVER. -/
def State.handoverWrite (s : State) (p : Nat) : State :=
  let h := s.rd R.PAIR_HTICK_H
  let ahead := (h + 2 ^ 32 - s.tickN % 2 ^ 32) % 2 ^ 32
  if !s.isMember || s.pstate != 1 then s.pairResult 1 p
  else if (s.tickN + ahead) % 1000 != 0 || ahead == 0 || decide (2 ^ 31 ≤ ahead) || decide (990 ≤ s.tickN % 1000) then
    s.pairResult 2 p
  else (s.wr R.PAIR_STAT_CERR 0).setPair { s.pair with handReq := some (s.tickN + ahead, s.dutyOf p) }

/-- HANDOVER (R499). -/
def execHandover (p : Port) (s : State) : Out := .next (s.byCore p fun s => s.handoverWrite p.core.val)

/-- Is the standby fit: STATE 2, INSTEP 1, LOCALIN 0 in its last STATUS? -/
def State.standbyFit (s : State) : Bool :=
  s.rdBit R.PAIR_STAT_RLINK && s.pair.peer % 8 == 2 && s.pair.peer.testBit 6 && !s.pair.peer.testBit 7

/-- HANDOVER_AT_H (R499): at cycle 0 of tick H the active hands over, or carries on. -/
def execHandoverAtH (s : State) : Out :=
  .next (match s.pair.handReq with
    | none => s
    | some (h, d) =>
      if h ≤ s.tickN then
        let s := (s.atCycle 0).setPair { s.pair with handReq := none }
        if s.pstate = 1 ∧ s.standbyFit then
          let s := s.rioftControl 2 h
          ((s.wr R.PAIR_STAT_CERR 0).raise 224 [d] true).enterSync
        else (s.wr R.PAIR_STAT_CERR 3).raise 224 [d] true
      else s)

/-- HANDOVER_RECEIVE (R499): the standby becomes ACTIVE at the edge of its own tick H. -/
def execHandoverReceive (s : State) : Out :=
  .next (match s.pair.handAt with
    | none => s
    | some h =>
      if s.pstate == 2 && h == s.tickN % 2 ^ 32 then (s.atCycle 0).becomeActive else s)

/-! ## Resynchronisation (R500, R501) -/

/-- A write of RESYNC (R489). -/
def State.resyncWrite (s : State) (p : Nat) : State :=
  if s.pstate != 4 then s.pairResult 4 p else (s.pairResult 0 p).setPair { s.pair with sync := true }

/-- RESYNC (R489). -/
def execResync (p : Port) (s : State) : Out := .next (s.byCore p fun s => s.resyncWrite p.core.val)

/-- RESYNC_COPY_PASS (R501): the active sends lines of mirrored memory to a peer in SYNC; `endOfPass` tells that a pass is
complete, with the lines then dirty. -/
def execResyncCopyPass (lines : List Byte) (endOfPass : Bool) (dirty : BitVec 21) (s : State) : Out :=
  .next (if s.isActive && s.pair.peer % 8 == 3 && s.rd R.PAIR_SYNC_PHASE != 2 && lines.length % 72 == 0
      && blockLen lines.length then
      let s := if s.rd R.PAIR_SYNC_PHASE = 1 then s else (s.wr R.PAIR_SYNC_PHASE 1).raiseSup 223
      let s := s.rioftSend 3 0 s.tickN 0 (lines.map BitVec.toNat)
      let s := s.wr R.PAIR_SYNC_DIRTY dirty.toNat
      if endOfPass then (s.inc R.PAIR_SYNC_PASSES).setPair { s.pair with passDone := true } else s
    else s)

/-- FREEZE_JOIN (R501): at cycle 0 of a round-boundary tick J the active freezes the dirty set and sends JOIN, or the copy goes
on where too many lines are dirty. -/
def execFreezeJoin (dirty mram : Nat) (s : State) : Out :=
  .next (if s.isMember && s.pstate == 1 && s.tickN % 1000 == 0 && s.rd R.PAIR_SYNC_PHASE == 1 && s.pair.passDone
      && decide (dirty ≤ 512) && decide (mram ≤ 64) then
      let s := ((s.atCycle 0).setPair { s.pair with join := some s.tickN }).wr R.PAIR_SYNC_PHASE 2
      ((s.wr R.PAIR_SYNC_DIRTY dirty).rioftControl 3 s.tickN).raiseSup 223
    else s)

/-- The windows of the blocks whose state is not mirrored (R500): RTCB, PAIR, TRST, RECD, MONI, BNCH, FEED. -/
def ownWindow (a : Nat) : Bool :=
  let w := (a - 0x40000000) / 0x10000
  w == 13 || w == 14 || w == 15 || w == 16 || w == 17 || w == 21 || w == 19

/-- Registers that describe a module's own hardware within mirrored windows (R486). -/
def ownRegister (a : Nat) : Bool :=
  a == R.CMNS_ECCCNT || a == R.CMNS_WMAX || (List.range 16).any (fun p => a == R.CORE_nCNT p)
    || a == R.SOLV_ECC || (List.range 5).any (fun k => a == R.SOLV_LANEk k)

/-- Keep own entries of a register plane and take the rest from another. -/
def mixPlane (own peer : NMap Word) : NMap Word :=
  let mine (a : Nat) : Bool := ownWindow a || ownRegister a
  (own.filter (fun e => mine e.1)).foldl (fun m e => NMap.put m e.1 e.2) (peer.filter (fun e => !mine e.1))

/-- The registers in effect: of `CORE_nCNT` the trap counts are the active's. -/
def mixRegs (own peer : NMap Word) : NMap Word :=
  (List.range 16).foldl (fun m p => planeWr m (R.CORE_nCNT_TRAPS p) (planeRd peer (R.CORE_nCNT_TRAPS p))) (mixPlane own peer)

/-- MRAM that is not mirrored: the trust-reserved sectors and the recorder ring. -/
def ownMram (a : Nat) : Bool := within 0x20000000 0x205FFFFF a || within 0x20C00000 0x20FFFFFF a

def mixMem (own peer : NMap Byte) : NMap Byte :=
  (own.filter (fun e => ownMram e.1)).foldl (fun m e => NMap.put m e.1 e.2) (peer.filter (fun e => !ownMram e.1))

/-- The state of the active at its edge of tick J in every mirrored memory, the module's own elsewhere (R500, R501). -/
def State.mirror (s : State) (x : Body) : State :=
  { s with
    regs := mixRegs s.regs x.regs, shadow := mixPlane s.shadow x.shadow, coll := mixPlane s.coll x.coll,
    sealing := mixPlane s.sealing x.sealing, wrote := [], hw := [], outs := [],
    mem := mixMem s.mem x.mem, cores := x.cores, evIn := x.evIn, evAt := x.evAt, began := x.began, tier := x.tier,
    cmns := { x.cmns with err := s.cmns.err, perCor := s.cmns.perCor, scrub := s.cmns.scrub, rowCopy := s.cmns.rowCopy,
                          rowSub := s.cmns.rowSub },
    ptpt := x.ptpt, safe := { x.safe with detected := s.safe.detected }, qm := x.qm, fusa := x.fusa, solv := x.solv,
    diop := { x.diop with trip := s.diop.trip }, loops := x.loops, axes := x.axes,
    rst := { x.rst with kick := s.rst.kick }, can := x.can,
    metr := { x.metr with ownFault := s.metr.ownFault, stream := s.metr.stream },
    adcs := { x.adcs with done := s.adcs.done, urg := s.adcs.urg, held := none }, eth := x.eth, tick := x.tick }

/-- JOIN_APPLY (R501): at the active's edge of tick J + 1 the member starts its own tick J in STANDBY with the active's state,
or abandons the join where its data is not complete. -/
def execJoinApply (ok : Bool) (x : Body) (s : State) : Out :=
  .next (if s.pstate != 3 || s.pair.join.isNone then s
    else if ok && s.pair.join == some (x.tick.toNat % 2 ^ 32) then
      let s := (s.mirror x).atCycle 0
      let s := (s.wr R.PAIR_STAT_INSTEP 1).wr R.PAIR_STAT_LOCALIN 0
      let s := (s.wr R.PAIR_SYNC_PHASE 3).setPair { s.pair with join := none, own := none, loads := [], locals := [] }
      ((s.wr R.TIER_DISC_STAT_FOLLOW 1).setPstate 2).raiseSup 223
    else
      let s := (s.inc R.PAIR_CNTA_JOINAB).setPair { s.pair with join := none, passDone := false }
      (s.wr R.PAIR_SYNC_PHASE 1).raiseSup 223)

/-! ## Tick edges -/

/-- At the end of a tick a member forms its hash (R489), and the records of the tick are dropped. -/
def State.pairTickEnd (s : State) : State :=
  let s := if s.isMember && s.ticking then
      s.setPair { s.pair with own := some (s.tickN % 2 ^ 32, s.outHash), taken := [],
                              items := s.pair.items.filter (fun i => i.tick != s.tickN % 2 ^ 32) }
    else s
  { s with outs := [], sent := [] }

/-- The active's marker symbol at a tick edge carries its `PTPT_TEDGE` (R481). -/
def State.sendMarker (s : State) : State :=
  if s.isActive && s.pair.trained then
    s.send markerLink (leBytes 4 (s.word R.PTPT_TEDGE).toNat ++ leBytes 4 (s.word (R.PTPT_TEDGE + 4)).toNat)
  else s

/-- RLINK at a frame boundary: both lanes trained, and STATUS in each of the last 2 frames (R481). -/
def State.rlinkNow (s : State) : Bool :=
  let f := s.tickN / 10
  s.pair.trained && (s.pair.stat1 == f + 1 || s.pair.stat1 == f)
    && (s.pair.stat1 == f && s.pair.stat2 + 1 == f || s.pair.stat1 == f + 1 && s.pair.stat2 == f)

/-- REFPRES: a POLL accepted within the last 30 ticks (R491). -/
def State.refreshRef (s : State) : State :=
  let here := s.pair.pollAt != 0 && decide (s.tickN + 1 < s.pair.pollAt + 30)
  let was := s.rdBit R.PAIR_STAT_REFPRES
  let s := s.setLinkBit R.PAIR_STAT_REFPRES 222 here
  if was && !here then s.setPair { s.pair with noRef := s.tickN + 1 } else s

/-- The pair logic at a tick edge: the state of the first tick (R478, R494, R564), links, the hash, commands, and entries into
SYNC. -/
def State.pairEdge (s : State) : State :=
  let strap := s.rd R.PAIR_STAT_STRAP
  if s.tickN = 0 then
    let s := s.setPair { s.pair with noRef := 1 }
    if strap = 0 then s.setPstate 1
    else if strap = 3 then s.setPstate 7
    else if s.rdBit R.PAIR_STAT_FENCEIN then s.enterFenced else s.setPstate 0
  else if !s.isMember then s
  else
    let s := s.refreshRef
    let s := if s.tickN % 10 = 0 then s.setLinkBit R.PAIR_STAT_RLINK 221 s.rlinkNow else s
    let s := if s.tickN % 100000 = 0 then s.wr R.PAIR_CNTA_AUTON 0 else s
    let s := if s.pair.sync && s.pstate == 4 then s.enterSync else s
    let s := s.compareHash.takeRole
    if s.pstate == 0 && s.rdBit R.PAIR_STAT_RLINK && s.rdBit R.PAIR_STAT_PEERACT then s.enterSync else s

/-- FOLLOW_LOST (R41): a standby no longer hears the active's tick edges. -/
def execFollowLost (s : State) : Out :=
  .next (if s.isMember && s.pstate == 2 && s.rdBit R.TIER_DISC_STAT_FOLLOW then
      (s.wr R.TIER_DISC_STAT_FOLLOW 0).raiseSup 13 else s)

/-! ## Seals (R506) -/

/-- The first failing code of `PAIR_SEAL`. -/
def State.pairCode (s : State) : Nat :=
  let key (f : FieldRef) : Option Nat := s.keyTransfer (s.rdColl f) 1
  if (key R.PAIR_CFG_KSLOT).isNone || (key R.PAIR_CFG_RKSLOT).isNone then 1
  else if s.rdColl R.PAIR_CFG_LOCALMAX = 0 then 2 else 0

/-- The first failing code of `PAIR_RSEAL`. -/
def State.pairRCode (s : State) : Nat :=
  if within 1 10 (s.rdColl R.PAIR_RCFG_MISSN) && within 1 15 (s.rdColl R.PAIR_RCFG_HWFN)
    && within 1 255 (s.rdColl R.PAIR_RCFG_ROLEWAIT) then 0 else 2

/-- A write of GO to `PAIR_SEAL` or, with r, to `PAIR_RSEAL`. -/
def State.pairSeal (s : State) (r : Bool) (p : Nat) : State :=
  if s.ticking then s.raiseCore 227 p
  else
    let code := if r then s.pairRCode else s.pairCode
    let g : Grp := if r then .pairR else .pair
    let s := if code = 0 then
        let s := s.applyColl 14 g none
        if r then s.setPair { s.pair with sealedR := true }
        else s.setPair { s.pair with sealedP := true, keyL := (s.keyTransfer (s.rd R.PAIR_CFG_KSLOT) 1).getD 0,
                                     keyR := (s.keyTransfer (s.rd R.PAIR_CFG_RKSLOT) 1).getD 0 }
      else (s.discardColl 14 g none).raiseCore 227 p
    s.wr (if r then R.PAIR_RSEAL_ERR else R.PAIR_SEAL_ERR) code

/-- PAIR_SEAL (R506). -/
def execPairSeal (p : Port) (r : Bool) (s : State) : Out := .next (s.byCore p fun s => s.pairSeal r p.core.val)

end Sys2Proof.Machine
end

