-- ==== Sys2Proof/Machine/Referee.lean ====
section
/-! DEFINITION. The referee: polls, hearts, the decisions of each frame and the fence lines (18_pair_and_referee, R490 to R493,
R497). Members are 0 for A and 1 for B. -/

namespace Sys2Proof.Machine

def State.isReferee (s : State) : Bool := s.pstate == 7

def State.memOf (s : State) (m : Nat) : RefMember := if m = 0 then s.pair.memA else s.pair.memB
def State.setMem (s : State) (m : Nat) (x : RefMember) : State :=
  if m = 0 then s.setPair { s.pair with memA := x } else s.setPair { s.pair with memB := x }

def refLinkOf (m : Nat) : Nat := if m = 0 then refLinkA else refLinkB
def fenceF (m : Nat) : FieldRef := if m = 0 then R.PAIR_RSTAT_FENCEA else R.PAIR_RSTAT_FENCEB
def fbackF (m : Nat) : FieldRef := if m = 0 then R.PAIR_RSTAT_FBACKA else R.PAIR_RSTAT_FBACKB
def presF (m : Nat) : FieldRef := if m = 0 then R.PAIR_RSTAT_PRESA else R.PAIR_RSTAT_PRESB
def stateF (m : Nat) : FieldRef := if m = 0 then R.PAIR_RSTAT_STATEA else R.PAIR_RSTAT_STATEB

/-- POLL (R491): at cycle 1,536 of tick 0 of each of its frames, on both ports. -/
def execPoll (s : State) : Out :=
  .next (if s.isReferee && s.tickN % 10 == 0 && s.pair.pollAt != s.tickN + 1 then
      let s := s.atCycle Config.changeover
      let view := s.rd R.PAIR_RSTAT_VIEW + 4 * s.rd R.PAIR_RSTAT_FENCEA + 8 * s.rd R.PAIR_RSTAT_FENCEB
      let s := s.refSend [refLinkA, refLinkB] 1 0 ([view, 0, 0, 0] ++ leBytes 4 s.tickN)
      let s := s.setPair { s.pair with poll := s.pair.msgSeq, pollAt := s.tickN + 1 }
      (s.setMem 0 { s.memOf 0 with answered := false }).setMem 1 { s.memOf 1 with answered := false }
    else s)

/-- HEART_RECEIVE (R490, R491): from member A or, with b, B; it answers the latest poll when it echoes its SEQ by the end of
tick 3 of the frame. -/
def execHeartReceive (b : Bool) (msg : List Byte) (s : State) : Out :=
  .next (
    let m := b2n b
    let x := s.memOf m
    let bs := msg.map BitVec.toNat
    if !s.isReferee || !s.msgSound 2 (m + 1) x.seq x.seen bs then s
    else
      let body := msgBody bs
      let h := leAt body 8 4
      let ok := leAt body 0 4 == s.pair.poll && decide (s.tickN % 10 ≤ 3)
      let s := s.setMem m { x with seq := leAt bs 4 4, seen := s.tickN + 1, health := h, answered := x.answered || ok }
      s.wr (stateF m) h)

/-! ## The evaluation (R492, R493, R497) -/

/-- The state a member reports in its answer to the latest poll. -/
def State.reports (s : State) (m k : Nat) : Bool := (s.memOf m).answered && (s.memOf m).health % 8 == k

/-- Misses and faults are counted (R491, R492); event 226 as a member stops or starts answering. -/
def State.countPoll (s : State) (m : Nat) : State :=
  let x := s.memOf m
  let was := s.rdBit (presF m)
  let hwf := if !x.answered then x.hwf else if x.health.testBit 3 then x.hwf + 1 else 0
  let s := (s.setMem m { x with missed := if x.answered then 0 else x.missed + 1, hwf := hwf }).wrBit (presF m) x.answered
  if was = x.answered then s else s.raiseSup 226

/-- The evaluation in progress: the readbacks of the two lines, and the members already commanded. -/
structure Eval where
  st : State
  fbA : Bool
  fbB : Bool
  told : List Nat

def Eval.on (e : Eval) (f : State → State) : Eval := { e with st := f e.st }
def Eval.fb (e : Eval) (m : Nat) : Bool := if m = 0 then e.fbA else e.fbB

/-- Record a member as active: 0 A, 1 B. -/
def Eval.record (e : Eval) (m : Nat) : Eval := e.on (State.wr · R.PAIR_RSTAT_VIEW (m + 1))

/-- Send a CMD (R490), one to a member at an evaluation. -/
def Eval.cmd (e : Eval) (code m : Nat) : Eval :=
  if e.told.contains m then e
  else
    let s := e.st.refSend [refLinkOf m] 3 0 ([code, m + 1, 0, 0] ++ leBytes 4 (e.st.memOf m).seq)
    { e with st := s.raiseSup 225, told := m :: e.told }

/-- Fence a member (R493): assert its line and read it back; event 225. -/
def Eval.fence (e : Eval) (m : Nat) : Eval :=
  if e.st.rdBit (fenceF m) then e
  else e.on fun s => (((s.setBit (fenceF m)).wrBit (fbackF m) (e.fb m)).inc R.PAIR_RCNT_FENCES).raiseSup 225

/-- TAKEOVER to a member after the other has been fenced, where the readback shows the line asserted or no fence is made. -/
def Eval.takeover (e : Eval) (m : Nat) (fence : Bool) : Eval :=
  let e := if fence then e.fence (1 - m) else e
  if fence && !e.st.rdBit (fbackF (1 - m)) then e
  else ((e.cmd 3 m).record m).on (State.inc · R.PAIR_RCNT_FAILOVERS)

/-- The member recorded active, if any. -/
def Eval.recorded (e : Eval) : Option Nat :=
  let v := e.st.rd R.PAIR_RSTAT_VIEW
  if v = 1 then some 0 else if v = 2 then some 1 else none

/-- R497's first rule: both report ACTIVE and none is recorded. -/
def Eval.bothActive (e : Eval) : Eval :=
  if e.recorded.isNone && e.st.reports 0 1 && e.st.reports 1 1 then
    let p := e.st.rd R.PAIR_RCFG_PREF
    (e.record p).fence (1 - p)
  else e

/-- R497's second and third rules for a member that reports ACTIVE. -/
def Eval.follow (e : Eval) (m : Nat) : Eval :=
  if !e.st.reports m 1 then e
  else match e.recorded with
    | none => e.record m
    | some r => if r = m || e.st.reports r 1 then e else e.record m

/-- R497's fourth rule: both report START. -/
def Eval.bothStart (e : Eval) : Eval :=
  if e.st.reports 0 0 && e.st.reports 1 0 then
    let p := e.st.rd R.PAIR_RCFG_PREF
    (e.cmd 1 p).cmd 2 (1 - p)
  else e

/-- R497's fifth and sixth rules for a member that reports START. -/
def Eval.start (e : Eval) (m : Nat) : Eval :=
  if !e.st.reports m 0 then e
  else
    let e := if e.st.rd R.PAIR_RCFG_ROLEWAIT ≤ (e.st.memOf (1 - m)).missed then e.cmd 1 m else e
    if e.recorded = some (1 - m) then e.cmd 2 m else e

/-- R497's last rule: the recorded active itself reports START. -/
def Eval.restartedActive (e : Eval) : Eval :=
  match e.recorded with
  | none => e
  | some r =>
    if !e.st.reports r 0 then e
    else if e.st.reports (1 - r) 2 then (e.cmd 3 (1 - r)).record (1 - r)
    else e.cmd 1 r

/-- A member's last accepted HEART showed KOFF = 1 (R566). -/
def State.koff (s : State) (m : Nat) : Bool := (s.memOf m).health.testBit 13

/-- The first rule of R492 that holds, with a recorded active r. -/
def Eval.failover (e : Eval) (r : Nat) : Eval :=
  let o := 1 - r
  let s := e.st
  let missn := s.rd R.PAIR_RCFG_MISSN
  let hwfn := s.rd R.PAIR_RCFG_HWFN
  let gone (m : Nat) : Bool := decide (missn ≤ (s.memOf m).missed)
  let ill (m : Nat) : Bool := decide (hwfn ≤ (s.memOf m).hwf) && decide (0 < (s.memOf m).hwf)
  let oh := (s.memOf o).health
  if s.reports 0 1 && s.reports 1 1 then e.fence o
  else if gone r && s.reports o 2 then e.takeover o (!s.koff r)
  else if ill r && s.reports o 2 && oh.testBit 6 && !oh.testBit 3 then e.takeover o (!s.koff r)
  else if oh % 8 == 2 && ((gone o && !s.koff o) || ill o) then e.fence o
  else if gone r then e.on (State.raiseSup · 225)
  else e

/-- REFEREE_EVALUATION (R492, R497): at cycle 0 of tick 5 of the frame, with the readbacks of the FENCE lines should they be
asserted. -/
def execRefereeEvaluation (fbA fbB : Bool) (s : State) : Out :=
  .next (if s.isReferee && s.tickN % 10 == 5 && s.pair.evalAt != s.tickN + 1 then
      let s := s.setPair { s.pair with evalAt := s.tickN + 1 }
      let s := ((s.atCycle 0).countPoll 0).countPoll 1
      let e : Eval := ⟨s, fbA, fbB, []⟩
      let e := ((e.bothActive).follow 0).follow 1
      let e := ((e.bothStart.start 0).start 1).restartedActive
      match e.recorded with
      | some r => (e.failover r).st
      | none => e.st
    else s)

/-- A write of RELA or RELB (R493). -/
def State.fenceRelease (s : State) (relA relB : Bool) : State :=
  let s := if relA && s.isReferee then s.wr R.PAIR_RSTAT_FENCEA 0 else s
  if relB && s.isReferee then s.wr R.PAIR_RSTAT_FENCEB 0 else s

/-- FENCE_RELEASE (R493). -/
def execFenceRelease (p : Port) (relA relB : Bool) (s : State) : Out := .next (s.byCore p fun s => s.fenceRelease relA relB)

end Sys2Proof.Machine
end

