-- ==== Sys2Proof/Machine/Kick.lean ====
section
/-! DEFINITION. Kick-off: image installation and verification, loading, the setup program, self-tests, stops, and kick-off
requests (21_kickoff_and_images, R553 to R566). -/

namespace Sys2Proof.Machine

/-! ## MRAM layout (R553, R554) -/

def updateArea : Nat := 0x20980000
/-- The two image slots: A (false) and B (true). -/
def slotBase (b : Bool) : Nat := if b then 0x20380000 else 0x20100000
def imageSlotBytes : Nat := 0x280000
def blockBytes : Nat := 288
def maxImage : Nat := 2621144

/-- Copy n bytes of a memory from src to dst; the two ranges do not overlap. -/
def memCopy (m : NMap Byte) (src dst n : Nat) : NMap Byte :=
  let inside (base a : Nat) : Bool := decide (base ≤ a) && decide (a < base + n)
  (m.filter (fun e => inside src e.1)).foldl (fun m e => NMap.put m (e.1 - src + dst) e.2)
    (m.filter (fun e => !inside dst e.1))

/-- SGEN of a slot; 0 with an invalid trailer (R554). -/
def slotGenOf (m : NMap Byte) (b : Bool) : Nat :=
  let t := memRead m (slotBase b + imageSlotBytes - 8) 8
  let g := t % 2 ^ 32
  if t / 2 ^ 32 = crc32c (leBytes 4 g) then g else 0

/-! ## Verification (R555 to R557, R577) -/

/-- A section entry (R555). -/
structure Section where
  kind : Nat
  part : Nat
  core : Nat
  off : Nat
  slen : Nat
  dest : Nat
deriving DecidableEq, Repr

def sectionOf (e : List Nat) : Section :=
  ⟨leAt e 0 1, leAt e 1 1, leAt e 2 1, leAt e 4 4, leAt e 8 4, leAt e 12 4⟩

/-- The entries of an image's section table. -/
def sectionBytes (bs : List Nat) : List (List Nat) :=
  (List.range (leAt bs 16 2)).map (fun i => slice bs (64 + 16 * i) 16)
def sectionsOf (bs : List Nat) : List Section := (sectionBytes bs).map sectionOf

/-- The data of a section. -/
def Section.data (x : Section) (bs : List Nat) : List Nat := slice bs x.off x.slen

/-- Condition 1: the marks, the length, and the bytes marked 0 of the header, the section entries and the block. -/
def layoutBad (bs blk : List Nat) : Bool :=
  leAt bs 0 2 != 0x4D49 || leAt bs 2 2 != 1 || decide (leAt bs 4 4 < 64) || decide (maxImage < leAt bs 4 4)
    || leAt blk 0 2 != 0x5349 || decide (2 ≤ leAt bs 18 1) || !allZero (slice bs 19 45)
    || !allZero (slice blk 137 3) || !allZero (slice blk 272 16)
    || (sectionBytes bs).any (fun e => leAt e 3 1 != 0)

/-- What the boot ROM signs or verifies: the image and block bytes 0 to 139 (R555). -/
def signedBytes (bs blk : List Nat) : List Nat := bs ++ blk.take 140
def blockOwner (blk : List Nat) : List Nat := slice blk 4 133

/-- Condition 2: which key may verify the image. -/
def State.ownerBad (s : State) (blk : List Nat) : Bool :=
  if s.trst.owner.isEmpty then leAt blk 2 1 % 2 == 0
  else leAt blk 2 1 % 2 == 1 && blockOwner blk != s.trst.owner

/-- The key that verifies: the enrolled one, or OWNER at enrolment (R520). -/
def State.bootKey (s : State) (blk : List Nat) : List Nat :=
  if s.trst.owner.isEmpty then blockOwner blk else s.trst.owner

/-- The memory a section of kinds 1 to 4 is loaded into: instruction memory or local data of a core, or the commons. -/
def Section.place (x : Section) (loader : Nat) : Option (Nat × Nat) :=
  if x.kind = 1 then some (1, x.core) else if x.kind = 2 then some (2, x.core)
  else if x.kind = 3 then some (3, 0) else if x.kind = 4 then some (1, loader) else none

/-- Do two sections overlap in one destination (R556)? -/
def Section.clash (x y : Section) (loader : Nat) : Bool :=
  (x.place loader).isSome && x.place loader == y.place loader
    && decide (x.dest < y.dest + y.slen) && decide (y.dest < x.dest + x.slen)

/-- No section clashes with a later one. -/
def apart (loader : Nat) : List Section → Bool
  | [] => true
  | x :: r => !r.any (fun y => x.clash y loader) && apart loader r

/-- PART never falls from one section to the next (R556). -/
def partsRise : List Section → Bool
  | x :: y :: r => decide (x.part ≤ y.part) && partsRise (y :: r)
  | _ => true

/-- Every area of a layout section lies among the program areas: code, 3 bytes 0, offset and size (R556). -/
def areasOk (d : List Nat) : Bool :=
  d.length % 16 == 0 && (List.range (d.length / 16)).all fun i =>
    allZero (slice d (16 * i + 1) 3) && decide (0x600000 ≤ leAt d (16 * i + 4) 4)
      && decide (leAt d (16 * i + 4) 4 + leAt d (16 * i + 8) 4 ≤ 0x980000)

/-- One entry's own rules (R555, R556, R577). -/
def Section.ok (x : Section) (bs : List Nat) (loader : Nat) : Bool :=
  let n := leAt bs 16 2
  decide (1 ≤ x.kind) && decide (x.kind ≤ 8) && decide (x.part ≤ 8) && x.off % 8 == 0
    && decide (64 + 16 * n ≤ x.off) && decide (x.off + x.slen ≤ leAt bs 4 4)
    && (if x.kind == 1 || x.kind == 2 || x.kind == 4 then decide (x.core < 16) else x.core == 0)
    && (match x.kind with
        | 1 => x.dest % 4 == 0 && decide (x.dest + x.slen ≤ 0x10000)
        | 2 => decide (x.dest + x.slen ≤ 0x10000)
        | 3 => decide (0x280000 ≤ x.dest) && decide (x.dest + x.slen ≤ commonsBytes)
        | 4 => x.dest % 4 == 0 && decide (x.dest + x.slen ≤ 0x10000) && decide (loader < 16)
        | 6 => x.dest == 0 && areasOk (x.data bs)
        | 7 => x.dest == 0 && x.slen % 8 == 0 && decide (x.slen ≤ 64)
        | 8 => x.dest == 0 && x.slen == 16 && allZero ((x.data bs).drop 3)
        | _ => x.dest == 0)

/-- Condition 5. -/
def sectionsBad (bs : List Nat) (loader : Nat) : Bool :=
  let xs := sectionsOf bs
  let n := leAt bs 16 2
  n == 0 || decide (1024 < n) || decide (leAt bs 4 4 < 64 + 16 * n)
    || !xs.all (fun x => x.ok bs loader) || !partsRise xs || !apart loader xs
    || xs.countP (fun x => x.kind == 4) != 1 || xs.countP (fun x => x.kind == 8) != 1
    || decide (64 < ((xs.filter (fun x => x.kind == 7)).map Section.slen).foldl (· + ·) 0)

/-- The loader core: the lowest-numbered checked core in service (R559). -/
def State.loaderCore (s : State) : Nat := ((List.range 16).find? (fun p => isChecked p && s.inService p)).getD 12

/-- The refusal code of the candidate at an address of the memory, 0 when it passes (R557). -/
def State.imageCode (s : State) (a : Nat) : Nat :=
  let n := memRead s.mem (a + 4) 4
  if n < 64 ∨ maxImage < n then 1
  else
    let bs := memBytes s.mem a n
    let blk := memBytes s.mem (a + n) blockBytes
    if layoutBad bs blk then 1
    else if s.ownerBad blk then 2
    else if !ecdsaVerify (s.bootKey blk) (signedBytes bs blk) (slice blk 140 132) then 3
    else if leAt bs 8 4 < s.trst.svnMin ∨ leAt bs 8 4 < leAt bs 12 4 then 4
    else if sectionsBad bs s.loaderCore then 5 else 0

/-- Bytes of a candidate with its signature block, by its LEN field. -/
def candBytes (m : NMap Byte) (a : Nat) : Nat := min (memRead m (a + 4) 4) maxImage + blockBytes

/-- Stage a candidate: the commons holds it from address 0 (R557). -/
def State.stage (s : State) (a : Nat) : State := { s with mem := memCopy s.mem a 0 (candBytes s.mem a) }

/-- Install the image of the update area, if one is there and passes; the Bool tells that it was (R554). -/
def State.install (s : State) : Bool × State :=
  if memRead s.mem updateArea 2 ≠ 0x4D49 then (false, s)
  else
    let t := s.stage updateArea
    if t.imageCode 0 ≠ 0 then (false, t)
    else
      let ga := slotGenOf t.mem false
      let gb := slotGenOf t.mem true
      let toB := decide (gb < ga)
      let g := ((if toB then ga else gb) + 1) % 2 ^ 32
      let m := memCopy t.mem updateArea (slotBase toB) (candBytes t.mem updateArea)
      let m := memWrite m (slotBase toB + imageSlotBytes - 8) 8 (g + 2 ^ 32 * crc32c (leBytes 4 g))
      (true, { t with mem := memWrite m updateArea 8 0 })

/-! ## What a kick-off resets (R14, R59, R134, R207, R356, R506) -/

/-- Register bits that outlast every kick-off where they stand: what the backup domain keeps (R475), the levels of pins and
feeds, and the stored COLD request (R566). -/
def heldMask (a : Nat) : Nat :=
  if 0x400D0000 ≤ a ∧ a < 0x400E0000 then warmMask a
  else if a = R.PAIR_STAT then 2 ^ 9
  else if a = R.FEED_STAT ∨ a = R.FEED_V then 0xFFFFFFFF
  else if a = R.DIOP_KREQ then 1
  else 0

/-- The registers as kick-off begins: every word at its cold value but for the bits held and those a warm start keeps. -/
def keptRegs (m : NMap Word) : NMap Word :=
  m.foldl (fun r e =>
    let k := BitVec.ofNat 32 (heldMask e.1 ||| warmMask e.1) &&& ~~~BitVec.ofNat 32 (benchMask e.1)
    planeSet r e.1 ((coldWord e.1 &&& ~~~k) ||| (e.2 &&& k))) []

/-- The bits of the bench state as a copy holds them (R547). -/
def benchRegs (c : BenchCopy) (m : NMap Word) : NMap Word :=
  c.regs.foldl (fun r e => planeSet r e.1 (mergeBits (planeGet r e.1) e.2 (BitVec.ofNat 32 (benchMask e.1)))) m

/-- A cold start: what a warm start would keep takes its cold value. -/
def coldRegs (m : NMap Word) : NMap Word :=
  m.foldl (fun r e =>
    let k := BitVec.ofNat 32 (warmMask e.1) &&& ~~~BitVec.ofNat 32 (heldMask e.1 ||| benchMask e.1)
    planeSet r e.1 ((e.2 &&& ~~~k) ||| (coldWord e.1 &&& k))) []

/-- A lane that is in service is idle (R239): what ran on it has ended. -/
def idleLanes (m : NMap Word) : NMap Word :=
  (List.range 5).foldl (fun r k =>
    if planeRd r (R.SOLV_LANEk_STATE k) = 0 then r else planeWr r (R.SOLV_LANEk_STATE k) 1) m

/-- The module enters kick-off, or loses its supply: nothing executes and every output is undriven. What remains is MRAM, the
backup domain, the bench state as the chosen one of its copies holds it (R547; as shipped, with no valid copy), the levels of
pins, and of the registers those that a start may keep. -/
def State.quiesce (s : State) : State :=
  let s := s.moveStopped (List.range 16)
  let c := s.bnch.stored.getD ⟨0, [], [], [], []⟩
  { s with toBody := { Body.reset with
      free := s.free, readData := s.readData, sent := s.sent, regs := idleLanes (benchRegs c (keptRegs s.regs)),
      mem := s.mem.filter (fun e => decide (mramBase ≤ e.1) && decide (e.1 < mramBase + mramBytes)),
      cmns := { CmnsS.init with rowSub := c.rowSub }, solv := { SolvS.init with vacant := c.vacant },
      bnch := { BnchS.init with worn := c.worn, copyA := s.bnch.copyA, copyB := s.bnch.copyB }, rtcb := s.rtcb, trst := s.trst } }

/-! ## The sequence (R558 to R563) -/

/-- A failed part takes its spare, if there is one, or kick-off stops (R561). -/
def State.kickPart (s : State) (kind unit step hwc : Nat) : State :=
  if s.phase == .halted then s
  else if kind != 0 && decide (unit < benchUnits kind) && s.hasSpare kind unit then
    let s := if kind = 3 then
        { (s.inc (R.CMNS_BANKb_BROWS (unit / 256))) with cmns := { s.cmns with
            rowSub := NMap.set 0 s.cmns.rowSub unit (s.rd (R.CMNS_BANKb_BROWS (unit / 256)) + 1) } }
      else s
    let s := (s.substitute kind (if kind = 1 then s.dutyOf unit else unit)).raiseSup 246
    (s.setBnch { s.bnch with pauseCore := 0, pauseUntil := 0 }).saveBench
  else s.kickStop step 8 hwc 0

/-- Step 4, the memory test (R558, R561). -/
def State.memoryTest (s : State) (k : KickIn) : State :=
  let s := k.rows.foldl (fun s r => s.kickPart (if r.1 then 3 else 4) r.2.toNat 4 2) s
  if k.memBad && s.phase != .halted then s.kickStop 4 8 2 0 else s

/-- The duty's core: sections name cores as the image knows them (R547). -/
def State.loadBytes (s : State) (core : Nat) (f : CoreS → CoreS) : State :=
  s.setCore (s.physOf core) (f (s.core (s.physOf core)))

/-- Load one section before setup (R556): kinds 1, 3, 4 and 8. -/
def State.loadSection (bs : List Nat) (loader : Nat) (s : State) (x : Section) : State :=
  let d := x.data bs
  if x.kind = 1 then s.loadBytes x.core (fun c => { c with imem := memPutBytes c.imem x.dest d })
  else if x.kind = 3 then { s with mem := memPutBytes s.mem x.dest d }
  else if x.kind = 4 then s.setCore loader { s.core loader with imem := memPutBytes (s.core loader).imem x.dest d }
  else if x.kind = 8 then s.wr R.DIOP_SAFE_DOSAFE (leAt d 0 3)
  else s

/-- A candidate is accepted (R557, R520, R563): measured and enrolled, its sections loaded, the start kind decided, and the
loader core started on the setup program (R559). -/
def State.bootImage (s : State) (slotB newimg : Bool) : State :=
  let n := memRead s.mem 4 4
  let bs := memBytes s.mem 0 n
  let blk := memBytes s.mem n blockBytes
  let fresh := s.trst.owner.isEmpty
  let s := s.extendMr 0 (signedBytes bs blk)
  let s := if fresh then
      let t := s.enrol (blockOwner blk)
      t.setTrst { t.trst with owed := t.trst.owed ++ [(233, none)] }
    else s
  let s := (s.setTrst { s.trst with svnMin := max s.trst.svnMin (leAt bs 12 4) }).wr R.TRST_SVN_SVN (leAt bs 8 4)
  let s := s.showTrust
  let warm := leAt bs 18 1 % 2 == 1 && !s.rdBit R.DIOP_KREQ_COLD
  let s := if warm then s else { s with regs := coldRegs s.regs }
  let s := ((s.wr R.DIOP_KREQ_COLD 0).wrBit R.DIOP_KREQ_SLOT slotB).wrBit R.DIOP_KREQ_NEWIMG newimg
  let s := (s.wrBit R.DIOP_RSTAT_LKIND warm).wr R.DIOP_RSTAT_WHOLD 1
  let loader := s.loaderCore
  let xs := sectionsOf bs
  let s := xs.foldl (State.loadSection bs loader) s
  let late := (xs.filter (fun x => x.kind == 2)).map (fun x => (x.core, x.dest, x.data bs))
  let entry := ((xs.find? (fun x => x.kind == 4)).map Section.dest).getD 0
  let s := s.setRst { s.rst with late := late, loader := some loader, holds := [(1, 1000), (8, 1000)] }
  let s := s.setCore loader { s.core loader with on := true, pc := entry }
  { s with phase := .setup }.showForced

/-- Step 5: the slot with the greater SGEN, then the other (R554); with both refused, kick-off stops with code 6. -/
def State.bootSlots (s : State) : State :=
  let i := s.install
  let s := i.2
  let first := decide (slotGenOf s.mem false < slotGenOf s.mem true)
  let t := s.stage (slotBase first)
  let c := t.imageCode 0
  if c = 0 then t.bootImage first i.1
  else
    let t := s.stage (slotBase (!first))
    if t.imageCode 0 = 0 then t.bootImage (!first) i.1 else t.kickStop 5 6 7 c

/-- A feed in band (R569). -/
def inBand (v : Nat) : Bool := decide (1800 ≤ v) && decide (v ≤ 3200)
/-- A feed voltage at which the module is neither specified to run nor to withstand (R569, R17), in 10 mV. -/
def overVoltage (v : Nat) : Bool := decide (4000 < v)

/-- Show the feeds as kick-off finds them (R570). -/
def State.showFeeds (s : State) (va vb : Nat) : State :=
  let s := (s.wrBit R.FEED_STAT_APRES (decide (1750 ≤ va))).wrBit R.FEED_STAT_BPRES (decide (1750 ≤ vb))
  let s := (s.wrBit R.FEED_STAT_AOOB (!inBand va)).wrBit R.FEED_STAT_BOOB (!inBand vb)
  (s.wr R.FEED_V_VA va).wr R.FEED_V_VB vb

/-- POWER_GOOD_KICK_OFF (R558): from no supply, or after a kick-off request, once one feed is in band; no manual value
stands behind a feed above 40 V (R17, R569). -/
def execPowerGoodKickOff (k : KickIn) (s : State) : Out :=
  if overVoltage k.va || overVoltage k.vb then .fault .outsideConditions
  else .next (
    if s.phase == .off && (inBand k.va || inBand k.vb) then
      let s := (s.quiesce.showFeeds k.va k.vb).wr R.PAIR_STAT_STRAP k.strap.val
      let s := s.setPair { s.pair with strapIn := k.strap.val }
      let s := s.recorderKick
      let s := s.trustKickOff k.pufBadA k.pufBadB k.pufOk k.pufCorr.val
      let s := s.memoryTest k
      if s.phase == .halted then s else s.bootSlots
    else s)

/-- SETUP_TIMEOUT (R559): 1,200,000,000 cycles without the tier-form WTK. -/
def execSetupTimeout (s : State) : Out := .next (if s.phase == .setup then s.kickStop 6 7 7 0 else s)

/-- The setup program ends (R559): the loader core stops executing, and kind 2 is loaded (R556). -/
def State.endSetup (s : State) : State :=
  let s := match s.rst.loader with
    | none => s
    | some p =>
      let c := s.core p
      s.setCore p { CoreS.off with imem := c.imem, dmem := c.dmem, imemErr := c.imemErr, dmemErr := c.dmemErr,
                                   tickh := c.tickh, efrac := c.efrac, cwra := c.cwra, blda := c.blda, wcode := c.wcode,
                                   wp0 := c.wp0, wp1 := c.wp1 }
  let s := s.rst.late.foldl (fun s x =>
    s.loadBytes x.1 (fun c => { c with dmem := memPutBytes c.dmem x.2.1 x.2.2 })) s
  { (s.setRst { s.rst with late := [], loader := none }) with phase := .ready }

/-- The bench resource behind a self-test (R561); 0 for none. -/
def selfTestKind : SelfTest → Nat
  | .checker => 1
  | .lane => 2
  | .pll => 6
  | .readback => 7
  | _ => 0

/-- HWC of a self-test that fails (R561). -/
def selfTestHwc : SelfTest → Nat
  | .checker => 1
  | .lane => 6
  | .pll => 4
  | .supply => 5
  | _ => 7

/-- Step 7, the logic self-tests (R561). -/
def State.selfTests (s : State) (failed : List (SelfTest × BitVec 16)) : State :=
  failed.foldl (fun s f => s.kickPart (selfTestKind f.1) f.2.toNat 7 (selfTestHwc f.1)) s

/-- CORE_START_TICK_ZERO (R55): every bound core in service starts at its ENTRY. -/
def execCoreStartTickZero (s : State) : Out :=
  .next (if s.ticking && s.tickN == 0 then
      (List.range 16).foldl (fun s p =>
        if s.inService p && s.partOf p != 0 && !(s.core p).on && !(s.core p).stopped then
          (s.clearEvents (s.dutyOf p)).startCore p (4 * s.rd (R.CORE_nENTRY_ENTRY p))
        else s) (s.atCycle Config.changeover)
    else s)

/-! ## Kick-off requests (R566) -/

/-- A write to `DIOP_KREQ`. -/
def State.kreqWrite (s : State) (key : Nat) (cold kick : Bool) : State :=
  if key ≠ 0x4B1C then s.wr R.DIOP_KREQ_ERR 1
  else if !s.ticking then s.wr R.DIOP_KREQ_ERR 3
  else
    let s := s.wrBit R.DIOP_KREQ_COLD cold
    if !kick then s.wr R.DIOP_KREQ_ERR 0
    else if s.isMember && s.rd R.PAIR_STAT_STATE == 2 then s.wr R.DIOP_KREQ_ERR 2
    else (s.wr R.DIOP_KREQ_ERR 0).setRst { s.rst with kick := some (s.rst.kick.getD s.nextRound) }

/-- KICK_OFF_REQUEST (R566). -/
def execKickOffRequest (p : Port) (key : BitVec 16) (cold kick : Bool) (s : State) : Out :=
  .next (s.byCore p fun s =>
    (s.hold R.DIOP_KREQ (65536 * key.toNat)).kreqWrite key.toNat cold kick)

/-- REQUESTED_KICK_OFF (R566): at the edge of tick H the module enters kick-off; an ACTIVE member whose standby is fit first
sends HANDOVER. The sequence itself is POWER_GOOD_KICK_OFF. -/
def execRequestedKickOff (s : State) : Out :=
  .next (match s.rst.kick with
    | none => s
    | some h =>
      if s.ticking && decide (h ≤ s.tickN) then
        let s := s.atCycle 0
        let s := if s.pstate == 1 && s.isMember && s.standbyFit then s.rioftControl 2 h else s
        s.quiesce
      else s)

end Sys2Proof.Machine
end

