-- ==== Sys2Proof/Machine/BlockWrite.lean ====
section
/-! DEFINITION. A store to the block windows (R6 to R15, R65, R589): what each covered field takes by its class and access
code, the refusal of a running seal group (R8), and the actions that registers carry. -/

namespace Sys2Proof.Machine

/-! ## The words of an access -/

/-- The part of a store that falls in one 32-bit word: its device address, the bits covered, and the value in them. -/
structure WordWr where
  addr : Nat
  mask : Word
  val : Word
deriving DecidableEq, Repr

/-- The bits of its 32-bit word that an access of n bytes at a covers. -/
def laneMask (a n : Nat) : Word := if 4 ≤ n then 0xFFFFFFFF else BitVec.ofNat 32 ((2 ^ (8 * n) - 1) * 2 ^ (8 * (a % 4)))

/-- The 32-bit words an aligned access covers (R65). -/
def coveredWords (a n : Nat) : List Nat := if n = 8 then [a, a + 4] else [a / 4 * 4]

/-- The words of a store of the n low bytes of v at a. -/
def storeWords (a n v : Nat) : List WordWr :=
  if n = 8 then [⟨a, 0xFFFFFFFF, BitVec.ofNat 32 v⟩, ⟨a + 4, 0xFFFFFFFF, BitVec.ofNat 32 (v / 2 ^ 32)⟩]
  else [⟨a / 4 * 4, laneMask a n, BitVec.ofNat 32 (v * 2 ^ (8 * (a % 4))) &&& laneMask a n⟩]

/-- Every word of the access has a register (R65). -/
def namesRegisters (a n : Nat) : Bool := (coveredWords a n).all (fun w => (findReg w).isSome)

/-! ## Fields by class and access code (R6, R7, R10, R12, R589) -/

/-- Registers whose writes act through an operation of their block alone. -/
def hookOnly (base : Nat) : Bool :=
  [R.FUSA_REFr_OFF 0, R.FUSA_REFr_GAIN 0, R.LOOP_CWRA, R.LOOP_BLDA, R.PTPT_FADJ, R.RECD_WCODE, R.RECD_WP0, R.RECD_WP1,
   R.DIOP_KREQ].contains base

/-- A store's effect on the fields of one word: live fields take the value, sealed ones collect it, banked ones take it in
the shadow bank, and W1C bits written 1 clear, but for those that hardware sets in the same cycle (R13); the rest is
ignored. -/
def State.fieldWrite (s : State) (w : WordWr) : State :=
  match findReg w.addr with
  | none => s
  | some h =>
    let wo := woMask w.addr &&& w.mask
    let s := if wo == 0 then s else s.setWord w.addr (mergeBits (s.word w.addr) w.val wo)
    if hookOnly h.fam.base then s else
    let rw (c : FClass) (f : FieldDef) : Bool := f.acc == .rw && f.cls == c
    let live := (h.bits (rw .live) ||| h.bits (rw .status)) &&& w.mask
    let sea := h.bits (rw .sealed) &&& w.mask
    let bank := h.bits (rw .banked) &&& w.mask
    let ones := h.bits (fun f => f.acc == .w1c) &&& w.mask &&& w.val &&& ~~~s.hwBits w.addr
    let s := if (h.bits (rw .live) &&& w.mask ||| bank) == 0 then s
      else s.noteWrote w.addr (h.bits (rw .live) &&& w.mask) bank w.val
    let s := if (live ||| ones) == 0 then s else s.setWord w.addr (mergeBits (s.word w.addr) w.val live &&& ~~~ones)
    let s := if sea == 0 then s else
      { s with coll := NMap.put s.coll w.addr (mergeBits ((s.coll.at? w.addr).getD (s.word w.addr)) w.val sea) }
    if bank == 0 then s else
      { s with shadow := planeSet s.shadow w.addr (mergeBits (planeGet s.shadow w.addr) w.val bank) }

/-! ## Running seal groups (R8) -/

/-- A metering unit's seal group. -/
def unitOf (g : Grp) (i : Nat) : MeterUnit :=
  match g with
  | .metrGrp => .group (Fin.ofNat 4 i)
  | .metrTc => .calc (Fin.ofNat 8 i)
  | .metrPo => .output (Fin.ofNat 16 i)
  | _ => .block

/-- Is element i of a seal group running? -/
def State.groupRuns (s : State) (g : Grp) (i : Nat) : Bool :=
  match g with
  | .tierJob => (s.job i).run
  | .coreBind | .pair | .pairR => s.ticking
  | .fusaSbase => s.fusaRun
  | .qmGen => s.qmRunning i
  | .loopOut => s.rd R.LOOP_STAT_NRUN != 0
  | .inj => s.injActive i
  | .cap => s.rdBit R.LOOP_CAPSTAT_ACT
  | .loopDesc => s.loopRun i
  | .axis => s.rdBit (R.AXIS_aCTRL_EN i)
  | .can => s.canRun i
  | .metrBlk | .metrGrp | .metrTc | .metrPo => s.unitRuns (unitOf g i)
  | .adcs => s.adcRun
  | .safe => s.chState != 0
  | .ethnPort => s.rdBit (R.ETHN_iCTRL_EN (if i = 4 then 2 else i % 2))
  | .ethn => s.rdBit (R.ETHN_iCTRL_EN i)
  | .moni => s.rdBit (R.MONI_mCTRL_EN i)

/-- The block's seal-refused event for a write by core p. -/
def State.groupRefused (s : State) (g : Grp) (i p : Nat) : State :=
  match g with
  | .tierJob | .coreBind => s.raiseCore 14 p
  | .fusaSbase | .qmGen => s.raiseCore 89 p
  | .loopOut | .inj | .cap | .loopDesc => s.raiseCore 99 p
  | .axis => s.axisRefused i
  | .can => s.canEvent i 7
  | .metrBlk | .metrGrp | .metrTc | .metrPo => s.unitRefused (unitOf g i)
  | .adcs => s.raiseCore 175 p
  | .safe => s.raiseCore 185 p
  | .ethnPort | .ethn => s.raiseCore 204 p
  | .pair | .pairR => s.raiseCore 227 p
  | .moni => s.raiseCore 238 p

/-- The group and element a word belongs to, if it belongs to one that runs. -/
def State.runningGroup (s : State) (a : Nat) : Option (Grp × Nat) :=
  match findReg a with
  | none => none
  | some h =>
    match h.fam.grp with
    | none => none
    | some g => if s.groupRuns g h.i then some (g, h.i) else none

/-! ## Actions -/

/-- Set the per-core latch of a core. -/
def State.onCore (s : State) (p : Nat) (f : CoreS → CoreS) : State := s.setCore p (f (s.core p))

def State.tierAction (s : State) (p : Nat) (h : RegHit) (w : WordWr) : State :=
  if h.fam.base = R.TIER_JOBn_SEAL 0 then s.when (w.val.toNat.testBit 0) (State.jobSeal · h.i p)
  else if h.fam.base = R.TIER_JOBn_CTRL 0 then s.settleJob h.i
  else s

def State.coreAction (s : State) (p : Nat) (h : RegHit) (w : WordWr) : State :=
  s.when (h.fam.base == R.CORE_nSEAL 0 && w.val.toNat.testBit 0) (State.bindSeal · h.i p)

def State.cmnsAction (s : State) (p : Nat) (h : RegHit) (w : WordWr) : State :=
  s.when (h.fam.base == R.CMNS_CKkCMD 0 && w.val.toNat % 4 != 0) (State.ckStart · (w.val.toNat % 4) h.i p)

def State.solvAction (s : State) (h : RegHit) (w : WordWr) : State :=
  if h.fam.base = R.SOLV_CANCEL then
    s.solvCancel (bitsOf (s.word w.addr).toNat 15 0) ((s.word w.addr).toNat.testBit 16) (w.val.toNat.testBit 17)
  else s

/-- A write that covers ACT (R161): the named generation is running from now on, and what was collected for it is dropped
(R8). -/
def State.selWrite (s s0 : State) : State :=
  ((s.setQm { s.qm with actWritten := true }).qmStarts s0).showFree

def State.fusaAction (s s0 : State) (p : Nat) (h : RegHit) (w : WordWr) : State :=
  let b := h.fam.base
  let go := w.val.toNat.testBit 0
  if b = R.FUSA_SEAL then s.when go (State.fusaSeal · p)
  else if b = R.FUSA_AkCMD 0 then
    let op := w.val.toNat % 4
    s.when (op == 1 || op == 2) (State.assistStart · op h.i p)
  else if b = R.FUSA_QMg_SEAL 0 then s.when go (State.qmSealStart · h.i p)
  else if b = R.FUSA_QM_SEL then s.when (w.mask.toNat.testBit 0) (State.selWrite · s0)
  else if b = R.FUSA_REFr_OFF 0 then s.calStore h.i false (mergeBits (s.word w.addr) w.val w.mask).toNat
  else if b = R.FUSA_REFr_GAIN 0 then s.calStore h.i true (mergeBits (s.word w.addr) w.val w.mask).toNat
  else s

def State.loopAction (s : State) (p : Nat) (h : RegHit) (w : WordWr) : State :=
  let b := h.fam.base
  let x := w.val.toNat
  if b = R.LOOP_OSEAL then s.when (x.testBit 0) (State.loopOseal · p)
  else if b = R.LOOP_CWRA then s.onCore p fun c => { c with cwra := mergeBits c.cwra w.val w.mask &&& 0x7FFFF }
  else if b = R.LOOP_CWRV then s.consoleQueue (s.word w.addr).toNat p
  else if b = R.LOOP_BLDA then s.onCore p fun c => { c with blda := mergeBits c.blda w.val w.mask &&& 0x3FF }
  else if b = R.LOOP_BLDADDR then s.setLoadQueue (s.word w.addr).toNat p
  else if b = R.LOOP_INJk_SEAL 0 then s.when (x.testBit 0) (State.injSeal · h.i p)
  else if b = R.LOOP_INJk_CTRL 0 then
    (s.when (x.testBit 0) (State.injStart · h.i p)).when (x.testBit 1) (State.injStop · h.i)
  else if b = R.LOOP_CAPSEAL then s.when (x.testBit 0) (State.capSeal · p)
  else if b = R.LOOP_CAPCTRL then
    (s.when (x.testBit 0) (State.capBegin · (some (s.dutyOf p)))).when (x.testBit 1) State.capStop
  else if b = R.LOOP_nSEAL 0 then s.when (x.testBit 0) (State.loopSeal · h.i p)
  else if b = R.LOOP_nCTRL 0 then s.when (x.testBit 1) (State.loopRack · h.i)
  else if b = R.LOOP_nMODE 0 ∨ b = R.LOOP_nSP 0 ∨ b = R.LOOP_nMANOUT 0 then s.wrLater (R.LOOP_nBANK_DIRTY h.i) 1
  else if b = R.LOOP_nBANK 0 then s.when (x.testBit 0) (State.loopCommit · h.i)
  else s

def State.axisAction (s s0 : State) (h : RegHit) (w : WordWr) : State :=
  let b := h.fam.base
  let x := w.val.toNat
  let en := R.AXIS_aCTRL_EN h.i
  if b = R.AXIS_aSEAL 0 then s.when (x.testBit 0) (State.axisSeal · h.i)
  else if b = R.AXIS_aCTRL 0 then
    ((s.when (!s0.rdBit en && s.rdBit en) (State.discardColl · 6 .axis (some h.i))).when (x.testBit 1)
      (State.axisClr · h.i)).when (x.testBit 2) (State.axisCommit · h.i)
  else if b = R.AXIS_aSETP 0 then s.axisSetp h.i (s.word w.addr).toNat
  else s

def State.canAction (s : State) (p : Nat) (h : RegHit) (w : WordWr) : State :=
  let b := h.fam.base
  let x := w.val.toNat
  let obj := (w.mask &&& 0x1FFF) != 0
  let y := (s.word w.addr).toNat
  if b = R.CANB_cSEAL 0 then s.when (x.testBit 0) (State.canSeal · h.i p)
  else if b = R.CANB_cCTRL 0 then (s.canSample h.i).when (x.testBit 2) (State.canRecovWrite · h.i)
  else if b = R.CANB_cTXREQ 0 then s.when obj (State.canTxReq · h.i (y % 8192) (y.testBit 13))
  else if b = R.CANB_cTXCAN 0 then s.when obj (State.canTxCan · h.i (y % 8192))
  else s

/-- The seal groups of metering that a write has set running drop what was collected for them (R8). -/
def State.unitStarts (s s0 : State) : State :=
  let us : List (Grp × Nat) := (Grp.metrBlk, 0) :: (List.range 4).map (fun g => (Grp.metrGrp, g))
    ++ (List.range 8).map (fun c => (Grp.metrTc, c)) ++ (List.range 16).map (fun o => (Grp.metrPo, o))
  us.foldl (fun s u => s.when (!s0.groupRuns u.1 u.2 && s.groupRuns u.1 u.2) (State.discardColl · 8 u.1 (some u.2))) s

def State.metrAction (s s0 : State) (p : Nat) (h : RegHit) (w : WordWr) : State :=
  let b := h.fam.base
  let x := w.val.toNat
  let sealU (s : State) (u : MeterUnit) : State := s.when (x.testBit 0) (State.meterSeal · u)
  if b = R.METR_CTRL then
    ((s.unitStarts s0).when (x.testBit 2) (State.meterOp · 1 p)).when (x.testBit 3) (State.meterOp · 2 p)
  else if b = R.METR_POEN ∨ b = R.METR_TCc_CTRL 0 then s.unitStarts s0
  else if b = R.METR_GgCTRL 0 then (s.unitStarts s0).when (x.testBit 1) (State.grpCommit · h.i)
  else if b = R.METR_SEAL then sealU s .block
  else if b = R.METR_GgSEAL 0 then sealU s (unitOf .metrGrp h.i)
  else if b = R.METR_TCc_SEAL 0 then sealU s (unitOf .metrTc h.i)
  else if b = R.METR_POo_SEAL 0 then sealU s (unitOf .metrPo h.i)
  else s

/-- A write to `ADCS_CALCMD` (R415). -/
def State.calCmd (s : State) (x p : Nat) : State :=
  if bitsOf x 9 8 = 3 then s.calCompute (bitsOf x 5 0) (bitsOf x 6 6) p
  else s.calCapture (bitsOf x 5 0) (bitsOf x 6 6) (bitsOf x 9 8) (bitsOf x 14 10) p

def State.adcsAction (s s0 : State) (p : Nat) (h : RegHit) (w : WordWr) : State :=
  let b := h.fam.base
  let x := w.val.toNat
  let y := (s.word w.addr).toNat
  if b = R.ADCS_CTRL then (s.when (x.testBit 2) (State.calStoreReq · p)).when (x.testBit 3) (State.calLoadReq · p)
  else if b = R.ADCS_SEAL then s.when (x.testBit 0) (State.adcSeal · p)
  else if b = R.ADCS_URG then s.when ((w.mask &&& 0x7F) != 0) (State.urgent · (bitsOf y 5 0) (bitsOf y 6 6) p)
  else if b = R.ADCS_CALCMD then s.when ((w.mask &&& 0x300) != 0) (State.calCmd · y p)
  else if b = R.ADCS_CALCOMMIT then s.when ((w.mask &&& 0x3F) != 0) (State.calCommit · (y % 64) p)
  else if b = R.ADCS_WINn_LO 0 ∨ b = R.ADCS_WINn_HI 0 then s.windowWrite s0 h.i
  else if b = R.ADCS_MMRSTL then s.trackerReset false x
  else if b = R.ADCS_MMRSTH then s.trackerReset true x
  else s

def State.safeAction (s : State) (p : Nat) (h : RegHit) (w : WordWr) : State :=
  let x := w.val.toNat
  if h.fam.base = R.SAFE_CTRL then
    let s := s.when (x.testBit 0) State.trip
    let s := (List.range 8).foldl (fun s c => s.when (x.testBit (8 + c)) (State.bextisSend · c (R.SAFE_CONc_TXj c 0))) s
    s.when ((w.mask &&& 0xFFFF0000) != 0) (State.armWrite · (bitsOf (s.word w.addr).toNat 31 16) p)
  else if h.fam.base = R.SAFE_SEAL then s.when (x.testBit 0) (State.safeSeal · p)
  else if h.fam.base = R.SAFE_OUT ∨ h.fam.base = R.SAFE_REQ then s.cmdWrite
  else if [R.SAFE_OVMASKA, R.SAFE_OVMASKB, R.SAFE_OVRA, R.SAFE_OVRB].contains h.fam.base then s.settleTrips
  else s

def State.ethnAction (s s0 : State) (p : Nat) (h : RegHit) (w : WordWr) : State :=
  let x := w.val.toNat
  let en := R.ETHN_iCTRL_EN h.i
  if h.fam.base = R.ETHN_iSEAL 0 then s.when (x.testBit 0) (State.ethSeal · h.i p)
  else if h.fam.base = R.ETHN_iCTRL 0 then
    (s.when (!s0.rdBit en && s.rdBit en) (State.ethColl · h.i false)).when (x.testBit 2) (State.kick · h.i)
  else s

def State.ptptAction (s : State) (p : Nat) (h : RegHit) (w : WordWr) : State :=
  if h.fam.base = R.PTPT_FADJ then s.fadjWrite (mergeBits (s.word w.addr) w.val w.mask).toInt
  else if h.fam.base = R.PTPT_STEP then s.stepWrite (s.word w.addr).toInt p
  else s

def State.pairAction (s : State) (p : Nat) (h : RegHit) (w : WordWr) : State :=
  let b := h.fam.base
  let x := w.val.toNat
  if b = R.PAIR_SEAL then s.when (x.testBit 0) (State.pairSeal · false p)
  else if b = R.PAIR_RSEAL then s.when (x.testBit 0) (State.pairSeal · true p)
  else if b = R.PAIR_CTRL then
    ((s.when (x.testBit 0) (State.handoverWrite · p)).when (x.testBit 1) (State.resyncWrite · p)).when (x.testBit 2)
      (State.soloWrite · p)
  else if b = R.PAIR_RCTRL then s.when (x % 4 != 0) (State.fenceRelease · (x.testBit 0) (x.testBit 1))
  else s

def State.recdAction (s : State) (p : Nat) (h : RegHit) (w : WordWr) : State :=
  let b := h.fam.base
  if b = R.RECD_WCODE then s.onCore p fun c => { c with wcode := mergeBits c.wcode w.val w.mask &&& 0x7FFFF }
  else if b = R.RECD_WP0 then s.onCore p fun c => { c with wp0 := mergeBits c.wp0 w.val w.mask }
  else if b = R.RECD_WP1 then s.onCore p fun c => { c with wp1 := mergeBits c.wp1 w.val w.mask }
  else if b = R.RECD_WGO then s.when (w.val.toNat.testBit 0) (State.recordGo · p)
  else s

def State.moniAction (s s0 : State) (p : Nat) (h : RegHit) (w : WordWr) : State :=
  let b := h.fam.base
  let en := R.MONI_mCTRL_EN h.i
  if b = R.MONI_mSEAL 0 then s.when (w.val.toNat.testBit 0) (State.monitorSeal · h.i p)
  else if b = R.MONI_mCTRL 0 then s.when (!s0.rdBit en && s.rdBit en) (State.discardColl · 17 .moni (some h.i))
  else if b = R.MONI_mPUT 0 then s.monitorPut h.i (s.word w.addr)
  else s

def State.diopAction (s s0 : State) (h : RegHit) (w : WordWr) : State :=
  let x := w.val.toNat
  if h.fam.base = R.DIOP_DOUT then (s.doutWrite (s0.word R.DIOP_DOUT)).settleTrips
  else if h.fam.base = R.DIOP_RST then s.rstWrite (mergeBits (w.val &&& 0xF00) (s.word w.addr) 0x3F)
  else if h.fam.base = R.DIOP_KREQ then
    s.kreqWrite (bitsOf (s.word w.addr).toNat 31 16) (if w.mask.toNat.testBit 0 then x.testBit 0 else s.rdBit R.DIOP_KREQ_COLD) (x.testBit 1)
  else s

def State.bnchAction (s : State) (p : Nat) (h : RegHit) (w : WordWr) : State :=
  let y := (s.word w.addr).toNat
  s.when (h.fam.base == R.BNCH_REQ && w.val.toNat.testBit 31) (State.benchReq · (bitsOf y 3 0) (bitsOf y 19 4) p)

/-- The actions that a written word triggers; s0 is the state before the store. -/
def State.action (s0 : State) (p : Nat) (s : State) (w : WordWr) : State :=
  match findReg w.addr with
  | none => s
  | some h =>
    match (w.addr - 0x40000000) / 0x10000 with
    | 0 => s.tierAction p h w
    | 1 => s.coreAction p h w
    | 2 => s.cmnsAction p h w
    | 3 => s.solvAction h w
    | 4 => s.fusaAction s0 p h w
    | 5 => s.loopAction p h w
    | 6 => s.axisAction s0 h w
    | 7 => s.canAction p h w
    | 8 => s.metrAction s0 p h w
    | 9 => s.adcsAction s0 p h w
    | 10 => s.safeAction p h w
    | 11 => s.ethnAction s0 p h w
    | 12 => s.ptptAction p h w
    | 14 => s.pairAction p h w
    | 16 => s.recdAction p h w
    | 17 => s.moniAction s0 p h w
    | 18 => s.diopAction s0 h w
    | 21 => s.bnchAction p h w
    | _ => s

/-! ## The store -/

/-- Before tick 0, a write that names a retired core goes to the core that holds its duty (R547). -/
def State.heir (s : State) (n : Nat) : Nat := if !s.ticking && s.wornOf 1 n == 2 then s.physOf n else n

def State.redirect (s : State) (w : WordWr) : WordWr :=
  match findReg w.addr with
  | none => w
  | some h =>
    if [R.CORE_nBIND 0, R.CORE_nENTRY 0, R.CORE_nSEAL 0, R.CORE_nVEC 0].contains h.fam.base then
      { w with addr := h.fam.base + 0x100 * s.heir h.i }
    else if h.fam.base = R.TIER_JOBn_CFG 0 ∧ w.mask.toNat.testBit 24 then
      { w with val := BitVec.ofNat 32 (putBits w.val.toNat 27 24 (s.heir (bitsOf w.val.toNat 27 24))) }
    else w

/-- A store to the RTCB window (R467): its writable words cross into the domain together; bits the store does not cover
keep the value in effect, of SET the count's. -/
def State.rtcbStore (s : State) (p : Nat) (ws : List WordWr) : State :=
  let word (w : WordWr) : Option (Nat × Nat) :=
    if w.addr = R.RTCB_SET ∨ w.addr = R.RTCB_SET + 4 then
      some (w.addr, (mergeBits (s.word (R.RTCB_TIME + (w.addr - R.RTCB_SET))) w.val w.mask).toNat)
    else if w.addr = R.RTCB_CMD ∨ w.addr = R.RTCB_ASTAT then some (w.addr, w.val.toNat)
    else if w.addr = R.RTCB_TRIM ∨ w.addr = R.RTCB_PON ∨ (R.RTCB_ALMk 0 ≤ w.addr ∧ w.addr < R.RTCB_ALMk 2) then
      some (w.addr, (mergeBits (s.word w.addr) w.val w.mask).toNat)
    else none
  let xs := ws.filterMap word
  if xs.isEmpty && !s.rdBit R.RTCB_STAT_BUSY then s else s.rtcbWrite xs p

def inWindow (k a : Nat) : Bool := decide (0x40000000 + 0x10000 * k ≤ a) && decide (a < 0x40000000 + 0x10000 * (k + 1))

/-- A store of the n low bytes of v at device address a, which names registers, by physical core p, in the present cycle. -/
def State.blockStore (s : State) (p a n v : Nat) : State :=
  let s := s.when (inWindow 9 a) State.settleCommits
  let ws := (storeWords a n v).map s.redirect
  if a / 8 * 8 = R.FUSA_SMP then s.sampleStore p n v
  else if inWindow 13 a then s.rtcbStore p ws
  else
    let own := ws.filter (fun w => !inWindow 10 w.addr || s.safeMay p w.addr)
    let s1 := s.when (decide (own.length < ws.length)) State.safeForeign
    let bad := (own.filterMap (fun w => s.runningGroup w.addr)).eraseDups
    let good := own.filter (fun w => (s.runningGroup w.addr).isNone)
    let s2 := bad.foldl (fun t g => t.groupRefused g.1 g.2 p) s1
    let s3 := good.foldl State.fieldWrite s2
    good.foldl (State.action s p) s3

/-- REGISTER_WRITE (R5, R6): a store of a program that reached a block register. -/
def execRegisterWrite (p : Port) (addr : BitVec 32) (size : Size) (v : DWord) (s : State) : Out :=
  .next (
    let n := size.bytes
    if addr.toNat % n == 0 && namesRegisters addr.toNat n then
      s.byCore p fun s => s.blockStore p.core.val addr.toNat n (v.toNat % 2 ^ (8 * n))
    else s)

/-- TIER_JOB_SEAL (R45): a write of GO. -/
def execTierJobSeal (p : Port) (n : Fin 128) (s : State) : Out := .next (s.byCore p fun s => s.jobSeal n.val p.core.val)

/-- CORE_BIND_SEAL (R54): a write of GO. -/
def execCoreBindSeal (p : Port) (n : Fin 16) (s : State) : Out :=
  .next (s.byCore p fun s => s.bindSeal (s.heir n.val) p.core.val)

end Sys2Proof.Machine
end

