-- ==== Sys2Proof/Machine/BlockRead.lean ====
section
/-! DEFINITION. A load from the block windows (R12, R44, R65, R589): values computed when read, RC fields and latches. -/

namespace Sys2Proof.Machine

/-- `CORE_nSTAT` (R80). A core that waits in trap mode shows 2, waiting: the table gives both and no order (DEDUCED:
notes/assumptions/15). -/
def State.coreStat (s : State) (n : Nat) : Nat :=
  let c := s.core n
  let st := if s.inSync then 0 else if c.stopped then 4 else if !c.on then 0 else if c.wait != .none then 2 else if c.trapMode then 3 else 1
  st + 8 * b2n (s.inService n) + 16 * b2n (isChecked n) + 2 ^ 8 * c.rstack.length + 2 ^ 13 * c.lstack.length

/-- A word in effect, or what an input register still shows before cycle 64 (R425, R578, R579). -/
def State.shownWord (s : State) (a : Nat) : Word :=
  if s.cycle < 64 then (NMap.get none s.diop.early a).getD (s.word a) else s.word a

/-- The word at a register's address as core p reads it in the present cycle. -/
def State.readWord (s : State) (p a : Nat) : Nat :=
  match findReg a with
  | none => 0
  | some h =>
    let b := h.fam.base
    let c := s.core p
    let half (v : Nat) : Nat := if 4 ≤ h.byte then v / 2 ^ 32 % 2 ^ 32 else v % 2 ^ 32
    let v : Nat :=
      if b = R.TIER_TICKLO then s.tickN % 2 ^ 32
      else if b = R.TIER_TICKHI then c.tickh.toNat
      else if b = R.TIER_PHASE then s.tickN % 10 + 2 ^ 4 * (s.tickN / 10 % 100) + 2 ^ 11 * (s.tickN / 1000 % 100)
      else if b = R.TIER_CYCLE then s.cycle % 65536 + 65536 * b2n (decide (s.cycle < Config.changeover))
      else if b = R.CORE_nSTAT 0 then s.coreStat h.i
      else if b = R.LOOP_CWRA then c.cwra.toNat
      else if b = R.LOOP_BLDA then c.blda.toNat
      else if b = R.METR_EFRAC then c.efrac.toNat
      else if b = R.METR_Ei 0 then half (s.energyLoad h.i p).1
      else if b = R.METR_SUMi 0 then half (s.summaryLoad h.i).1
      else if b = R.PTPT_TIME then half s.timeWord
      else if b = R.PTPT_STAT then (s.wrBit R.PTPT_STAT_SPEND s.stepPending).word a |>.toNat
      else if b = R.PAIR_HEALTH then s.healthWord
      else if b = R.RECD_WCODE then c.wcode.toNat
      else if b = R.RECD_WP0 then c.wp0.toNat
      else if b = R.RECD_WP1 then c.wp1.toNat
      else if inWindow 9 a then (s.beforeResults.word a).toNat
      else if b = R.DIOP_FORCED then (s.showForced.word a).toNat
      else (s.shownWord a).toNat
    (BitVec.ofNat 32 v &&& ~~~h.bits (fun f => f.acc == .wo)).toNat

/-- The RC fields of a word that an access covers wholly (R589), as bits of the word. -/
def RegHit.rcCovered (h : RegHit) (mask : Word) : Word :=
  h.bits fun f => f.acc == .rc && (BitVec.ofNat 32 ((2 ^ (f.hi + 1 - f.lo) - 1) <<< f.lo) &&& ~~~mask) == 0

/-- The RC fields of a register that an access covers wholly, as references to them. -/
def RegHit.rcRefs (h : RegHit) (a : Nat) (mask : Word) : List FieldRef :=
  let up := if 4 ≤ h.byte then 32 else 0
  (h.fam.fields.filter fun f => f.acc == .rc && decide (up ≤ f.lo)
    && (BitVec.ofNat 32 (((2 ^ (f.hi + 1 - f.lo) - 1) <<< f.lo) >>> up) &&& ~~~mask) == 0).map
      fun f => ⟨a, f.hi - up, f.lo - up⟩

/-- The state as a load of an RC field sees it: without what hardware does to the field in the same cycle (R13). -/
def State.rcBefore (s : State) (a : Nat) (mask : Word) : State :=
  match findReg a with
  | none => s
  | some h => (h.rcRefs a mask).foldl (fun s f => if (s.hwOf f).isEmpty then s else s.wr f (s.rcSplit f).1) s

/-- What a load of RC fields leaves in them: the updates of the same cycle, else zero (R12, R13). -/
def State.rcClear (s : State) (a : Nat) (mask : Word) : State :=
  match findReg a with
  | none => s
  | some h =>
    (h.rcRefs a mask).foldl (fun s f =>
      let left := (s.rcSplit f).2
      { (s.wr f left) with hw := s.hw.filter (fun e => !(e.addr == f.addr && e.lo == f.lo)) }) s

/-- What a load leaves behind in the word at a: covered RC fields are cleared, the tick count is latched (R44), and a pulse
output's deferral is forgotten once read (R399). -/
def State.loadEffect (s : State) (p a : Nat) (mask : Word) : State :=
  match findReg a with
  | none => s
  | some h =>
    let rc := h.rcCovered mask
    let s := if rc == 0 then s else s.rcClear a mask
    if h.fam.base = R.TIER_TICKLO then s.onCore p fun c => { c with tickh := BitVec.ofNat 32 (s.tickN / 2 ^ 32) }
    else if h.fam.base = R.METR_POo_STAT 0 then
      s.when (rc.toNat.testBit 16) fun s =>
        s.setMetr { s.metr with po := NMap.modify PoS.init s.metr.po h.i (fun x => { x with deferred := false }) }
    else s

/-- The effects bound to a 64-bit load (R393, R395). -/
def State.wideEffect (s : State) (p a : Nat) : State :=
  match findReg a with
  | none => s
  | some h =>
    if h.fam.base = R.METR_Ei 0 then (s.energyLoad h.i p).2
    else if h.fam.base = R.METR_SUMi 0 then (s.summaryLoad h.i).2
    else s

/-- On a standby in step, a load of a PTPT or RTCB register returns the active's value from the snapshot (R462, R470); the
manual states none where no value waits. -/
def State.snapLoad (s : State) (p n : Nat) : Nat × State :=
  let d := s.dutyOf p
  match NMap.get [] s.pair.loads d with
  | v :: r => (v % 2 ^ (8 * n), s.setPair { s.pair with loads := NMap.set [] s.pair.loads d r })
  | [] => let k := s.draw; (Config.freeNat 4 k.1 % 2 ^ (8 * n), k.2)

/-- A load of n bytes at device address a, which names registers, by physical core p in the present cycle. A 64-bit load at
`TIER_TICKLO` returns the high word latched before it and makes the latch of R44 afterwards: no rule gives the order
(DEDUCED: notes/assumptions/17). -/
def State.blockLoad (s : State) (p a n : Nat) : Nat × State :=
  let s := s.when (inWindow 9 a) State.settleCommits
  if s.onSnapshot && (inWindow 12 a || inWindow 13 a) then s.snapLoad p n
  else
    let s := s.when (inWindow 12 a || inWindow 13 a) (State.noteItem · 10 p)
    let before := (coveredWords a n).foldl (fun s w => s.rcBefore w (laneMask a n)) s
    let lo := before.readWord p (a / 4 * 4)
    let v := if n = 8 then lo + 2 ^ 32 * before.readWord p (a + 4) else lo / 2 ^ (8 * (a % 4)) % 2 ^ (8 * n)
    let s := if n = 8 then s.wideEffect p a else s
    (v, (coveredWords a n).foldl (fun s w => s.loadEffect p w (laneMask a n)) s)

/-- A load command: its value is held as the last value read. -/
def State.loadCommand (s : State) (p : Port) (a n : Nat) : State :=
  if a % n == 0 && namesRegisters a n then
    s.byCore p fun s =>
      let r := s.blockLoad p.core.val a n
      { r.2 with readData := BitVec.ofNat 64 r.1 }
  else s

/-- TICK_COUNT_READ (R44): a load of `TIER_TICKLO` latches the high word of the same count. -/
def execTickCountRead (p : Port) (s : State) : Out := .next (s.loadCommand p R.TIER_TICKLO 4)

/-- RC_FIELD_READ (R12): a load that covers a whole RC field returns it and clears it. -/
def execRcFieldRead (p : Port) (addr : BitVec 32) (size : Size) (s : State) : Out :=
  .next (s.loadCommand p addr.toNat size.bytes)

end Sys2Proof.Machine
end

