-- ==== Sys2Proof/Machine/Feed.lean ====
section
/-! DEFINITION. The feeds, power-down and output overload (22_module_connectors_electrical, R569 to R571, R578). -/

namespace Sys2Proof.Machine

def State.setFeed (s : State) (f : FeedS) : State := { s with feed := f }

/-- Fields of feed A (false) and B (true). -/
def presOfFeed (b : Bool) : FieldRef := if b then R.FEED_STAT_BPRES else R.FEED_STAT_APRES
def oobOfFeed (b : Bool) : FieldRef := if b then R.FEED_STAT_BOOB else R.FEED_STAT_AOOB
def lostOfFeed (b : Bool) : FieldRef := if b then R.FEED_CNT_BLOST else R.FEED_CNT_ALOST

/-- FEED_PRESENT (R570): 17.5 V or above for 20 ms. -/
def execFeedPresent (b : Bool) (s : State) : Out :=
  .next (if s.rdBit (presOfFeed b) then s
    else (s.wr (presOfFeed b) 1).when s.ticking (fun s => s.raiseSup (248 + b2n b)))

/-- FEED_LOST (R570, R571): below 16.0 V for 100 µs; with neither feed left the module powers down at the next edge. -/
def execFeedLost (b : Bool) (s : State) : Out :=
  .next (if !s.rdBit (presOfFeed b) then s
    else
      let s := (s.wr (presOfFeed b) 0).inc (lostOfFeed b)
      let s := s.when s.ticking (fun s => s.raiseSup (248 + b2n b))
      s.when (!s.rdBit (presOfFeed (!b))) (fun s => s.setFeed { s.feed with dying := true }))

/-- FEED_OUT_OF_BAND (R570): a present feed has stayed outside 18 to 32 V for 1 round; once for each excursion. A module whose
kick-off stopped leaves that state (R562). -/
def execFeedOutOfBand (b : Bool) (s : State) : Out :=
  .next (if s.phase == .halted then s.quiesce else
    let t := NMap.get 0 s.feed.outSince (b2n b)
    if s.ticking && s.rdBit (presOfFeed b) && t != 0 && decide (t + 999 ≤ s.tickN) && !s.feed.told.testBit (b2n b) then
      ((s.setFeed { s.feed with told := s.feed.told ||| 2 ^ b2n b }).inc R.FEED_CNT_OOB).raiseSup 250
    else s)

/-- A feed's voltage at a tick edge: it is outside 18 to 32 V or not, and an excursion of a present feed begins, goes on or
ends. -/
def State.watchFeed (s : State) (b : Bool) (v : Nat) : State :=
  let s := s.wrBit (oobOfFeed b) (!inBand v)
  let f := s.feed
  let k := b2n b
  if inBand v || !s.rdBit (presOfFeed b) then
    s.setFeed { f with outSince := NMap.set 0 f.outSince k 0, told := putBits f.told k k 0 }
  else if NMap.get 0 f.outSince k = 0 then s.setFeed { f with outSince := NMap.set 0 f.outSince k (s.tickN + 1) }
  else s

/-- The feeds at a tick edge (R570); `FEED_V` is updated every frame. -/
def State.feedEdge (s : State) (va vb : Nat) : State :=
  let s := (s.watchFeed false va).watchFeed true vb
  if s.tickN % 10 = 0 then (s.wr R.FEED_V_VA va).wr R.FEED_V_VB vb else s

/-- POWER_DOWN (R571): at the first tick edge after the second feed is lost, every output becomes undriven, MRAM completes
its write and accepts none further, and the cores stop. -/
def execPowerDown (s : State) : Out := .next (if s.feed.dying then s.quiesce else s)

/-! ## Output overload (R578) -/

/-- OUTPUT_OVERLOAD (R578): an output that drives has spent 1 ms in current limit. -/
def execOutputOverload (o : Fin 24) (s : State) : Out :=
  .next (if s.doDriven o.val == some true then
      let s := s.setBit ⟨R.DIOP_DOFLT, o.val, o.val⟩
      s.setDiop { s.diop with trip := NMap.set 0 s.diop.trip o.val (s.tickN + 1) }
    else s)

/-- OVERLOAD_RETRY (R578): every 100 ms a tripped output that is still commanded on is driven again. -/
def execOverloadRetry (o : Fin 24) (s : State) : Out :=
  .next (
    let t := NMap.get 0 s.diop.trip o.val
    if t != 0 && decide (t + 999 ≤ s.tickN) && s.doSelect o.val == some true then
      s.setDiop { s.diop with trip := NMap.set 0 s.diop.trip o.val 0 }
    else s)

end Sys2Proof.Machine
end

