-- ==== Sys2Proof/Machine/Fixed.lean ====
section
/-! DEFINITION. Fixed point and the accumulators (R58, R60, R98 to R101). -/

namespace Sys2Proof.Machine

/-- MULQ (R98): the exact product extracted with shift fn[5:0]; fn[7:6] must be 0. -/
def execMulq (i : Issue) (rd ra rb : BitVec 6) (fn : BitVec 8) (s : State) : Out :=
  .next (s.runLocal i (decide (fn.toNat < 64)) fun c =>
    let r := extractRes 32 (c.regI ra.toNat * c.regI rb.toNat) fn.toNat
    .done (((c.setReg rd.toNat r.1).zncv r.1 false r.2).sat r.2) 2)

/-- Leave the nearest 72-bit limit in accumulator k; V set on a limit, else cleared, and S on a limit (R58). -/
def CoreS.setAccSat (c : CoreS) (k : Nat) (x : Int) : CoreS :=
  let lim := !fitsBits 72 x
  ({ (c.setAcc k (clampBits 72 x)) with v := lim }).sat lim

/-- The exact product of MAC's form fn (R99): signed, unsigned, or signed by unsigned. -/
def macProduct (c : CoreS) (ra rb fn : Nat) : Int :=
  if fn = 0 then c.regI ra * c.regI rb
  else if fn = 1 then (c.regN ra * c.regN rb : Nat)
  else c.regI ra * (c.regN rb : Int)

/-- MAC (R99): acc[rd[1:0]] takes acc + p, acc − p or p by mode rd[3:2]; rd[5:4] must be 0. -/
def execMac (i : Issue) (rd ra rb : BitVec 6) (fn : BitVec 8) (s : State) : Out :=
  .next (s.runLocal i (decide (fn.toNat < 3) && decide (rd.toNat < 12)) fun c =>
    let k := rd.toNat % 4
    let p := macProduct c ra.toNat rb.toNat fn.toNat
    let x := if rd.toNat / 4 = 0 then c.accI k + p else if rd.toNat / 4 = 1 then c.accI k - p else p
    .done (c.setAccSat k x) 2)

/-- CLRA (R100): acc = 0; ra, rb and rd[5:2] must be 0. -/
def execClra (i : Issue) (rd ra rb : BitVec 6) (s : State) : Out :=
  .next (s.runLocal i (decide (rd.toNat < 4) && ra == 0 && rb == 0) fun c => .done (c.setAcc rd.toNat 0) 1)

/-- LDA (R100): acc = pair ra sign-extended; rb and rd[5:2] must be 0. -/
def execLda (i : Issue) (rd ra rb : BitVec 6) (s : State) : Out :=
  .next (s.runLocal i (decide (rd.toNat < 4) && isPair ra && rb == 0) fun c =>
    .done (c.setAcc rd.toNat (c.pair ra.toNat).toInt) 1)

/-- The field rules of ADDA and SUBA (R100). -/
def accLegal (rd ra rb : BitVec 6) : Bool := decide (rd.toNat < 4) && ra == 0 && decide (rb.toNat < 4)

/-- ADDA (R100): acc = acc + acc[rb[1:0]]. -/
def execAdda (i : Issue) (rd ra rb : BitVec 6) (s : State) : Out :=
  .next (s.runLocal i (accLegal rd ra rb) fun c =>
    .done (c.setAccSat rd.toNat (c.accI rd.toNat + c.accI rb.toNat)) 1)

/-- SUBA (R100): acc = acc − acc[rb[1:0]]. -/
def execSuba (i : Issue) (rd ra rb : BitVec 6) (s : State) : Out :=
  .next (s.runLocal i (accLegal rd ra rb) fun c =>
    .done (c.setAccSat rd.toNat (c.accI rd.toNat - c.accI rb.toNat)) 1)

/-- EXT's field rules (R101, R83): ra[5:2] and rb must be 0, and fn[6] = 1 needs a pair. -/
def extLegal (rd ra rb : BitVec 6) (fn : BitVec 8) : Bool :=
  decide (ra.toNat < 4) && rb == 0 && (!fn.getLsbD 6 || isPair rd)

/-- EXT's result and flags before the optional clear (R101): to a register, or with fn[6] to a pair. -/
def extTo (c : CoreS) (rd ra : Nat) (fn : BitVec 8) : CoreS :=
  if fn.getLsbD 6 then
    let r := extractRes 64 (c.accI ra) (fn.toNat % 64)
    ((c.setPair rd r.1).zncv r.1 false r.2).sat r.2
  else
    let r := extractRes 32 (c.accI ra) (fn.toNat % 64)
    ((c.setReg rd r.1).zncv r.1 false r.2).sat r.2

/-- EXT (R101): extract acc[ra[1:0]]; fn[7] = 1 clears the accumulator after the extraction. -/
def execExt (i : Issue) (rd ra rb : BitVec 6) (fn : BitVec 8) (s : State) : Out :=
  .next (s.runLocal i (extLegal rd ra rb fn) fun c =>
    let c' := extTo c rd.toNat ra.toNat fn
    .done (if fn.getLsbD 7 then c'.setAcc ra.toNat 0 else c') 2)

end Sys2Proof.Machine
end

