-- ==== Sys2Proof/Machine/LoadStore.lean ====
section
/-! DEFINITION. The loads and stores of the DW cores over the device address map (R64, R65, R85, R95). -/

namespace Sys2Proof.Machine

/-! ## The address map (R64, R65, R553) -/

/-- The parts of the device address map. -/
inductive Region where
  | commons
  | ownData
  | scoreboard
  | solver
  | mram
  | objects
  | block
  | unmapped
deriving DecidableEq, Repr

/-- The part an address lies in; the trust-reserved sectors of MRAM answer as unmapped (R65, R553). -/
def regionOf (a : Nat) : Region :=
  let within (b n : Nat) : Bool := decide (b ≤ a) && decide (a < b + n)
  if within 0 0x800000 then .commons
  else if within localBase 0x10000 then .ownData
  else if within 0x0C000000 0x200000 then .scoreboard
  else if within 0x10000000 0x4000000 then .solver
  else if within 0x20600000 0xA00000 then .mram
  else if within 0x30000000 0xA0000 then .objects
  else if within 0x40000000 0x160000 then .block
  else .unmapped

/-- Does an aligned access of n bytes at a meet nothing (cause 8): an unmapped address, or an offset without a register? -/
def meetsNothing (a n : Nat) : Bool :=
  regionOf a == .unmapped || (regionOf a == .block && a % n == 0 && !namesRegisters a n)

/-- What loads and stores alike trap on (R65, R73, R82). -/
def accessCands (c : CoreS) (a n : Nat) : List Cand :=
  candIf c.runsOut 2 none ++ candIf (a % n != 0) 7 (some a) ++ candIf (meetsNothing a n) 8 (some a)
    ++ candIf (regionOf a == .solver) 10 (some a)

/-- A load's traps: those, and an uncorrectable word of own local data (R63). -/
def loadCands (c : CoreS) (a n : Nat) : List Cand :=
  accessCands c a n ++ candIf (regionOf a == .ownData && a % n == 0 && c.dmemBad (a - localBase) n) 1 (some a)

/-- A store's traps: those, the scoreboard (R26), and an uncorrectable word met by a store of part of it (R63). -/
def storeCands (c : CoreS) (a n : Nat) : List Cand :=
  accessCands c a n ++ candIf (regionOf a == .scoreboard) 9 (some a)
    ++ candIf (regionOf a == .ownData && a % n == 0 && decide (n < 4) && c.dmemBad (a - localBase) n) 1 (some a)

/-! ## Accesses -/

/-- A commons request of a port is granted after w cycles: the longest wait, event 55 above the bound, and the monitors'
sample (R130, R541). -/
def State.granted (s : State) (port w : Nat) : State :=
  let s := s.peak R.CMNS_WMAX_WMAX (min 31 w)
  (s.when (decide (23 < w)) (State.raiseSup · 55)).monitor 3 port w

/-- Load n bytes at a, which passes the checks: the value, the cycles (R85), and the state after the load's effects. -/
def State.loadFrom (s : State) (i : Issue) (a n : Nat) : Nat × Nat × State :=
  let p := i.core.val
  match regionOf a with
  | .commons =>
    let d := s.dutyOf p
    let r := (s.granted d i.wait).commonsRead d a n
    (r.1, 6 + i.wait, r.2.2)
  | .ownData =>
    let c := s.core p
    let r := c.dload (a - localBase) n
    (r.1, 2, (s.setCore p r.2).countEcc p (c.dmemSingles (a - localBase) n))
  | .scoreboard =>
    ((s.sbAt ((a - 0x0C000000) / 8)).val.toNat / 2 ^ (8 * (a % 8)) % 2 ^ (8 * n), 4, s)
  | .mram => (memRead s.mem a n, 12 + i.wait, s.monitor 8 0 i.wait)
  | .objects => (memRead (s.objMem ((a - 0x30000000) / 80)) a n, 4, (s.objCheck (a - 0x30000000)).1)
  | .block => let r := s.blockLoad p a n; (r.1, 8, r.2)
  | _ => (0, 0, s)

/-- Store into an object word: with fresh ECC, or merged by its read half; an uncorrectable word keeps its error and discards
a partial write, as the commons does. -/
def State.objWrite (s : State) (a n v : Nat) : State :=
  if n = 8 then { (s.setObjMark ((a - 0x30000000) / 8) .clean) with mem := memWrite s.mem a 8 v }
  else
    let r := s.objCheck (a - 0x30000000)
    if r.2 then r.1 else { r.1 with mem := memWrite s.mem a n v }

/-- Store the n low bytes of v at a outside own local data, where it passes the checks. -/
def State.storeOut (s : State) (i : Issue) (a n v : Nat) : State :=
  let p := i.core.val
  match regionOf a with
  | .commons => let d := s.dutyOf p; (s.granted d i.wait).commonsWrite d a n v
  | .mram => { (s.monitor 8 0 i.wait) with mem := memWrite s.mem a n v }
  | .objects => s.objWrite a n v
  | .block => s.blockStore p a n v
  | _ => s

/-- Cycles of such a store (R85). -/
def storeCost (i : Issue) (a : Nat) : Nat :=
  match regionOf a with
  | .commons => 2 + i.wait
  | .mram => 36 + i.wait
  | _ => 4

/-- A load of n bytes at ra + imm; put takes the value into the destination. -/
def State.loadN (s : State) (i : Issue) (legal : Bool) (ra : BitVec 6) (imm : BitVec 14) (n : Nat)
    (put : CoreS → Nat → CoreS) : State :=
  s.runInstr i legal fun s c =>
    let a := c.ea ra.toNat imm
    match firstTrap (loadCands c a n) with
    | some t => s.enterTrap i.core.val t.1 t.2
    | none =>
      let r := s.loadFrom i a n
      r.2.2.finish i.core.val (put (r.2.2.core i.core.val) r.1) r.2.1

/-- A store of the n low bytes of v at ra + imm; a store that leaves a checked core does so 2 cycles later (R48). -/
def State.storeN (s : State) (i : Issue) (legal : Bool) (ra : BitVec 6) (imm : BitVec 14) (n : Nat) (v : CoreS → Nat) :
    State :=
  s.runInstr i legal fun s c =>
    let p := i.core.val
    let a := c.ea ra.toNat imm
    let off := a - localBase
    match firstTrap (storeCands c a n) with
    | some t => s.enterTrap p t.1 t.2
    | none =>
      if regionOf a = .ownData then
        (s.finish p (c.dstore off n (v c)) 1).countEcc p (if n < 4 then c.dmemSingles off n else 0)
      else s.release i fun s =>
        let s := s.storeOut i a n (v c)
        s.finish p (s.core p) (storeCost i a + holdCost i)

/-! ## Instructions (R95) -/

/-- LB: the byte, sign-extended. -/
def execLb (i : Issue) (rd ra : BitVec 6) (imm : BitVec 14) (s : State) : Out :=
  .next (s.loadN i true ra imm 1 fun c v => c.setReg rd.toNat ((BitVec.ofNat 8 v).signExtend 32))
/-- LH: the half-word, sign-extended. -/
def execLh (i : Issue) (rd ra : BitVec 6) (imm : BitVec 14) (s : State) : Out :=
  .next (s.loadN i true ra imm 2 fun c v => c.setReg rd.toNat ((BitVec.ofNat 16 v).signExtend 32))
/-- LW. -/
def execLw (i : Issue) (rd ra : BitVec 6) (imm : BitVec 14) (s : State) : Out :=
  .next (s.loadN i true ra imm 4 fun c v => c.setRegN rd.toNat v)
/-- LDD: 64 bits to the pair rd. -/
def execLdd (i : Issue) (rd ra : BitVec 6) (imm : BitVec 14) (s : State) : Out :=
  .next (s.loadN i (isPair rd) ra imm 8 fun c v => c.setPair rd.toNat (BitVec.ofNat 64 v))
/-- SB. -/
def execSb (i : Issue) (rd ra : BitVec 6) (imm : BitVec 14) (s : State) : Out :=
  .next (s.storeN i true ra imm 1 fun c => c.regN rd.toNat % 2 ^ 8)
/-- SH. -/
def execSh (i : Issue) (rd ra : BitVec 6) (imm : BitVec 14) (s : State) : Out :=
  .next (s.storeN i true ra imm 2 fun c => c.regN rd.toNat % 2 ^ 16)
/-- SW. -/
def execSw (i : Issue) (rd ra : BitVec 6) (imm : BitVec 14) (s : State) : Out :=
  .next (s.storeN i true ra imm 4 fun c => c.regN rd.toNat)
/-- SDD: 64 bits from the pair rd. -/
def execSdd (i : Issue) (rd ra : BitVec 6) (imm : BitVec 14) (s : State) : Out :=
  .next (s.storeN i (isPair rd) ra imm 8 fun c => (c.pair rd.toNat).toNat)

end Sys2Proof.Machine
end

