-- ==== Sys2Proof/Machine/TickEdge.lean ====
section
/-! DEFINITION. The tick edge and the changeover: what every block does at cycle 0 and at cycle 1,536 of a tick (R18 to R21,
R37 to R42, R171, R161, R408, R425, R570), and the consequences of missed deadlines (R34, R35). -/

namespace Sys2Proof.Machine

/-! ## Soft errors -/

/-- An error mark after a further upset: a second flipped bit is uncorrectable. -/
def ErrMark.hit (m : ErrMark) (double : Bool) : ErrMark :=
  match m with
  | .clean => if double then .double else .single
  | .poisoned => .poisoned
  | _ => .double

def markUpset (m : NMap ErrMark) (w : Nat) (double : Bool) : NMap ErrMark :=
  NMap.set .clean m w ((NMap.get .clean m w).hit double)

/-- The stored bits of a 64-bit word at address a of which `flip` differ from what the word's ECC still corrects: with the error
uncorrectable, a read returns them so (R132, R359). -/
def State.flipWord (s : State) (a : Nat) (m : ErrMark) (flip : DWord) : State :=
  if m == .double || m == .poisoned then { s with mem := memWrite s.mem a 8 (memRead s.mem a 8 ^^^ flip.toNat) } else s

/-- A soft error strikes a stored word. -/
def State.upset (s : State) (u : Upset) : State :=
  match u with
  | .commons w x d =>
    let m := (s.wordMark w.toNat).hit d
    (s.setMark w.toNat m).flipWord (8 * w.toNat) m x
  | .imem p w d => s.setCore p.val { s.core p.val with imemErr := markUpset (s.core p.val).imemErr w.toNat d }
  | .dmem p w d => s.setCore p.val { s.core p.val with dmemErr := markUpset (s.core p.val).dmemErr w.toNat d }
  | .object w x d =>
    let m := (s.objMark w.val).hit d
    (s.setObjMark w.val m).flipWord (0x30000000 + 8 * w.val) m x

/-! ## Tick discipline (R37 to R41) -/

/-- A member in the standby role, which follows the active's tick edges and ignores MODE (R41). -/
def State.follower (s : State) : Bool := s.rd R.PAIR_STAT_STATE == 2

/-- The frequency correction of the coming tick: what the loop makes of the error is not laid down beyond its range; 0 with
the tick free, and the last one in HOLD or, on a standby, once the follow signal is lost (R40, R41). -/
def State.correct (s : State) (hold : Bool) : State :=
  let follow := s.rdBit R.TIER_DISC_STAT_FOLLOW
  if follow || (s.rd R.TIER_DISC_CFG_MODE == 1 && !hold && !s.follower) then
    let k := s.draw
    k.2.wrI R.TIER_DISC_STAT_FCORR ((Config.freeNat 3 k.1 % 20001 : Nat) - 10000)
  else if hold || s.follower then s else s.wr R.TIER_DISC_STAT_FCORR 0

/-- HOLD: network time is not locked (R40). -/
def State.disciplineHold (s : State) : Bool := !s.rdBit R.PTPT_CTRL_LOCK

/-- LOCK follows the error of the last ticks (R40). The ticks within 500 ns are counted in HOLD as well; LOCK changes outside HOLD
alone, in which the block does not act on the error. -/
def State.disciplineLock (s : State) (hold : Bool) (err : Nat) : State :=
  let run := if err ≤ 500 then s.tier.lockRun + 1 else 0
  let s := s.setTier { s.tier with lockRun := min run 1000 }
  let lock := s.rdBit R.TIER_DISC_STAT_LOCK
  if hold then s
  else if !lock && decide (1000 ≤ run) then
    (s.wr R.TIER_DISC_STAT_LOCK 1).raiseSup 10
  else if lock && decide (2000 < err) then (s.wr R.TIER_DISC_STAT_LOCK 0).raiseSup 11
  else s

/-- The discipline's sample at a tick edge. -/
def State.discipline (s : State) : State :=
  let err := discError s.counterNs (s.rd R.TIER_DISC_ANCH_ANCH)
  let s := (s.wrI R.TIER_DISC_ERR_ERR err).monitor 6 0 err
  let hold := s.disciplineHold
  let s := if hold != s.rdBit R.TIER_DISC_STAT_HOLD then (s.wrBit R.TIER_DISC_STAT_HOLD hold).raiseSup 12 else s
  (s.disciplineLock hold err.natAbs).correct hold

/-! ## The edge -/

/-- The buffers filled in the tick before go to the collector, and new ones are empty (R20, R23). -/
def State.turnStaging (s : State) : State :=
  let s := s.setTier { s.tier with collecting := s.tier.staging, staging := [] }
  (List.range 24).foldl (fun s src => s.wr (R.TIER_SRCs_STAT_USED src) 0) s

/-- The digital inputs are sampled and pulse frequencies are computed at cycle 0 (R578, R579); a standby keeps its own samples. -/
def State.sampleInputs (s : State) (e : TickIn) : State :=
  let s := s.early (State.input · 0 (.din e.di) (State.sampleDin · e.di.toNat))
  if s.onSnapshot then s else s.early State.updateFreq

/-- A period boundary: the monitors' snapshot, the counts per bank, and the sample of `BNCH_CFG` (R133, R543, R552). -/
def State.periodEdge (s : State) : State :=
  let s := s.snapMonitors.setCmns { s.cmns with perCor := [] }
  s.setBnch { s.bnch with cfg := s.word R.BNCH_CFG }

/-- What the blocks do at cycle 0 of the present tick. -/
def State.edgeWork (s : State) (e : TickIn) : State :=
  let s := s.turnStaging
  let s := s.when (s.boundary 3) State.periodEdge
  let s := s.markDue
  let s := s.when (s.boundary 2) fun s => s.qmBoundary.fusaBoundary
  let s := s.solvEdge.windowEdges.meterEdge
  let s := s.setDiop { s.diop with early := [] }
  let s := (s.sampleInputs e).wr R.DIOP_DORB_RB e.dorb.toNat
  let s := s.showForced.adcEdge.safeEdge
  let s := s.input 0 (.safeIn e.si) (State.takeSafe · e.si.toNat)
  let s := s.setBnch { s.bnch with pauseCore := 0, pauseUntil := 0 }
  (s.discipline.rtcbPulses e.rtc).feedEdge e.va e.vb

/-- Collected writes of the groups whose element starts with the first tick are dropped (R8, R53, R506). -/
def State.dropBound (s : State) : State :=
  let s := (List.range 16).foldl (fun s n => s.discardColl 1 .coreBind (some n)) s
  (s.discardColl 14 .pair none).discardColl 14 .pairR none

/-- The edge of tick 0, once the self-tests have passed: the counts begin (R19, R455). -/
def State.firstEdge (s : State) (e : TickIn) : State :=
  let s := s.dropBound
  let s := { s with phase := .running, tick := 0, cycle := 0, evIn := [] }
  let s := (s.setPtpt PtptS.init).captureEdge
  (s.pairEdge).sendMarker.edgeWork e

/-- The edge of every later tick. -/
def State.nextEdge (s : State) (e : TickIn) : State :=
  let s := (s.atCycle 59999).pairTickEnd
  let s := { s with tick := s.tick + 1, cycle := 0 }
  let s := e.upsets.foldl State.upset s
  ((s.counterEdge.ownClock e.marker).pairEdge).sendMarker.edgeWork e

/-- TICK_EDGE (R18): the next tick begins; after setup, the self-tests of kick-off run and tick 0 begins (R558, R561); a
module whose supply is gone powers down (R571). -/
def execTickEdge (e : TickIn) (s : State) : Out :=
  .next (if s.feed.dying then s.quiesce
    else match s.phase with
      | .running => s.nextEdge e
      | .ready =>
        let s := s.selfTests e.failed
        if s.phase == .halted then s else s.firstEdge e
      | _ => s)

/-! ## The changeover -/

/-- CHANGEOVER_PUBLICATION (R20, R21, R42): the new image, the stale marks, the tier events, restarted cores, the releases of
the boundary and the alignment's evaluation, all at cycle 1,536. -/
def execChangeoverPublication (s : State) : Out :=
  .next (if !s.ticking then s else
    let s := (s.atCycle Config.changeover).applyPosts.markRegions
    let s := s.when (s.tickN == 0) fun s => s.trustTickZero.trustSlotEvent
    let s := (List.range 4).foldl (fun s t => s.when (s.boundary t) (State.raise · t (List.range 16) false)) s
    s.startRestarted.releaseJobs.fusaEvaluate false)

/-- CLASS_W_DEADLINE_MISS (R34). -/
def execClassWDeadlineMiss (n : Fin 128) (s : State) : Out := .next (s.missW n.val)
/-- CLASS_R_DEADLINE_MISS (R35). -/
def execClassRDeadlineMiss (n : Fin 128) (s : State) : Out := .next (s.missR n.val)

end Sys2Proof.Machine
end

