-- ==== Sys2Proof/Machine/Wtk.lean ====
section
/-! DEFINITION. WTK and the end of its wait (R29, R70, R71, R105, R107; 21, R559). -/

namespace Sys2Proof.Machine

/-- The lowest-indexed job that is active, not yet taken and matches (R107). -/
def State.waitingJob (s : State) (p : Nat) (any : Bool) (n : Nat) : Option Nat :=
  (List.range 128).find? fun m =>
    (s.job m).active && !(s.job m).taken && (if any then s.rd (R.TIER_JOBn_CFG_CORE m) == p else m == n)

/-- A WTK that returned goes on: in the restart form both stacks are emptied, the vectors swap and the core continues at
RESTART (R70); trap mode ends (R71). -/
def State.wtkGo (s : State) (p rd v cost : Nat) (rst : Bool) (job : Option Nat) : State :=
  let s := if rst then s.swapFields [R.CORE_nVEC_RESTART p, R.CORE_nVEC_TRAPV p] else s
  let c := { (s.core p).setRegN rd v with trapMode := false, wait := .none, job := job, cost := cost }
  s.setCore p (if rst then { c with rstack := [], lstack := [], pc := 4 * s.rd (R.CORE_nVEC_RESTART p) } else c.advance)

/-- A released instance is taken by its core. -/
def State.takeJob (s : State) (p rd n cost : Nat) (rst : Bool) : State :=
  let j := s.job n
  (s.setJob n { j with taken := true }).wtkGo p rd (n + 65536 * (j.k % 65536)) cost rst (some n)

/-- WTK's field rules (R83, R107). -/
def wtkLegal (ra : BitVec 6) (sel : BitVec 14) : Bool :=
  ra == 0 && (if sel.getLsbD 12 then !sel.getLsbD 11 && bitsOf sel.toNat 10 2 == 0
    else bitsOf sel.toNat 10 7 == 0 && (!sel.getLsbD 11 || bitsOf sel.toNat 6 0 == 0))

/-- The job form names a job of another core. -/
def State.wtkForeign (s : State) (p : Nat) (sel : BitVec 14) : Bool :=
  !sel.getLsbD 12 && !sel.getLsbD 11 && s.rd (R.TIER_JOBn_CFG_CORE (bitsOf sel.toNat 6 0)) != p

/-- Traps WTK meets: it is no transfer, but for the restart form that waits (R82), and none may end a loop body (R105). -/
def wtkCands (c : CoreS) (stays : Bool) : List Cand := loopEndCand c ++ candIf (stays && c.runsOut) 2 none

/-- WTK (R107). -/
def execWtk (i : Issue) (rd ra : BitVec 6) (sel : BitVec 14) (s : State) : Out :=
  .next (s.runInstr i (wtkLegal ra sel) fun s c =>
    let p := i.core.val
    let rst := sel.getLsbD 13
    let any := sel.getLsbD 11
    let n := bitsOf sel.toNat 6 0
    let foreign := s.wtkForeign p sel
    match firstTrap (wtkCands c (!rst || foreign)) with
    | some t => s.enterTrap p t.1 t.2
    | none =>
      if sel.getLsbD 12 && s.phase == .setup then s.endSetup
      else
        let s := s.completeJob p
        if foreign then s.wtkGo p rd.toNat (0x80000000 + n) 2 false none
        else if sel.getLsbD 12 then
          s.setCore p { s.core p with
            wait := .tier rst (bitsOf sel.toNat 1 0) rd.toNat (if s.cycle < Config.changeover then s.tickN else s.tickN + 1) }
        else match s.waitingJob p any n with
          | some m => s.takeJob p rd.toNat m 2 rst
          | none => s.setCore p { s.core p with wait := .job rst any n rd.toNat })

/-- WTK_RESUME (R107): a waiting WTK returns at cycle 1,538 of the release or boundary tick. -/
def execWtkResume (core : Fin 16) (s : State) : Out :=
  .next (
    let p := core.val
    match (s.core p).wait with
    | .job rst any n rd =>
      match s.waitingJob p any n with
      | some m =>
        let s := s.beforeCycle (Config.changeover + 2)
        if (s.core p).wait == .none then s else (s.takeJob p rd m 2 rst).atCycle (Config.changeover + 2)
      | none => s
    | .tier rst t rd since =>
      if s.ticking && s.boundary t && decide (since ≤ s.tickN) then
        let s := s.beforeCycle (Config.changeover + 2)
        if (s.core p).wait == .none then s
        else (s.wtkGo p rd (s.tickN % 2 ^ 32) 2 rst none).atCycle (Config.changeover + 2)
      else s
    | _ => s)

end Sys2Proof.Machine
end

