-- ==== Sys2Proof/Machine/Dispatch.lean ====
section
/-! DEFINITION. Which meaning each command has: one arm per row of the table of operations and events. -/

namespace Sys2Proof.Machine

/-- The meaning of a command on the state, whose queue no meaning reads or changes. -/
def exec (i : Instr) (s : State) : Host.Outcome State Fault Refusal :=
  match i with
  | .powerGoodKickOff k => Sys2Proof.Machine.execPowerGoodKickOff k s
  | .setupTimeout => Sys2Proof.Machine.execSetupTimeout s
  | .coreStartTickZero => Sys2Proof.Machine.execCoreStartTickZero s
  | .tickEdge e => Sys2Proof.Machine.execTickEdge e s
  | .changeoverPublication => Sys2Proof.Machine.execChangeoverPublication s
  | .classWDeadlineMiss n => Sys2Proof.Machine.execClassWDeadlineMiss n s
  | .classRDeadlineMiss n => Sys2Proof.Machine.execClassRDeadlineMiss n s
  | .followLost => Sys2Proof.Machine.execFollowLost s
  | .tickCountRead p => Sys2Proof.Machine.execTickCountRead p s
  | .tierJobSeal p n => Sys2Proof.Machine.execTierJobSeal p n s
  | .coreBindSeal p n => Sys2Proof.Machine.execCoreBindSeal p n s
  | .registerWrite p addr size v => Sys2Proof.Machine.execRegisterWrite p addr size v s
  | .rcFieldRead p addr size => Sys2Proof.Machine.execRcFieldRead p addr size s
  | .add ii rd ra rb => Sys2Proof.Machine.execAdd ii rd ra rb s
  | .addc ii rd ra rb => Sys2Proof.Machine.execAddc ii rd ra rb s
  | .adds ii rd ra rb => Sys2Proof.Machine.execAdds ii rd ra rb s
  | .sub ii rd ra rb => Sys2Proof.Machine.execSub ii rd ra rb s
  | .subc ii rd ra rb => Sys2Proof.Machine.execSubc ii rd ra rb s
  | .subs ii rd ra rb => Sys2Proof.Machine.execSubs ii rd ra rb s
  | .and ii rd ra rb => Sys2Proof.Machine.execAnd ii rd ra rb s
  | .or ii rd ra rb => Sys2Proof.Machine.execOr ii rd ra rb s
  | .xor ii rd ra rb => Sys2Proof.Machine.execXor ii rd ra rb s
  | .shl ii rd ra rb fn => Sys2Proof.Machine.execShl ii rd ra rb fn s
  | .shr ii rd ra rb fn => Sys2Proof.Machine.execShr ii rd ra rb fn s
  | .sra ii rd ra rb fn => Sys2Proof.Machine.execSra ii rd ra rb fn s
  | .ror ii rd ra rb fn => Sys2Proof.Machine.execRor ii rd ra rb fn s
  | .mul ii rd ra rb => Sys2Proof.Machine.execMul ii rd ra rb s
  | .mulh ii rd ra rb => Sys2Proof.Machine.execMulh ii rd ra rb s
  | .mulhu ii rd ra rb => Sys2Proof.Machine.execMulhu ii rd ra rb s
  | .mulw ii rd ra rb => Sys2Proof.Machine.execMulw ii rd ra rb s
  | .cmp ii rd ra rb => Sys2Proof.Machine.execCmp ii rd ra rb s
  | .min ii rd ra rb => Sys2Proof.Machine.execMin ii rd ra rb s
  | .max ii rd ra rb => Sys2Proof.Machine.execMax ii rd ra rb s
  | .minu ii rd ra rb => Sys2Proof.Machine.execMinu ii rd ra rb s
  | .maxu ii rd ra rb => Sys2Proof.Machine.execMaxu ii rd ra rb s
  | .sel ii rd ra rb fn => Sys2Proof.Machine.execSel ii rd ra rb fn s
  | .neg ii rd ra rb => Sys2Proof.Machine.execNeg ii rd ra rb s
  | .abs ii rd ra rb => Sys2Proof.Machine.execAbs ii rd ra rb s
  | .clz ii rd ra rb => Sys2Proof.Machine.execClz ii rd ra rb s
  | .sexb ii rd ra rb => Sys2Proof.Machine.execSexb ii rd ra rb s
  | .sexh ii rd ra rb => Sys2Proof.Machine.execSexh ii rd ra rb s
  | .addd ii rd ra rb => Sys2Proof.Machine.execAddd ii rd ra rb s
  | .subd ii rd ra rb => Sys2Proof.Machine.execSubd ii rd ra rb s
  | .addds ii rd ra rb => Sys2Proof.Machine.execAddds ii rd ra rb s
  | .subds ii rd ra rb => Sys2Proof.Machine.execSubds ii rd ra rb s
  | .push ii rd ra rb => Sys2Proof.Machine.execPush ii rd ra rb s
  | .pop ii rd ra rb => Sys2Proof.Machine.execPop ii rd ra rb s
  | .pushd ii rd ra rb => Sys2Proof.Machine.execPushd ii rd ra rb s
  | .popd ii rd ra rb => Sys2Proof.Machine.execPopd ii rd ra rb s
  | .addi ii rd ra imm => Sys2Proof.Machine.execAddi ii rd ra imm s
  | .andi ii rd ra imm => Sys2Proof.Machine.execAndi ii rd ra imm s
  | .ori ii rd ra imm => Sys2Proof.Machine.execOri ii rd ra imm s
  | .xori ii rd ra imm => Sys2Proof.Machine.execXori ii rd ra imm s
  | .shi ii rd ra imm => Sys2Proof.Machine.execShi ii rd ra imm s
  | .cmpi ii rd ra imm => Sys2Proof.Machine.execCmpi ii rd ra imm s
  | .lui ii rd imm => Sys2Proof.Machine.execLui ii rd imm s
  | .li ii rd imm => Sys2Proof.Machine.execLi ii rd imm s
  | .lb ii rd ra imm => Sys2Proof.Machine.execLb ii rd ra imm s
  | .lh ii rd ra imm => Sys2Proof.Machine.execLh ii rd ra imm s
  | .lw ii rd ra imm => Sys2Proof.Machine.execLw ii rd ra imm s
  | .ldd ii rd ra imm => Sys2Proof.Machine.execLdd ii rd ra imm s
  | .sb ii rd ra imm => Sys2Proof.Machine.execSb ii rd ra imm s
  | .sh ii rd ra imm => Sys2Proof.Machine.execSh ii rd ra imm s
  | .sw ii rd ra imm => Sys2Proof.Machine.execSw ii rd ra imm s
  | .sdd ii rd ra imm => Sys2Proof.Machine.execSdd ii rd ra imm s
  | .mulq ii rd ra rb fn => Sys2Proof.Machine.execMulq ii rd ra rb fn s
  | .mac ii rd ra rb fn => Sys2Proof.Machine.execMac ii rd ra rb fn s
  | .clra ii rd ra rb => Sys2Proof.Machine.execClra ii rd ra rb s
  | .lda ii rd ra rb => Sys2Proof.Machine.execLda ii rd ra rb s
  | .adda ii rd ra rb => Sys2Proof.Machine.execAdda ii rd ra rb s
  | .suba ii rd ra rb => Sys2Proof.Machine.execSuba ii rd ra rb s
  | .ext ii rd ra rb fn => Sys2Proof.Machine.execExt ii rd ra rb fn s
  | .b ii cond ra off => Sys2Proof.Machine.execB ii cond ra off s
  | .call ii rd imm => Sys2Proof.Machine.execCall ii rd imm s
  | .jr ii rd ra rb => Sys2Proof.Machine.execJr ii rd ra rb s
  | .callr ii rd ra rb => Sys2Proof.Machine.execCallr ii rd ra rb s
  | .ret ii rd ra rb => Sys2Proof.Machine.execRet ii rd ra rb s
  | .loop ii r mid len => Sys2Proof.Machine.execLoop ii r mid len s
  | .wtk ii rd ra sel => Sys2Proof.Machine.execWtk ii rd ra sel s
  | .wtkResume core => Sys2Proof.Machine.execWtkResume core s
  | .slack ii rd ra sel => Sys2Proof.Machine.execSlack ii rd ra sel s
  | .pub ii rd ra sel => Sys2Proof.Machine.execPub ii rd ra sel s
  | .pubDeferredLeave core => Sys2Proof.Machine.execPubDeferredLeave core s
  | .take ii rd ra sel => Sys2Proof.Machine.execTake ii rd ra sel s
  | .objseq ii rd ra sel => Sys2Proof.Machine.execObjseq ii rd ra sel s
  | .evt ii rd ra sel => Sys2Proof.Machine.execEvt ii rd ra sel s
  | .evwait ii rd ra sel => Sys2Proof.Machine.execEvwait ii rd ra sel s
  | .evwaitResume core cyc => Sys2Proof.Machine.execEvwaitResume core cyc s
  | .evwaitTimeout core cyc => Sys2Proof.Machine.execEvwaitTimeout core cyc s
  | .evget ii rd ra sel => Sys2Proof.Machine.execEvget ii rd ra sel s
  | .sqpost ii rd ra sel => Sys2Proof.Machine.execSqpost ii rd ra sel s
  | .sqwait ii rd ra sel => Sys2Proof.Machine.execSqwait ii rd ra sel s
  | .sqwaitResume core cyc => Sys2Proof.Machine.execSqwaitResume core cyc s
  | .sqwaitTimeout core cyc => Sys2Proof.Machine.execSqwaitTimeout core cyc s
  | .trust ii rd ra sel => Sys2Proof.Machine.execTrust ii rd ra sel s
  | .trap ii rd ra sel => Sys2Proof.Machine.execTrap ii rd ra sel s
  | .nop ii rd ra => Sys2Proof.Machine.execNop ii rd ra s
  | .rdsr ii rd ra => Sys2Proof.Machine.execRdsr ii rd ra s
  | .wrsr ii rd ra => Sys2Proof.Machine.execWrsr ii rd ra s
  | .rdid ii rd ra => Sys2Proof.Machine.execRdid ii rd ra s
  | .commonsScrub bank => Sys2Proof.Machine.execCommonsScrub bank s
  | .commonsRowSwitch bank => Sys2Proof.Machine.execCommonsRowSwitch bank s
  | .ckSeal p k => Sys2Proof.Machine.execCkSeal p k s
  | .ckVerify p k => Sys2Proof.Machine.execCkVerify p k s
  | .ckCopy p k => Sys2Proof.Machine.execCkCopy p k s
  | .checkUnitComplete k => Sys2Proof.Machine.execCheckUnitComplete k s
  | .qmSeal p g => Sys2Proof.Machine.execQmSeal p g s
  | .qmSealComplete g => Sys2Proof.Machine.execQmSealComplete g s
  | .qmHoldEnd g => Sys2Proof.Machine.execQmHoldEnd g s
  | .qmScan => Sys2Proof.Machine.execQmScan s
  | .fusaSampleWrite p size v served => Sys2Proof.Machine.execFusaSampleWrite p size v served s
  | .fusaSbaseSeal p => Sys2Proof.Machine.execFusaSbaseSeal p s
  | .alignmentLimitExpiry => Sys2Proof.Machine.execAlignmentLimitExpiry s
  | .gate p k => Sys2Proof.Machine.execGate p k s
  | .cupd p k => Sys2Proof.Machine.execCupd p k s
  | .assistComplete k => Sys2Proof.Machine.execAssistComplete k s
  | .calibrationWrite p r gain v => Sys2Proof.Machine.execCalibrationWrite p r gain v s
  | .pdef short seq u => Sys2Proof.Machine.execPdef short seq u s
  | .patt short seq u => Sys2Proof.Machine.execPatt short seq u s
  | .symb short seq u => Sys2Proof.Machine.execSymb short seq u s
  | .pdel short seq u => Sys2Proof.Machine.execPdel short seq u s
  | .kdelta short seq u => Sys2Proof.Machine.execKdelta short seq u s
  | .vdelta short seq u => Sys2Proof.Machine.execVdelta short seq u s
  | .vread short seq u => Sys2Proof.Machine.execVread short seq u s
  | .refac short seq u => Sys2Proof.Machine.execRefac short seq u s
  | .solve short seq u => Sys2Proof.Machine.execSolve short seq u s
  | .spmv short seq u => Sys2Proof.Machine.execSpmv short seq u s
  | .vopCopy short seq u => Sys2Proof.Machine.execVopCopy short seq u s
  | .vopAxpby short seq u => Sys2Proof.Machine.execVopAxpby short seq u s
  | .vopClamp short seq u => Sys2Proof.Machine.execVopClamp short seq u s
  | .vopFill short seq u => Sys2Proof.Machine.execVopFill short seq u s
  | .vopNorm short seq u => Sys2Proof.Machine.execVopNorm short seq u s
  | .refine short seq u => Sys2Proof.Machine.execRefine short seq u s
  | .iter short seq u n => Sys2Proof.Machine.execIter short seq u n s
  | .dqp short seq u => Sys2Proof.Machine.execDqp short seq u s
  | .enc short seq u => Sys2Proof.Machine.execEnc short seq u s
  | .solverCommandComplete short seq cyc steps => Sys2Proof.Machine.execSolverCommandComplete short seq cyc steps s
  | .solvCancel p seq short => Sys2Proof.Machine.execSolvCancel p seq short s
  | .loopEvaluation n => Sys2Proof.Machine.execLoopEvaluation n s
  | .loopOutputPost => Sys2Proof.Machine.execLoopOutputPost s
  | .loopSeal p n => Sys2Proof.Machine.execLoopSeal p n s
  | .loopSealComplete n => Sys2Proof.Machine.execLoopSealComplete n s
  | .loopOutputSeal p => Sys2Proof.Machine.execLoopOutputSeal p s
  | .loopCommit p n => Sys2Proof.Machine.execLoopCommit p n s
  | .setLoadQueue p addr => Sys2Proof.Machine.execSetLoadQueue p addr s
  | .setLoadComplete => Sys2Proof.Machine.execSetLoadComplete s
  | .consoleEntryQueue p v => Sys2Proof.Machine.execConsoleEntryQueue p v s
  | .reactionAcknowledge p n => Sys2Proof.Machine.execReactionAcknowledge p n s
  | .injectorSeal p k => Sys2Proof.Machine.execInjectorSeal p k s
  | .injectorStart p k => Sys2Proof.Machine.execInjectorStart p k s
  | .injectorStop p k => Sys2Proof.Machine.execInjectorStop p k s
  | .captureSeal p => Sys2Proof.Machine.execCaptureSeal p s
  | .captureStart p => Sys2Proof.Machine.execCaptureStart p s
  | .captureStop p => Sys2Proof.Machine.execCaptureStop p s
  | .axisUpdate la => Sys2Proof.Machine.execAxisUpdate la s
  | .chopperFault a w cyc => Sys2Proof.Machine.execChopperFault a w cyc s
  | .axisClr p a => Sys2Proof.Machine.execAxisClr p a s
  | .axisSetp p a v => Sys2Proof.Machine.execAxisSetp p a v s
  | .axisCommit p a => Sys2Proof.Machine.execAxisCommit p a s
  | .axisSeal p a => Sys2Proof.Machine.execAxisSeal p a s
  | .encoderEdge e k => Sys2Proof.Machine.execEncoderEdge e k s
  | .pulseInputEdge p ten => Sys2Proof.Machine.execPulseInputEdge p ten s
  | .restartRequest p part kind => Sys2Proof.Machine.execRestartRequest p part kind s
  | .partitionRestart => Sys2Proof.Machine.execPartitionRestart s
  | .outputReleaseRequest p => Sys2Proof.Machine.execOutputReleaseRequest p s
  | .outputRelease => Sys2Proof.Machine.execOutputRelease s
  | .kickOffRequest p key cold kick => Sys2Proof.Machine.execKickOffRequest p key cold kick s
  | .requestedKickOff => Sys2Proof.Machine.execRequestedKickOff s
  | .canFrameReceive c f => Sys2Proof.Machine.execCanFrameReceive c f s
  | .canTxRequest p c obj sealed => Sys2Proof.Machine.execCanTxRequest p c obj sealed s
  | .canTxCancel p c obj => Sys2Proof.Machine.execCanTxCancel p c obj s
  | .canTxAttempt c cyc => Sys2Proof.Machine.execCanTxAttempt c cyc s
  | .canTxComplete c ok => Sys2Proof.Machine.execCanTxComplete c ok s
  | .canBusError c e => Sys2Proof.Machine.execCanBusError c e s
  | .busOffRecovery c n => Sys2Proof.Machine.execBusOffRecovery c n s
  | .canRecov p c => Sys2Proof.Machine.execCanRecov p c s
  | .stationDropout c st => Sys2Proof.Machine.execStationDropout c st s
  | .stationReturn c st => Sys2Proof.Machine.execStationReturn c st s
  | .canChannelSeal p c => Sys2Proof.Machine.execCanChannelSeal p c s
  | .canChannelSealComplete c => Sys2Proof.Machine.execCanChannelSealComplete c s
  | .modulatorFault k clk => Sys2Proof.Machine.execModulatorFault k clk s
  | .meteringUpdate x => Sys2Proof.Machine.execMeteringUpdate x s
  | .groupCommit p g => Sys2Proof.Machine.execGroupCommit p g s
  | .meteringSeal p u => Sys2Proof.Machine.execMeteringSeal p u s
  | .energyRegisterRead p n => Sys2Proof.Machine.execEnergyRegisterRead p n s
  | .summaryRead p n => Sys2Proof.Machine.execSummaryRead p n s
  | .meteringSave => Sys2Proof.Machine.execMeteringSave s
  | .meteringSaveComplete ok => Sys2Proof.Machine.execMeteringSaveComplete ok s
  | .meteringRestore p => Sys2Proof.Machine.execMeteringRestore p s
  | .meteringZero p => Sys2Proof.Machine.execMeteringZero p s
  | .pulseOutputStart o ten => Sys2Proof.Machine.execPulseOutputStart o ten s
  | .pulseOutputEnd o => Sys2Proof.Machine.execPulseOutputEnd o s
  | .meteringPost => Sys2Proof.Machine.execMeteringPost s
  | .adcConversionEnd k urgent code => Sys2Proof.Machine.execAdcConversionEnd k urgent code s
  | .urgentRequest p ch conv => Sys2Proof.Machine.execUrgentRequest p ch conv s
  | .trackerReset p high v => Sys2Proof.Machine.execTrackerReset p high v s
  | .calCaptureZero p ch range nlog => Sys2Proof.Machine.execCalCaptureZero p ch range nlog s
  | .calCaptureFullScale p ch range nlog => Sys2Proof.Machine.execCalCaptureFullScale p ch range nlog s
  | .calCaptureComplete => Sys2Proof.Machine.execCalCaptureComplete s
  | .calCompute p ch range => Sys2Proof.Machine.execCalCompute p ch range s
  | .calCommit p ch => Sys2Proof.Machine.execCalCommit p ch s
  | .calStore p => Sys2Proof.Machine.execCalStore p s
  | .calLoad p => Sys2Proof.Machine.execCalLoad p s
  | .calStoreLoadComplete ok => Sys2Proof.Machine.execCalStoreLoadComplete ok s
  | .adcSeal p => Sys2Proof.Machine.execAdcSeal p s
  | .adcPost => Sys2Proof.Machine.execAdcPost s
  | .outputReadback rb => Sys2Proof.Machine.execOutputReadback rb s
  | .darkTest o off => Sys2Proof.Machine.execDarkTest o off s
  | .clockMonitorFault on => Sys2Proof.Machine.execClockMonitorFault on s
  | .supplyWindowFault on => Sys2Proof.Machine.execSupplyWindowFault on s
  | .graceExpiry => Sys2Proof.Machine.execGraceExpiry s
  | .safetyTrip p => Sys2Proof.Machine.execSafetyTrip p s
  | .armSequence p k => Sys2Proof.Machine.execArmSequence p k s
  | .safeSeal p => Sys2Proof.Machine.execSafeSeal p s
  | .bextisSend p c => Sys2Proof.Machine.execBextisSend p c s
  | .bextisSafeStateSend c => Sys2Proof.Machine.execBextisSafeStateSend c s
  | .bextisCopyReceive c b dest msg => Sys2Proof.Machine.execBextisCopyReceive c b dest msg s
  | .pairingWindowEnd c => Sys2Proof.Machine.execPairingWindowEnd c s
  | .bextisTimeout c => Sys2Proof.Machine.execBextisTimeout c s
  | .ethernetFrameReceive p cyc fcsOk fifo frame => Sys2Proof.Machine.execEthernetFrameReceive p cyc fcsOk fifo frame s
  | .transmitKick p ii => Sys2Proof.Machine.execTransmitKick p ii s
  | .transmitDescriptor ii cyc => Sys2Proof.Machine.execTransmitDescriptor ii cyc s
  | .prpSupervisionSend ii => Sys2Proof.Machine.execPrpSupervisionSend ii s
  | .prpLanSilent ii lanB => Sys2Proof.Machine.execPrpLanSilent ii lanB s
  | .linkChange p up spd fdx => Sys2Proof.Machine.execLinkChange p up spd fdx s
  | .ethnSeal p ii => Sys2Proof.Machine.execEthnSeal p ii s
  | .networkTimeWrap cyc => Sys2Proof.Machine.execNetworkTimeWrap cyc s
  | .ptptStep p v => Sys2Proof.Machine.execPtptStep p v s
  | .rtcSecondBoundary osc => Sys2Proof.Machine.execRtcSecondBoundary osc s
  | .rtcbSet p v => Sys2Proof.Machine.execRtcbSet p v s
  | .dst p => Sys2Proof.Machine.execDst p s
  | .backupSupplySwitch vmain vbak => Sys2Proof.Machine.execBackupSupplySwitch vmain vbak s
  | .backupDomainReset => Sys2Proof.Machine.execBackupDomainReset s
  | .strapChange strap => Sys2Proof.Machine.execStrapChange strap s
  | .rioftTraining up own peer => Sys2Proof.Machine.execRioftTraining up own peer s
  | .rioftBlockSend b => Sys2Proof.Machine.execRioftBlockSend b s
  | .rioftBlockReceive block => Sys2Proof.Machine.execRioftBlockReceive block s
  | .snapshotItemApply x => Sys2Proof.Machine.execSnapshotItemApply x s
  | .starvation cyc => Sys2Proof.Machine.execStarvation cyc s
  | .localmaxExpiry => Sys2Proof.Machine.execLocalmaxExpiry s
  | .statusBlockSend => Sys2Proof.Machine.execStatusBlockSend s
  | .poll => Sys2Proof.Machine.execPoll s
  | .heart msg => Sys2Proof.Machine.execHeart msg s
  | .heartReceive b msg => Sys2Proof.Machine.execHeartReceive b msg s
  | .refereeEvaluation fbA fbB => Sys2Proof.Machine.execRefereeEvaluation fbA fbB s
  | .assignActive msg => Sys2Proof.Machine.execAssignActive msg s
  | .assignStandby msg => Sys2Proof.Machine.execAssignStandby msg s
  | .takeover msg => Sys2Proof.Machine.execTakeover msg s
  | .fenceInput on => Sys2Proof.Machine.execFenceInput on s
  | .fenceRelease p relA relB => Sys2Proof.Machine.execFenceRelease p relA relB s
  | .refereeAbsentStart => Sys2Proof.Machine.execRefereeAbsentStart s
  | .solo p => Sys2Proof.Machine.execSolo p s
  | .handover p => Sys2Proof.Machine.execHandover p s
  | .handoverAtH => Sys2Proof.Machine.execHandoverAtH s
  | .handoverReceive => Sys2Proof.Machine.execHandoverReceive s
  | .resync p => Sys2Proof.Machine.execResync p s
  | .resyncCopyPass lines endOfPass dirty => Sys2Proof.Machine.execResyncCopyPass lines endOfPass dirty s
  | .freezeJoin dirty mram => Sys2Proof.Machine.execFreezeJoin dirty mram s
  | .joinApply ok x => Sys2Proof.Machine.execJoinApply ok x s
  | .pairSeal p r => Sys2Proof.Machine.execPairSeal p r s
  | .ident => Sys2Proof.Machine.execIdent s
  | .measure => Sys2Proof.Machine.execMeasure s
  | .readmr => Sys2Proof.Machine.execReadmr s
  | .trustVerify w => Sys2Proof.Machine.execTrustVerify w s
  | .attest => Sys2Proof.Machine.execAttest s
  | .keyload => Sys2Proof.Machine.execKeyload s
  | .derive => Sys2Proof.Machine.execDerive s
  | .trustMac => Sys2Proof.Machine.execTrustMac s
  | .seala => Sys2Proof.Machine.execSeala s
  | .opena => Sys2Proof.Machine.execOpena s
  | .sign => Sys2Proof.Machine.execSign s
  | .importKey w => Sys2Proof.Machine.execImport w s
  | .destroy w => Sys2Proof.Machine.execDestroy w s
  | .clear => Sys2Proof.Machine.execClear s
  | .codeload w => Sys2Proof.Machine.execCodeload w s
  | .owner w => Sys2Proof.Machine.execOwner w s
  | .release w => Sys2Proof.Machine.execRelease w s
  | .trustRequestComplete => Sys2Proof.Machine.execTrustRequestComplete s
  | .programRecord p => Sys2Proof.Machine.execProgramRecord p s
  | .recordWrite fail => Sys2Proof.Machine.execRecordWrite fail s
  | .monitorPut p m v => Sys2Proof.Machine.execMonitorPut p m v s
  | .monitorSeal p m => Sys2Proof.Machine.execMonitorSeal p m s
  | .wearDecision kind unit v errs hard => Sys2Proof.Machine.execWearDecision kind unit v errs hard s
  | .bnchReq p kind unit => Sys2Proof.Machine.execBnchReq p kind unit s
  | .subst arg => Sys2Proof.Machine.execSubst arg s
  | .benchSubstitution => Sys2Proof.Machine.execBenchSubstitution s
  | .feedPresent b => Sys2Proof.Machine.execFeedPresent b s
  | .feedLost b => Sys2Proof.Machine.execFeedLost b s
  | .feedOutOfBand b => Sys2Proof.Machine.execFeedOutOfBand b s
  | .powerDown => Sys2Proof.Machine.execPowerDown s
  | .outputOverload o => Sys2Proof.Machine.execOutputOverload o s
  | .overloadRetry o => Sys2Proof.Machine.execOverloadRetry o s
  | .modulatorFaultEnd k clk => Sys2Proof.Machine.execModulatorFaultEnd k clk s
  | .restoreOrZeroComplete => Sys2Proof.Machine.execRestoreOrZeroComplete s
  | .bufferClosedAndSealed => Sys2Proof.Machine.execBufferClosedAndSealed s
  | .domainWriteCrossing => Sys2Proof.Machine.execDomainWriteCrossing s
  | .busIntegrationComplete c => Sys2Proof.Machine.execBusIntegrationComplete c s

end Sys2Proof.Machine
end

