-- ==== Sys2Proof/Safety.lean ====
section
/-! DEFINITION. The terms in which claims speak: an instruction's place in time and the state it acts on, what a core and a
module must satisfy to be sound, and which commands act on their own core alone. -/

namespace Sys2Proof.Machine

/-! ## An answer with a property -/

/-- exec answers a next state of which P holds. -/
def Answers (c : Instr) (s : State) (P : State → Prop) : Prop := ∃ t, exec c s = .next t ∧ P t

/-! ## An instruction and the state it acts on (R55, R63, R79, R84, R545) -/

/-- The state an instruction issued so acts on: what was due by its cycle has arrived, and a single-bit error of its word is
corrected. -/
def State.during (s : State) (i : Issue) : State := (s.atCycle i.cyc).fetchFix i.core.val

/-- The core that executes the instruction, as the instruction finds it. -/
def State.doing (s : State) (i : Issue) : CoreS := (s.during i).core i.core.val

/-- A program on the port's core can access the block registers in that cycle (R5): the core has started and is not stopped. -/
def State.serves (s : State) (p : Port) : Bool :=
  ((s.atCycle p.cyc).core p.core.val).on && !((s.atCycle p.cyc).core p.core.val).stopped

/-- The core executes in the cycle of the issue, no substitution pauses it, and its instruction word can be read. -/
def State.ready (s : State) (i : Issue) : Bool :=
  let t := s.atCycle i.cyc
  (t.core i.core.val).executes && !t.paused i.core.val
    && (t.core i.core.val).fetchMark != .double && (t.core i.core.val).fetchMark != .poisoned
    && !(t.core i.core.val).reservedWord i

/-- The state after an instruction that left t. -/
def State.ended (s : State) (i : Issue) (t : State) : State := (s.during i).noteBegan i.core.val t

/-- The state after an instruction that changes nothing but its core, and leaves that as c. -/
def State.after (s : State) (i : Issue) (c : CoreS) : State := s.ended i ((s.during i).setCore i.core.val c)

/-- The state after an instruction that met a trap. -/
def State.trapped (s : State) (i : Issue) (cause : Nat) (fa : Option Nat) : State :=
  s.ended i ((s.during i).enterTrap i.core.val cause fa)

/-- A write of the instruction leaves its core: the shadow checker of a checked core does not disagree, and no stop-class event
reaches the core first (R48, R49, R79). -/
def State.sends (s : State) (i : Issue) : Bool :=
  !isChecked i.core.val || (!i.chk && !(s.during i).stopBy i.core.val ((s.during i).now + 1))

/-- What a write of the instruction finds when it leaves (R48). -/
def State.sending (s : State) (i : Issue) : State := (s.during i).setCycle (i.cyc + if 12 ≤ i.core.val then 2 else 0)

/-- t is u but for its cores and the note of the instructions they began, and of its cores only core p differs. -/
def OnlyCore (u t : State) (p : Nat) : Prop :=
  (∃ cs bg, t = { u with cores := cs, began := bg }) ∧ ∀ q, q ≠ p → t.core q = u.core q

/-- The core after a non-transferring instruction of the given cycles: at the next instruction, by way of the loops that end
here. -/
def CoreS.past (c : CoreS) (cost : Nat) : CoreS := { c.advance with cost := cost }

/-- The command is the instruction whose word stands at the pc of its core (R61, R82). -/
def State.fetches (s : State) (c : Instr) : Bool :=
  match issueOf c with
  | none => false
  | some i =>
    let k := (s.atCycle i.cyc).core i.core.val
    decodeDwenan i (BitVec.ofNat 32 (memRead k.imem k.pc 4)) == some c

/-! ## Sound cores -/

/-- A loop entry as LOOP leaves it and its iterations keep it (R66, R104): the body in instruction memory, word by word, and
1 to 65,536 iterations to go. -/
def LoopEnt.sound (e : LoopEnt) : Prop :=
  e.first % 4 = 0 ∧ e.last % 4 = 0 ∧ e.first ≤ e.last ∧ e.last ≤ 0xFFFC ∧ 1 ≤ e.count ∧ e.count ≤ 65536

/-- Loops are nested: no entry was opened deeper than the one before it, and none deeper than the present depth (R66). -/
def nested (d : Nat) : List LoopEnt → Prop
  | [] => True
  | e :: r => e.depth ≤ d ∧ nested e.depth r

/-- A core is sound: its pc names a word of instruction memory (R61), its stacks hold at most 16 return addresses and 4 loops
(R66, R69), the return addresses are word addresses, at most one past the memory, and the loops are sound and nested. -/
def CoreS.sound (c : CoreS) : Prop :=
  c.pc % 4 = 0 ∧ c.pc ≤ 0xFFFC ∧ c.rstack.length ≤ 16 ∧ (∀ a ∈ c.rstack, a % 4 = 0 ∧ a ≤ 0x10000)
    ∧ c.lstack.length ≤ 4 ∧ (∀ e ∈ c.lstack, e.sound) ∧ nested c.rstack.length c.lstack

/-- Every core is sound, and so is every core as a cut-off instruction would be undone to (R79). -/
def State.sound (s : State) : Prop :=
  ∀ p, (s.core p).sound ∧ (NMap.get Began.none s.began p).core.sound

/-! ## Families of commands -/

/-- Instructions that read and write their core's registers, flags and accumulators alone and go on at the next
instruction (R88 to R101, R120). -/
def registerOnly : Instr → Bool
  | .add .. | .addc .. | .adds .. | .sub .. | .subc .. | .subs .. | .and .. | .or .. | .xor .. => true
  | .shl .. | .shr .. | .sra .. | .ror .. | .mul .. | .mulh .. | .mulhu .. | .mulw .. | .cmp .. => true
  | .min .. | .max .. | .minu .. | .maxu .. | .sel .. | .neg .. | .abs .. | .clz .. | .sexb .. | .sexh .. => true
  | .addd .. | .subd .. | .addds .. | .subds .. => true
  | .addi .. | .andi .. | .ori .. | .xori .. | .shi .. | .cmpi .. | .lui .. | .li .. => true
  | .mulq .. | .mac .. | .clra .. | .lda .. | .adda .. | .suba .. | .ext .. => true
  | .nop .. | .rdsr .. | .wrsr .. | .rdid .. => true
  | _ => false

/-- Instructions that transfer control, and LOOP (R102 to R104). -/
def transfers : Instr → Bool
  | .b .. | .call .. | .jr .. | .callr .. | .ret .. | .loop .. => true
  | _ => false

/-- The data stack (R96). -/
def stackOnly : Instr → Bool
  | .push .. | .pop .. | .pushd .. | .popd .. => true
  | _ => false

/-- Does a register-only or stack instruction name general register k as one it writes: its destination, the second of a
pair, or w63 of a stack instruction (R57, R91 to R96)? -/
def writesReg (c : Instr) (k : Nat) : Bool :=
  match c with
  | .add _ rd _ _ | .addc _ rd _ _ | .adds _ rd _ _ | .sub _ rd _ _ | .subc _ rd _ _ | .subs _ rd _ _ => k == rd.toNat
  | .and _ rd _ _ | .or _ rd _ _ | .xor _ rd _ _ => k == rd.toNat
  | .shl _ rd _ _ _ | .shr _ rd _ _ _ | .sra _ rd _ _ _ | .ror _ rd _ _ _ => k == rd.toNat
  | .mul _ rd _ _ | .mulh _ rd _ _ | .mulhu _ rd _ _ => k == rd.toNat
  | .min _ rd _ _ | .max _ rd _ _ | .minu _ rd _ _ | .maxu _ rd _ _ | .sel _ rd _ _ _ => k == rd.toNat
  | .neg _ rd _ _ | .abs _ rd _ _ | .clz _ rd _ _ | .sexb _ rd _ _ | .sexh _ rd _ _ => k == rd.toNat
  | .mulw _ rd _ _ | .addd _ rd _ _ | .subd _ rd _ _ | .addds _ rd _ _ | .subds _ rd _ _ =>
    k == rd.toNat || k == rd.toNat + 1
  | .addi _ rd _ _ | .andi _ rd _ _ | .ori _ rd _ _ | .xori _ rd _ _ | .shi _ rd _ _ => k == rd.toNat
  | .lui _ rd _ | .li _ rd _ => k == rd.toNat
  | .mulq _ rd _ _ _ => k == rd.toNat
  | .ext _ rd _ _ fn => k == rd.toNat || (fn.getLsbD 6 && k == rd.toNat + 1)
  | .rdsr _ rd _ | .rdid _ rd _ => k == rd.toNat
  | .push .. | .pushd .. => k == 63
  | .pop _ rd _ _ => k == rd.toNat || k == 63
  | .popd _ rd _ _ => k == rd.toNat || k == rd.toNat + 1 || k == 63
  | _ => false

/-- Does the instruction name accumulator k as one it writes (R58, R99 to R101)? -/
def writesAcc (c : Instr) (k : Nat) : Bool :=
  match c with
  | .mac _ rd _ _ _ => k == rd.toNat % 4
  | .clra _ rd _ _ | .lda _ rd _ _ | .adda _ rd _ _ | .suba _ rd _ _ => k == rd.toNat
  | .ext _ _ ra _ fn => fn.getLsbD 7 && k == ra.toNat
  | _ => false

/-- Does the instruction change no flag, of those that only a computation changes (R89, R91, R94, R120)? -/
def keepsFlags : Instr → Bool
  | .sel .. | .lui .. | .li .. | .clra .. | .lda .. | .nop .. | .rdsr .. | .rdid .. => true
  | .push .. | .pop .. | .pushd .. | .popd .. => true
  | _ => false

/-- The fields of an instruction obey the rules of R83: every field that must be 0 is, no selector is a reserved one, and a pair
is named by an even register (R57, R83, R91 to R120). -/
def legalFields : Instr → Bool
  | .shl _ _ _ rb fn | .shr _ _ _ rb fn | .sra _ _ _ rb fn | .ror _ _ _ rb fn =>
    (decide (fn.toNat = 0) || (decide (128 ≤ fn.toNat) && decide (fn.toNat < 160) && rb == 0))
  | .mulw _ rd _ _ => decide (rd.toNat % 2 = 0)
  | .cmp _ rd _ _ => rd == 0
  | .sel _ _ _ _ fn => decide (fn.toNat < 15)
  | .neg _ _ _ rb | .abs _ _ _ rb | .clz _ _ _ rb | .sexb _ _ _ rb | .sexh _ _ _ rb => rb == 0
  | .addd _ rd ra rb | .subd _ rd ra rb | .addds _ rd ra rb | .subds _ rd ra rb =>
    decide (rd.toNat % 2 = 0) && decide (ra.toNat % 2 = 0) && decide (rb.toNat % 2 = 0)
  | .push _ rd _ rb => rd == 0 && rb == 0
  | .pop _ _ ra rb => ra == 0 && rb == 0
  | .pushd _ rd ra rb => rd == 0 && rb == 0 && decide (ra.toNat % 2 = 0)
  | .popd _ rd ra rb => ra == 0 && rb == 0 && decide (rd.toNat % 2 = 0)
  | .shi _ _ _ imm => decide (imm.toNat < 128)
  | .cmpi _ rd _ _ => rd == 0
  | .ldd _ rd _ _ | .sdd _ rd _ _ => decide (rd.toNat % 2 = 0)
  | .mulq _ _ _ _ fn => decide (fn.toNat < 64)
  | .mac _ rd _ _ fn => decide (fn.toNat < 3) && decide (rd.toNat < 12)
  | .clra _ rd ra rb => decide (rd.toNat < 4) && ra == 0 && rb == 0
  | .lda _ rd ra rb => decide (rd.toNat < 4) && decide (ra.toNat % 2 = 0) && rb == 0
  | .adda _ rd ra rb | .suba _ rd ra rb => decide (rd.toNat < 4) && ra == 0 && decide (rb.toNat < 4)
  | .ext _ rd ra rb fn => decide (ra.toNat < 4) && rb == 0 && (!fn.getLsbD 6 || decide (rd.toNat % 2 = 0))
  | .b _ cond ra _ => cond == 15 || ra == 0
  | .call _ rd imm => rd == 0 && decide (imm.toNat < 16384)
  | .jr _ rd _ rb | .callr _ rd _ rb => rd == 0 && rb == 0
  | .ret _ rd ra rb => rd == 0 && ra == 0 && rb == 0
  | .loop _ r mid _ => r == 0 || decide (mid.toNat % 512 = 0)
  | .trap _ rd ra _ => rd == 0 && ra == 0
  | .nop _ rd ra => rd == 0 && ra == 0
  | .rdsr _ _ ra | .rdid _ _ ra => ra == 0
  | .wrsr _ rd _ => rd == 0
  | .slack _ _ ra sel => ra == 0 && sel == 0
  | .pub _ _ _ sel | .evwait _ _ _ sel => sel == 0
  | .take _ rd _ _ => decide (rd.toNat % 4 = 0)
  | .evt _ rd _ sel => rd == 0 && decide (sel.toNat < 16)
  | .objseq _ _ _ sel | .sqpost _ _ _ sel => decide (sel.toNat < 2)
  | .wtk _ _ ra sel => ra == 0 && (if sel.getLsbD 12 then !sel.getLsbD 11 && decide (sel.toNat % 2048 < 4)
      else decide (sel.toNat % 2048 < 128) && (!sel.getLsbD 11 || decide (sel.toNat % 128 = 0)))
  | .evget _ _ ra sel => decide (sel.toNat < 2048) && (if sel.getLsbD 8 && sel.getLsbD 9 then decide (sel.toNat % 256 = 0)
      else if sel.getLsbD 8 then ra == 0 else !sel.getLsbD 9 && decide (sel.toNat % 256 = 0) && ra == 0)
  | _ => true

/-! ## Integers and their destinations -/

/-- An integer that a signed destination of w bits does not hold (R59, R93). -/
def outside (w : Nat) (x : Int) : Bool := decide (x < -2 ^ (w - 1)) || decide (2 ^ (w - 1) ≤ x)

/-- The nearest value that a signed destination of w bits holds (R60, R93). -/
def nearest (w : Nat) (x : Int) : Int := max (-2 ^ (w - 1)) (min (2 ^ (w - 1) - 1) x)

/-- x / 2^sh rounded half upwards (R60). -/
def halfUp (x : Int) (sh : Nat) : Int := if sh = 0 then x else (x + 2 ^ (sh - 1)) / 2 ^ sh

/-- The loops that stay open when control goes forward to t at call depth d: the outermost ones, up to the first that was
opened at this depth and whose body t lies outside (R68). -/
def stillOpen (t d : Nat) (l : List LoopEnt) : List LoopEnt :=
  (l.reverse.takeWhile fun e => !(decide (e.depth = d) && (decide (t < e.first) || decide (e.last < t)))).reverse

/-- The core with the flags Z, N, C and V given (R89). -/
def CoreS.withFlags (c : CoreS) (z n cf vf : Bool) : CoreS := { c with z := z, n := n, c := cf, v := vf }

/-! ## Carried buffers and solver commands -/

/-- The words ws stand at commons address a, free of error, and with chk their check word stands behind them (R131, R136,
R138, R219). -/
def State.buffer (s : State) (chk : Bool) (a : Nat) (ws : List Nat) : Prop :=
  a % 8 = 0 ∧ (∀ w, a / 8 ≤ w → w < a / 8 + ws.length + b2n chk → s.wordMark w = .clean)
    ∧ (List.range ws.length).map (fun j => memRead s.mem (a + 8 * j) 8) = ws
    ∧ (chk = true → memRead s.mem (a + 8 * ws.length) 8 = carryWord ws)

/-- The bytes outside the n from a are the same in t as in s. -/
def State.sameBut (s t : State) (a n : Nat) : Prop :=
  ∀ b, b < a ∨ a + n ≤ b → memRead t.mem b 1 = memRead s.mem b 1

/-- The started command that a ticket names, on its lanes and with its work not done (R219, R223, R227). -/
def State.works (s : State) (short : Bool) (seq : BitVec 16) (c : SqCmd) (r : SqRun) : Prop :=
  s.solv.held.find? (fun d => d.short == short && d.seq == seq.toNat) = some c ∧ c.run = some r ∧ r.fin = none ∧ r.lanes ≠ []

/-- How the work of a ticket's command ended (R236). -/
def State.workEnd (s : State) (short : Bool) (seq : BitVec 16) : Option SqFin :=
  ((s.solv.held.find? fun d => d.short == short && d.seq == seq.toNat).bind SqCmd.run).bind SqRun.fin

/-- A command that meets no store error and no lane fault (R202, R205). -/
def calmRun : SolvUpset := ⟨0, false, none⟩

/-! ## Safe runs -/

/-- No core is stopped and the safety channel, once armed, has seen no fault: the run a controller is built for
(R72, R431). -/
def State.undisturbed (s : State) : Prop :=
  (∀ p, p < 16 → (s.core p).stopped = false) ∧ s.rd R.SAFE_FCAUSE_F = 0

/-- The memories of the module and of its cores, and the lists of registers and general registers, are in canonical form. -/
def State.canonical (s : State) : Prop :=
  Memory.wf s.mem ∧ (∀ p, Memory.wf (s.core p).imem ∧ Memory.wf (s.core p).dmem)

end Sys2Proof.Machine
end

