-- ==== Sys2Proof/Certificates/Slice0/Obligations.lean ====
section
/-! DEFINITION. The statements about this model, in the order of the chapters of spec/. A statement over every state holds in
states no run reaches; what a statement rests on beside the spec is named where it stands. -/
open Sys2Proof Sys2Proof.Machine
/-! ## The queue of commands -/

/-- A step takes the command at the front of the queue and has its effect with the queue's rest; with no command waiting the
module idles (both the model's own, notes/assumptions/2). -/
def Obligations.StepRunsFrontCommand : Prop :=
  (∀ (s : State) (c : Instr) (q : List Instr), step { s with pending := c :: q } = exec c { s with pending := q })
    ∧ ∀ s : State, s.pending = [] → step s = .next s

/-! ## Encodings (R82, R88 to R120) -/

/-- The eight words of the worked example of 03_dwenan_isa, at their addresses, spell the instructions it names. -/
def Obligations.WorkedExampleDecodes : Prop :=
  ∀ i : Issue,
    decodeDwenan i 0xA8000000 = some (.clra i 0 0 0)
    ∧ decodeDwenan i 0xBC003C04 = some (.loop i 0 15 4)
    ∧ decodeDwenan i 0x88408000 = some (.lw i 4 2 0)
    ∧ decodeDwenan i 0x8850C000 = some (.lw i 5 3 0)
    ∧ decodeDwenan i 0x40208004 = some (.addi i 2 2 4)
    ∧ decodeDwenan i 0x4030C004 = some (.addi i 3 3 4)
    ∧ decodeDwenan i 0xA4010500 = some (.mac i 0 4 5 0)
    ∧ decodeDwenan i 0xAC60001F = some (.ext i 6 0 0 31)

/-- Every instruction is read back from its word, with every operand. -/
def Obligations.DecodeOfEncode : Prop :=
  ∀ (i : Issue) (c : Instr) (w : BitVec 32), issueOf c = some i → encodeDwenan c = some w → decodeDwenan i w = some c

/-- A word that spells an instruction is that instruction's word: no two instructions share one, and no bit of a word is
dropped. -/
def Obligations.EncodeOfDecode : Prop :=
  ∀ (i : Issue) (c : Instr) (w : BitVec 32), decodeDwenan i w = some c → issueOf c = some i ∧ encodeDwenan c = some w

/-! ## Cores stay sound -/

/-- After reset every core is sound (the values of a core that has not started are the model's choice where no rule names one,
notes/assumptions/9). -/
def Obligations.ResetCoresSound : Prop := State.sound State.reset

/-- From any state whose cores are sound, a step that runs an instruction on registers, stacks or the flow of control leaves
them sound: every pc names a word of instruction memory, no return stack holds more than 16 entries and no loop stack more
than 4, and loops stay nested in the calls they were opened in. -/
def Obligations.CoreStepKeepsCoresSound : Prop :=
  ∀ (s t : State) (c : Instr) (q : List Instr), s.sound → s.pending = c :: q →
    (registerOnly c || transfers c || stackOnly c) = true → step s = .next t → t.sound

/-! ## Registers -/

/-- General registers (R57): w0 reads as zero and discards writes; any other register reads what was last written to it, and
no other register changes; a pair holds its low word in the even register. -/
def Obligations.GeneralRegisters : Prop :=
  ∀ (c : CoreS) (k j : Nat) (v : Word) (d : DWord),
    c.reg 0 = 0 ∧ c.setReg 0 v = c ∧ (k ≠ 0 → (c.setReg k v).reg k = v) ∧ (j ≠ k → (c.setReg k v).reg j = c.reg j)
      ∧ (k ≠ 0 → k % 2 = 0 → (c.setPair k d).reg k = d.setWidth 32 ∧ (c.setPair k d).reg (k + 1) = (d >>> 32).setWidth 32
          ∧ (c.setPair k d).pair k = d)
      ∧ (c.setPair 0 d).reg 1 = (d >>> 32).setWidth 32

/-- The condition codes (R90). -/
def Obligations.ConditionCodes : Prop :=
  ∀ (c : CoreS) (ra : Nat),
    c.cond 0 ra = true ∧ c.cond 1 ra = c.z ∧ c.cond 2 ra = !c.z ∧ c.cond 3 ra = c.n ∧ c.cond 4 ra = !c.n
      ∧ c.cond 5 ra = c.c ∧ c.cond 6 ra = !c.c ∧ c.cond 7 ra = c.v ∧ c.cond 8 ra = !c.v
      ∧ (c.cond 9 ra = true ↔ c.n ≠ c.v) ∧ (c.cond 10 ra = true ↔ c.n = c.v)
      ∧ (c.cond 11 ra = true ↔ c.z = false ∧ c.n = c.v) ∧ (c.cond 12 ra = true ↔ c.z = true ∨ c.n ≠ c.v)
      ∧ (c.cond 13 ra = true ↔ c.c = true ∧ c.z = false) ∧ (c.cond 14 ra = true ↔ c.c = false ∨ c.z = true)
      ∧ (c.cond 15 ra = true ↔ c.reg ra ≠ 0)

/-! ## Results of the register instructions

Each answers the state in which its core alone has changed: its destination, its flags, its place in the program and its
cycles are those given, and every other register, flag, accumulator and byte is as the instruction found it. -/

/-- ADD, ADDC, SUB, SUBC, CMP, NEG, ADDI and CMPI (R91, R94): the destination, the flags Z and N of the result, C the carry out
or no borrow, V signed overflow; CMP and CMPI write flags alone. ADDS, SUBS and ABS (R93): the exact result or the nearest limit,
V and S set on a limit, and S never cleared. -/
def Obligations.SumsAndDifferences : Prop :=
  ∀ (s : State) (i : Issue) (rd ra rb : BitVec 6) (imm : BitVec 14), s.ready i = true → (s.doing i).runsOut = false →
    let c := s.doing i
    let a := c.reg ra.toNat
    let b := c.reg rb.toNat
    let k : Word := imm.signExtend 32
    let gives (r : Word) (cf : Bool) (x : Int) : Host.Outcome State Fault Refusal :=
      .next (s.after i (((c.setReg rd.toNat r).withFlags (r == 0) r.msb cf (outside 32 x)).past 1))
    let flags (r : Word) (cf : Bool) (x : Int) : Host.Outcome State Fault Refusal :=
      .next (s.after i ((c.withFlags (r == 0) r.msb cf (outside 32 x)).past 1))
    let cin : Nat := if c.c then 1 else 0
    let sat (x : Int) (cf : Bool) : Host.Outcome State Fault Refusal :=
      let r : Word := BitVec.ofInt 32 (nearest 32 x)
      .next (s.after i
        ({ (c.setReg rd.toNat r).withFlags (r == 0) r.msb cf (outside 32 x) with s := c.s || outside 32 x }.past 1))
    exec (.add i rd ra rb) s = gives (a + b) (decide (2 ^ 32 ≤ a.toNat + b.toNat)) (a.toInt + b.toInt)
    ∧ exec (.addc i rd ra rb) s
        = gives (a + b + BitVec.ofNat 32 cin) (decide (2 ^ 32 ≤ a.toNat + b.toNat + cin)) (a.toInt + b.toInt + cin)
    ∧ exec (.sub i rd ra rb) s = gives (a - b) (decide (b.toNat ≤ a.toNat)) (a.toInt - b.toInt)
    ∧ exec (.subc i rd ra rb) s
        = gives (a - b - BitVec.ofNat 32 (1 - cin)) (decide (b.toNat + (1 - cin) ≤ a.toNat)) (a.toInt - b.toInt - (1 - cin : Nat))
    ∧ exec (.cmp i 0 ra rb) s = flags (a - b) (decide (b.toNat ≤ a.toNat)) (a.toInt - b.toInt)
    ∧ exec (.neg i rd ra 0) s = gives (0 - a) (decide (a.toNat = 0)) (-a.toInt)
    ∧ exec (.addi i rd ra imm) s = gives (a + k) (decide (2 ^ 32 ≤ a.toNat + k.toNat)) (a.toInt + k.toInt)
    ∧ exec (.cmpi i 0 ra imm) s = flags (a - k) (decide (k.toNat ≤ a.toNat)) (a.toInt - k.toInt)
    ∧ exec (.adds i rd ra rb) s = sat (a.toInt + b.toInt) (decide (2 ^ 32 ≤ a.toNat + b.toNat))
    ∧ exec (.subs i rd ra rb) s = sat (a.toInt - b.toInt) (decide (b.toNat ≤ a.toNat))
    ∧ exec (.abs i rd ra 0) s = sat a.toInt.natAbs false

/-- AND, OR, XOR, ANDI, ORI, XORI, LUI, LI, SEXB, SEXH and CLZ (R91, R94): logic sets Z and N and clears C and V; LUI and LI
change no flag. -/
def Obligations.LogicAndConstants : Prop :=
  ∀ (s : State) (i : Issue) (rd ra rb : BitVec 6) (imm : BitVec 14) (big : BitVec 20),
    s.ready i = true → (s.doing i).runsOut = false →
    let c := s.doing i
    let a := c.reg ra.toNat
    let b := c.reg rb.toNat
    let k : Word := imm.zeroExtend 32
    let gives (r : Word) : Host.Outcome State Fault Refusal :=
      .next (s.after i (((c.setReg rd.toNat r).withFlags (r == 0) r.msb false false).past 1))
    exec (.and i rd ra rb) s = gives (a &&& b)
    ∧ exec (.or i rd ra rb) s = gives (a ||| b)
    ∧ exec (.xor i rd ra rb) s = gives (a ^^^ b)
    ∧ exec (.andi i rd ra imm) s = gives (a &&& k)
    ∧ exec (.ori i rd ra imm) s = gives (a ||| k)
    ∧ exec (.xori i rd ra imm) s = gives (a ^^^ k)
    ∧ exec (.sexb i rd ra 0) s = gives (BitVec.ofInt 32 ((a.setWidth 8).toInt))
    ∧ exec (.sexh i rd ra 0) s = gives (BitVec.ofInt 32 ((a.setWidth 16).toInt))
    ∧ (∀ n : Nat, n ≤ 32 → (a.toNat < 2 ^ (32 - n) ∧ (n < 32 → 2 ^ (31 - n) ≤ a.toNat)) →
        exec (.clz i rd ra 0) s = gives (BitVec.ofNat 32 n))
    ∧ exec (.lui i rd big) s = .next (s.after i ((c.setReg rd.toNat (big ++ 0#12)).past 1))
    ∧ exec (.li i rd big) s = .next (s.after i ((c.setReg rd.toNat (BitVec.ofInt 32 big.toInt)).past 1))

/-- SHL, SHR, SRA, ROR by a register or by an immediate amount, and SHI (R92, R94): the shifted value, C the last bit shifted
out and 0 for an amount of 0, V cleared. -/
def Obligations.ShiftsAndRotates : Prop :=
  ∀ (s : State) (i : Issue) (rd ra rb : BitVec 6) (fn : BitVec 8) (imm : BitVec 14) (n : Nat),
    s.ready i = true → (s.doing i).runsOut = false → n < 32 →
    let c := s.doing i
    let a := c.reg ra.toNat
    let gives (r : Word) (cf : Bool) : Host.Outcome State Fault Refusal :=
      .next (s.after i (((c.setReg rd.toNat r).withFlags (r == 0) r.msb cf false).past 1))
    let left := gives (BitVec.ofNat 32 (a.toNat * 2 ^ n)) (decide (n ≠ 0) && a.toNat.testBit (32 - n))
    let right := gives (BitVec.ofNat 32 (a.toNat / 2 ^ n)) (decide (n ≠ 0) && a.toNat.testBit (n - 1))
    let arith := gives (BitVec.ofInt 32 (a.toInt / 2 ^ n)) (decide (n ≠ 0) && a.toNat.testBit (n - 1))
    let turn := gives (BitVec.ofNat 32 (a.toNat / 2 ^ n + a.toNat * 2 ^ (32 - n))) (decide (n ≠ 0) && a.toNat.testBit (n - 1))
    ((fn = 0 ∧ (c.reg rb.toNat).toNat % 32 = n) ∨ (fn = 0x80 + BitVec.ofNat 8 n ∧ rb = 0) →
      exec (.shl i rd ra rb fn) s = left ∧ exec (.shr i rd ra rb fn) s = right
        ∧ exec (.sra i rd ra rb fn) s = arith ∧ exec (.ror i rd ra rb fn) s = turn)
    ∧ (imm.toNat = n → exec (.shi i rd ra imm) s = left)
    ∧ (imm.toNat = 32 + n → exec (.shi i rd ra imm) s = right)
    ∧ (imm.toNat = 64 + n → exec (.shi i rd ra imm) s = arith)
    ∧ (imm.toNat = 96 + n → exec (.shi i rd ra imm) s = turn)

/-- MUL, MULH, MULHU, MULW, MIN, MAX, MINU, MAXU and SEL (R91): MUL clears C and sets V where the signed product does not fit;
the others clear C and V, but SEL, which changes no flag. -/
def Obligations.ProductsAndChoices : Prop :=
  ∀ (s : State) (i : Issue) (rd ra rb : BitVec 6) (fn : BitVec 8), s.ready i = true → (s.doing i).runsOut = false →
    let c := s.doing i
    let a := c.reg ra.toNat
    let b := c.reg rb.toNat
    let gives (r : Word) (v : Bool) (cost : Nat) : Host.Outcome State Fault Refusal :=
      .next (s.after i (((c.setReg rd.toNat r).withFlags (r == 0) r.msb false v).past cost))
    exec (.mul i rd ra rb) s = gives (BitVec.ofInt 32 (a.toInt * b.toInt)) (outside 32 (a.toInt * b.toInt)) 2
    ∧ exec (.mulh i rd ra rb) s = gives (BitVec.ofInt 32 (a.toInt * b.toInt / 2 ^ 32)) false 2
    ∧ exec (.mulhu i rd ra rb) s = gives (BitVec.ofNat 32 (a.toNat * b.toNat / 2 ^ 32)) false 2
    ∧ exec (.min i rd ra rb) s = gives (BitVec.ofInt 32 (min a.toInt b.toInt)) false 1
    ∧ exec (.max i rd ra rb) s = gives (BitVec.ofInt 32 (max a.toInt b.toInt)) false 1
    ∧ exec (.minu i rd ra rb) s = gives (BitVec.ofNat 32 (min a.toNat b.toNat)) false 1
    ∧ exec (.maxu i rd ra rb) s = gives (BitVec.ofNat 32 (max a.toNat b.toNat)) false 1
    ∧ (rd.toNat % 2 = 0 →
        let p : DWord := BitVec.ofInt 64 (a.toInt * b.toInt)
        exec (.mulw i rd ra rb) s = .next (s.after i
          ((((c.setReg rd.toNat (p.setWidth 32)).setReg (rd.toNat + 1) ((p >>> 32).setWidth 32)).withFlags
            (p == 0) p.msb false false).past 2)))
    ∧ (fn.toNat < 15 →
        exec (.sel i rd ra rb fn) s
          = .next (s.after i ((c.setReg rd.toNat (if c.cond fn.toNat 0 then a else b)).past 1)))

/-- ADDD, SUBD, ADDDS and SUBDS on pairs (R91, R93): the flags are those of the 64-bit result. -/
def Obligations.PairSumsAndDifferences : Prop :=
  ∀ (s : State) (i : Issue) (rd ra rb : BitVec 6), s.ready i = true → (s.doing i).runsOut = false →
    rd.toNat % 2 = 0 → ra.toNat % 2 = 0 → rb.toNat % 2 = 0 →
    let c := s.doing i
    let a := c.pair ra.toNat
    let b := c.pair rb.toNat
    let set (r : DWord) : CoreS := (c.setReg rd.toNat (r.setWidth 32)).setReg (rd.toNat + 1) ((r >>> 32).setWidth 32)
    let gives (r : DWord) (cf : Bool) (x : Int) : Host.Outcome State Fault Refusal :=
      .next (s.after i (((set r).withFlags (r == 0) r.msb cf (outside 64 x)).past 1))
    let sat (cf : Bool) (x : Int) : Host.Outcome State Fault Refusal :=
      let r : DWord := BitVec.ofInt 64 (nearest 64 x)
      .next (s.after i
        ({ (set r).withFlags (r == 0) r.msb cf (outside 64 x) with s := c.s || outside 64 x }.past 1))
    exec (.addd i rd ra rb) s = gives (a + b) (decide (2 ^ 64 ≤ a.toNat + b.toNat)) (a.toInt + b.toInt)
    ∧ exec (.subd i rd ra rb) s = gives (a - b) (decide (b.toNat ≤ a.toNat)) (a.toInt - b.toInt)
    ∧ exec (.addds i rd ra rb) s = sat (decide (2 ^ 64 ≤ a.toNat + b.toNat)) (a.toInt + b.toInt)
    ∧ exec (.subds i rd ra rb) s = sat (decide (b.toNat ≤ a.toNat)) (a.toInt - b.toInt)

/-- NOP, RDSR, WRSR and RDID (R120, R59), and TRAP, which takes the program trap, cause 11, with sel14 as its address (R119). -/
def Obligations.SystemInstructions : Prop :=
  ∀ (s : State) (i : Issue) (rd ra : BitVec 6) (sel : BitVec 14), s.ready i = true → (s.doing i).runsOut = false →
    let c := s.doing i
    let a := c.reg ra.toNat
    let bit (b : Bool) (n : Nat) : Nat := if b then 2 ^ n else 0
    let status := bit c.z 0 + bit c.n 1 + bit c.c 2 + bit c.v 3 + bit c.s 4 + bit (!c.lstack.isEmpty) 5
    let p := i.core.val
    let id := s.dutyOf p + 16 * p + 256 * s.partOf p + bit (decide (12 ≤ p)) 12
    exec (.nop i 0 0) s = .next (s.after i (c.past 1))
    ∧ exec (.rdsr i rd 0) s = .next (s.after i ((c.setReg rd.toNat (BitVec.ofNat 32 status)).past 1))
    ∧ exec (.wrsr i 0 ra) s = .next (s.after i
        ({ c with z := a.getLsbD 0, n := a.getLsbD 1, c := a.getLsbD 2, v := a.getLsbD 3, s := a.getLsbD 4 }.past 1))
    ∧ exec (.rdid i rd 0) s = .next (s.after i ((c.setReg rd.toNat (BitVec.ofNat 32 id)).past 1))
    ∧ exec (.trap i 0 0 sel) s = .next (s.trapped i 11 (some sel.toNat))

/-- MULQ (R98, R60): the exact product, rounded half upwards and shifted, or the nearest limit with V and S set; C cleared. A
shift field above 63 is an illegal instruction. -/
def Obligations.FixedPointProduct : Prop :=
  ∀ (s : State) (i : Issue) (rd ra rb : BitVec 6) (fn : BitVec 8), s.ready i = true → (s.doing i).runsOut = false →
    let c := s.doing i
    let q := halfUp ((c.reg ra.toNat).toInt * (c.reg rb.toNat).toInt) fn.toNat
    let r : Word := BitVec.ofInt 32 (nearest 32 q)
    exec (.mulq i rd ra rb fn) s =
      if fn.toNat < 64 then .next (s.after i
        ({ (c.setReg rd.toNat r).withFlags (r == 0) r.msb false (outside 32 q) with s := c.s || outside 32 q }.past 2))
      else .next ((s.during i).enterTrap i.core.val 2 none)

/-- MAC, CLRA, LDA, ADDA and SUBA (R58, R99, R100): the exact result or the nearest 72-bit limit, V set on a limit and else
cleared, S set on a limit; CLRA and LDA change no flag. -/
def Obligations.AccumulatorInstructions : Prop :=
  ∀ (s : State) (i : Issue) (rd ra rb : BitVec 6) (fn : BitVec 8), s.ready i = true → (s.doing i).runsOut = false →
    let c := s.doing i
    let a := c.reg ra.toNat
    let b := c.reg rb.toNat
    let set (k : Nat) (x : Int) : CoreS :=
      { c with acc := NMap.set (0 : BitVec 72) c.acc k (BitVec.ofInt 72 (nearest 72 x)) }
    let gives (k : Nat) (x : Int) (cost : Nat) : Host.Outcome State Fault Refusal :=
      .next (s.after i ({ set k x with v := outside 72 x, s := c.s || outside 72 x }.past cost))
    let p : Int := if fn = 0 then a.toInt * b.toInt else if fn = 1 then (a.toNat * b.toNat : Nat) else a.toInt * b.toNat
    (∀ k : Nat, k < 4 → fn.toNat < 3 →
      (rd.toNat = k → exec (.mac i rd ra rb fn) s = gives k (c.accI k + p) 2)
      ∧ (rd.toNat = 4 + k → exec (.mac i rd ra rb fn) s = gives k (c.accI k - p) 2)
      ∧ (rd.toNat = 8 + k → exec (.mac i rd ra rb fn) s = gives k p 2))
    ∧ (rd.toNat < 4 →
        exec (.clra i rd 0 0) s = .next (s.after i ((set rd.toNat 0).past 1))
        ∧ (ra.toNat % 2 = 0 →
            exec (.lda i rd ra 0) s = .next (s.after i ((set rd.toNat (c.pair ra.toNat).toInt).past 1)))
        ∧ (rb.toNat < 4 →
            exec (.adda i rd 0 rb) s = gives rd.toNat (c.accI rd.toNat + c.accI rb.toNat) 1
            ∧ exec (.suba i rd 0 rb) s = gives rd.toNat (c.accI rd.toNat - c.accI rb.toNat) 1))

/-- EXT (R101, R60): an accumulator, rounded half upwards and shifted, to a register or a pair, or the nearest limit with V and S
set; fn[7] clears the accumulator afterwards. -/
def Obligations.AccumulatorExtraction : Prop :=
  ∀ (s : State) (i : Issue) (rd ra : BitVec 6) (sh : Nat) (clear : Bool), s.ready i = true →
    (s.doing i).runsOut = false → ra.toNat < 4 → sh < 64 →
    let c := s.doing i
    let q := halfUp (c.accI ra.toNat) sh
    let w : Word := BitVec.ofInt 32 (nearest 32 q)
    let d : DWord := BitVec.ofInt 64 (nearest 64 q)
    let clr (x : CoreS) : CoreS :=
      if clear then { x with acc := NMap.set (0 : BitVec 72) x.acc ra.toNat 0 } else x
    let fn : BitVec 8 := BitVec.ofNat 8 (sh + if clear then 128 else 0)
    exec (.ext i rd ra 0 fn) s = .next (s.after i ((clr
      { (c.setReg rd.toNat w).withFlags (w == 0) w.msb false (outside 32 q) with s := c.s || outside 32 q }).past 2))
    ∧ (rd.toNat % 2 = 0 →
        exec (.ext i rd ra 0 (fn + 64)) s = .next (s.after i ((clr
          { ((c.setReg rd.toNat (d.setWidth 32)).setReg (rd.toNat + 1) ((d >>> 32).setWidth 32)).withFlags
              (d == 0) d.msb false (outside 64 q) with s := c.s || outside 64 q }).past 2)))

/-! ## Control transfer -/

/-- B (R102, R67, R68): not taken, it goes on at its address plus 4; taken forward, it goes to its own address plus 4 × off16 and
closes the loops it leaves; taken to the first word of the innermost loop it ends the iteration; any other backward target and a
target above 0xFFFC trap; and no branch may be the last word of an active loop's body (R105). -/
def Obligations.BranchOutcomes : Prop :=
  ∀ (s : State) (i : Issue) (cond : BitVec 4) (ra : BitVec 6) (off : BitVec 16), s.ready i = true → (cond = 15 ∨ ra = 0) →
    let c := s.doing i
    let t : Int := c.pc + 4 * off.toInt
    let taken := c.cond cond.toNat ra.toNat
    (taken = false → c.atLoopEnd = false → c.pc + 4 ≤ 0xFFFC →
      exec (.b i cond ra off) s = .next (s.after i { c with pc := c.pc + 4, cost := 1 }))
    ∧ (taken = false → c.pc + 4 ≤ 0xFFFC → c.atLoopEnd = true → c.runsOut = false →
      exec (.b i cond ra off) s = .next (s.trapped i 4 none))
    ∧ (taken = true → c.atLoopEnd = false → c.pc < t → t ≤ 0xFFFC →
      exec (.b i cond ra off) s = .next (s.after i
        { c with pc := t.toNat, lstack := stillOpen t.toNat c.rstack.length c.lstack, cost := 2 }))
    ∧ (taken = true → c.atLoopEnd = true → c.pc < t → exec (.b i cond ra off) s = .next (s.trapped i 4 none))
    ∧ (taken = true → c.atLoopEnd = false → 0xFFFC < t → (c.pc : Int) < t →
      exec (.b i cond ra off) s = .next (s.trapped i 8 (some t.toNat)))
    ∧ (∀ e ∈ c.lstack.head?, taken = true → c.atLoopEnd = false → t ≤ c.pc → (e.first : Int) = t →
        e.depth = c.rstack.length → 1 < e.count → e.first ≤ 0xFFFC →
      exec (.b i cond ra off) s = .next (s.after i
        { c with pc := e.first, lstack := { e with count := e.count - 1 } :: c.lstack.tail, cost := 2 }))
    ∧ (taken = true → t ≤ c.pc → (∀ e ∈ c.lstack.head?, ¬((e.first : Int) = t ∧ e.depth = c.rstack.length)) →
      exec (.b i cond ra off) s = .next (s.trapped i 3 none))

/-- JR (R103): like a taken branch to the register's value, which must be word-aligned. -/
def Obligations.JumpOutcomes : Prop :=
  ∀ (s : State) (i : Issue) (ra : BitVec 6), s.ready i = true →
    let c := s.doing i
    let t := (c.reg ra.toNat).toNat
    (c.atLoopEnd = false → c.pc < t → t % 4 = 0 → t ≤ 0xFFFC →
      exec (.jr i 0 ra 0) s = .next (s.after i
        { c with pc := t, lstack := stillOpen t c.rstack.length c.lstack, cost := 2 }))
    ∧ (c.atLoopEnd = false → c.pc < t → t % 4 ≠ 0 → exec (.jr i 0 ra 0) s = .next (s.trapped i 7 (some t)))
    ∧ (c.atLoopEnd = false → c.pc < t → t % 4 = 0 → 0xFFFC < t → exec (.jr i 0 ra 0) s = .next (s.trapped i 8 (some t)))
    ∧ (t ≤ c.pc → (∀ e ∈ c.lstack.head?, ¬(e.first = t ∧ e.depth = c.rstack.length)) →
      exec (.jr i 0 ra 0) s = .next (s.trapped i 3 none))
    ∧ (∀ e ∈ c.lstack.head?, c.atLoopEnd = false → t ≤ c.pc → t % 4 = 0 → e.first = t → e.depth = c.rstack.length →
        1 < e.count → e.first ≤ 0xFFFC →
      exec (.jr i 0 ra 0) s = .next (s.after i
        { c with pc := e.first, lstack := { e with count := e.count - 1 } :: c.lstack.tail, cost := 2 }))

/-- CALL, CALLR and RET (R103, R69, R68): a call pushes its address plus 4 and leaves loops open; a return pops, and closes
the loops of the depth it leaves; the return stack holds 16 entries. -/
def Obligations.CallsAndReturns : Prop :=
  ∀ (s : State) (i : Issue) (ra : BitVec 6) (imm : BitVec 20), s.ready i = true → (s.doing i).atLoopEnd = false →
    let c := s.doing i
    let t := (c.reg ra.toNat).toNat
    (c.rstack.length < 16 → imm.toNat < 16384 →
      exec (.call i 0 imm) s
        = .next (s.after i { c with pc := 4 * imm.toNat, rstack := (c.pc + 4) :: c.rstack, cost := 2 }))
    ∧ (16 ≤ c.rstack.length → imm.toNat < 16384 → exec (.call i 0 imm) s = .next (s.trapped i 5 none))
    ∧ (c.rstack.length < 16 → t % 4 = 0 → t ≤ 0xFFFC →
      exec (.callr i 0 ra 0) s = .next (s.after i { c with pc := t, rstack := (c.pc + 4) :: c.rstack, cost := 2 }))
    ∧ (16 ≤ c.rstack.length → exec (.callr i 0 ra 0) s = .next (s.trapped i 5 none))
    ∧ (c.rstack.length < 16 → t % 4 ≠ 0 → exec (.callr i 0 ra 0) s = .next (s.trapped i 7 (some t)))
    ∧ (c.rstack.length < 16 → t % 4 = 0 → 0xFFFC < t → exec (.callr i 0 ra 0) s = .next (s.trapped i 8 (some t)))
    ∧ (∀ a ∈ c.rstack.head?, a ≤ 0xFFFC →
      exec (.ret i 0 0 0) s = .next (s.after i
        { c with
          pc := a, rstack := c.rstack.tail, cost := 2,
          lstack := c.lstack.dropWhile (fun e => decide (e.depth = c.rstack.length)) }))
    ∧ (∀ a ∈ c.rstack.head?, 0xFFFC < a → exec (.ret i 0 0 0) s = .next (s.trapped i 8 (some a)))
    ∧ (c.rstack = [] → exec (.ret i 0 0 0) s = .next (s.trapped i 6 none))

/-- LOOP (R66, R104, R105): it opens a loop whose body starts at the next word, with the immediate count plus 1 or the count of a
register, and raises the loop-limit trap where the count, the stack, the memory or the enclosing body do not allow it; where it would
run past 0xFFFC, the illegal-instruction trap comes first (R73, R82). -/
def Obligations.LoopOpens : Prop :=
  ∀ (s : State) (i : Issue) (mid : BitVec 15) (len : BitVec 10) (k : BitVec 6), s.ready i = true →
    let c := s.doing i
    let last := c.pc + 4 * (len.toNat + 1)
    let room := c.atLoopEnd = false ∧ c.lstack.length < 4 ∧ last ≤ 0xFFFC
      ∧ ∀ e, c.lstack.find? (fun e => decide (e.depth = c.rstack.length)) = some e → last ≤ e.last
    let opened (count : Nat) : Host.Outcome State Fault Refusal :=
      .next (s.after i { c with pc := c.pc + 4, lstack := ⟨c.pc + 4, last, count, c.rstack.length⟩ :: c.lstack, cost := 1 })
    let count := (c.reg k.toNat).toNat
    let reg : BitVec 15 := k ++ 0#9
    (room → exec (.loop i 0 mid len) s = opened (mid.toNat + 1))
    ∧ (room → 1 ≤ count → count ≤ 65536 → exec (.loop i 1 reg len) s = opened count)
    ∧ (c.runsOut = false → ¬room → exec (.loop i 0 mid len) s = .next (s.trapped i 4 none))
    ∧ (c.runsOut = false → ¬(room ∧ 1 ≤ count ∧ count ≤ 65536) → exec (.loop i 1 reg len) s = .next (s.trapped i 4 none))
    ∧ (c.runsOut = true → exec (.loop i 0 mid len) s = .next (s.trapped i 2 none)
        ∧ exec (.loop i 1 reg len) s = .next (s.trapped i 2 none))

/-- The step past an instruction (R66, R106): where no loop whose body ends here was opened at the present call depth, control goes
on at the next word and no loop iterates; after the last word of the innermost loop's body, at the depth of its opening, the count
falls and control goes back to the first word while iterations remain, else the loop closes. -/
def Obligations.LoopIteration : Prop :=
  ∀ c : CoreS,
    ((∀ x ∈ c.lstack, ¬(x.last = c.pc ∧ x.depth = c.rstack.length)) → c.advance = { c with pc := c.pc + 4 })
    ∧ ∀ e r, c.lstack = e :: r → e.last = c.pc → e.depth = c.rstack.length →
      (1 < e.count → c.advance = { c with pc := e.first, lstack := { e with count := e.count - 1 } :: r })
      ∧ (e.count ≤ 1 → (∀ x ∈ r, ¬(x.last = c.pc ∧ x.depth = c.rstack.length)) →
          c.advance = { c with pc := c.pc + 4, lstack := r })

/-! ## Traps -/

/-- Taking a trap outside trap mode, in a running module (R71): the cause, the address of the instruction and, for a memory
cause, the data address are recorded; the stacks are emptied, trap mode is entered, and the core goes on at TRAPV after 4
cycles; registers, flags, accumulators, memories and the current job are as before; the trap is counted. -/
def Obligations.TrapEntry : Prop :=
  ∀ (s : State) (p cause : Nat) (fa : Option Nat), p < 16 → s.phase ≠ .setup → (s.core p).trapMode = false →
    cause < 16 →
    let c := s.core p
    let t := s.enterTrap p cause fa
    t.core p = { c with trapMode := true, rstack := [], lstack := [], cost := 4, pc := 4 * s.rd (R.CORE_nVEC_TRAPV p) }
    ∧ t.rd (R.CORE_nTRAP_CAUSE p) = cause ∧ t.rd (R.CORE_nTRAP_DOUBLE p) = 0
    ∧ t.rd (R.CORE_nTRAPPC_PC p) = c.pc % 65536
    ∧ (∀ a, fa = some a → t.rd (R.CORE_nFADDR_ADDR p) = a % 2 ^ 32)
    ∧ (fa = none → t.rd (R.CORE_nFADDR_ADDR p) = s.rd (R.CORE_nFADDR_ADDR p))
    ∧ t.rd (R.CORE_nCNT_TRAPS p) = min 65535 (s.rd (R.CORE_nCNT_TRAPS p) + 1)
    ∧ t.mem = s.mem ∧ t.tier = s.tier ∧ (∀ q, q ≠ p → t.core q = s.core q)

/-- A trap in trap mode (R72): it is recorded with DOUBLE = 1, and the core stops with stop reason 1, double trap. -/
def Obligations.DoubleTrapStops : Prop :=
  ∀ (s : State) (p cause : Nat) (fa : Option Nat), p < 16 → s.phase ≠ .setup → (s.core p).trapMode = true → cause < 16 →
    let t := s.enterTrap p cause fa
    t.rd (R.CORE_nTRAP_CAUSE p) = cause ∧ t.rd (R.CORE_nTRAP_DOUBLE p) = 1 ∧ t.rd (R.CORE_nTRAP_STOP p) = 1
    ∧ (t.core p).stopped = true ∧ (t.core p).executes = false ∧ (t.core p).w = (s.core p).w ∧ t.mem = s.mem

/-- What happens before an instruction has its effect: a core that has not started, waits or is stopped executes nothing (R55, R79);
a word with an uncorrectable error raises the local-ECC trap (R63); a word that spells no instruction, and an instruction that is
ill-formed by R83, raise the illegal-instruction trap at decode, whatever it is; and a register instruction that would run past 0xFFFC raises it too (R82). -/
def Obligations.BeforeTheEffect : Prop :=
  ∀ (s : State) (c : Instr) (i : Issue), issueOf c = some i →
    let u := s.atCycle i.cyc
    let k := u.core i.core.val
    (k.executes = false → exec c s = .next u)
    ∧ (k.executes = true → u.paused i.core.val = false → (k.fetchMark = .double ∨ k.fetchMark = .poisoned) →
      exec c s = .next (u.enterTrap i.core.val 1 none))
    ∧ (k.executes = true → u.paused i.core.val = false → k.fetchMark ≠ .double → k.fetchMark ≠ .poisoned →
      k.reservedWord i = true → exec c s = .next ((s.during i).enterTrap i.core.val 2 none))
    ∧ (s.ready i = true → legalFields c = false → exec c s = .next ((s.during i).enterTrap i.core.val 2 none))
    ∧ (s.ready i = true → legalFields c = true → registerOnly c = true → (s.doing i).runsOut = true →
      exec c s = .next (s.trapped i 2 none))

/-- The frame of the register instructions, in every outcome, traps included: general registers and accumulators they do not name,
both memories, every other core's registers, the commons, the shadow banks and the collected writes, and every register word
of the blocks but those a trap writes, are as they were in that cycle; and the instructions that set no flag leave the flags. -/
def Obligations.RegisterInstructionFrame : Prop :=
  ∀ (s t : State) (c : Instr) (i : Issue), registerOnly c = true → issueOf c = some i → exec c s = .next t →
    let u := s.atCycle i.cyc
    let p := i.core.val
    t.mem = u.mem ∧ t.shadow = u.shadow ∧ t.coll = u.coll ∧ t.tier = u.tier ∧ t.cmns = u.cmns
    ∧ (∀ k, writesReg c k = false → (t.core p).reg k = (u.core p).reg k)
    ∧ (∀ k, writesAcc c k = false → (t.core p).accI k = (u.core p).accI k)
    ∧ (t.core p).dmem = (u.core p).dmem ∧ (t.core p).imem = (u.core p).imem ∧ (t.core p).job = (u.core p).job
    ∧ (keepsFlags c = true → (t.core p).z = (u.core p).z ∧ (t.core p).n = (u.core p).n ∧ (t.core p).c = (u.core p).c
        ∧ (t.core p).v = (u.core p).v ∧ (t.core p).s = (u.core p).s)
    ∧ (∀ q, q ≠ p → (t.core q).w = (u.core q).w ∧ (t.core q).acc = (u.core q).acc ∧ (t.core q).dmem = (u.core q).dmem
        ∧ (t.core q).pc = (u.core q).pc)
    ∧ (∀ a, a ≠ R.CORE_nTRAP p → a ≠ R.CORE_nTRAPPC p → a ≠ R.CORE_nFADDR p → a ≠ R.CORE_nCNT p → a ≠ R.EVNT_STAT →
        a ≠ R.RECD_STAT → a ≠ R.SAFE_STAT → a ≠ R.SAFE_FCAUSE → a ≠ R.SAFE_GRLEFT → t.word a = u.word a)

/-! ## The stack, loads and stores -/

/-- PUSH and PUSHD (R96): w63 falls by 4 or 8 and the register or pair, as it was before, stands there; no other byte of local data
and no other register changes. POP and POPD: the register or pair takes what stands at w63, which then rises by 4 or 8; POP into
w63 leaves the loaded value there. -/
def Obligations.StackInstructions : Prop :=
  ∀ (s : State) (i : Issue) (rd ra : BitVec 6), s.ready i = true → (s.doing i).runsOut = false →
    let c := s.doing i
    let p := i.core.val
    let sp := (c.reg 63).toNat
    let pushed (n v : Nat) (t : State) : Prop :=
      let a := (c.reg 63 - BitVec.ofNat 32 n).toNat
      OnlyCore (s.during i) t p
      ∧ memRead (t.core p).dmem (a - 0x08000000) n = v
      ∧ (∀ b, b < a - 0x08000000 ∨ a - 0x08000000 + n ≤ b →
          memRead (t.core p).dmem b 1 = memRead c.dmem b 1)
      ∧ (∀ k, (t.core p).reg k = if k = 63 then BitVec.ofNat 32 a else c.reg k)
      ∧ (t.core p).acc = c.acc ∧ (t.core p).status = (c.past 1).status ∧ (t.core p).pc = (c.past 1).pc
      ∧ (t.core p).cost = 1
    let fits (n : Nat) : Prop :=
      let a := (c.reg 63 - BitVec.ofNat 32 n).toNat
      a % n = 0 ∧ 0x08000000 ≤ a ∧ a + n ≤ 0x08010000
    let sound (n : Nat) : Prop :=
      sp % n = 0 ∧ 0x08000000 ≤ sp ∧ sp + n ≤ 0x08010000
        ∧ ∀ w, (sp - 0x08000000) / 4 ≤ w → 4 * w < sp - 0x08000000 + n → NMap.get .clean c.dmemErr w = .clean
    let popped (k : CoreS) (t : State) : Prop :=
      OnlyCore (s.during i) t p ∧ (∀ j, (t.core p).reg j = k.reg j) ∧ (t.core p).dmem = c.dmem ∧ (t.core p).acc = c.acc
      ∧ (t.core p).status = (c.past 2).status ∧ (t.core p).pc = (c.past 2).pc ∧ (t.core p).cost = 2
    (fits 4 → Answers (.push i 0 ra 0) s (pushed 4 (c.reg ra.toNat).toNat))
    ∧ (fits 8 → ra.toNat % 2 = 0 → Answers (.pushd i 0 ra 0) s (pushed 8 (c.pair ra.toNat).toNat))
    ∧ ((c.reg 63 - 4).toNat % 4 = 0 → ((c.reg 63 - 4).toNat < 0x08000000 ∨ 0x08010000 ≤ (c.reg 63 - 4).toNat) →
        exec (.push i 0 ra 0) s = .next (s.trapped i 8 (some (c.reg 63 - 4).toNat)))
    ∧ (sound 4 → Answers (.pop i rd 0 0) s (popped
        ((c.setReg 63 (c.reg 63 + 4)).setReg rd.toNat (BitVec.ofNat 32 (memRead c.dmem (sp - 0x08000000) 4)))))
    ∧ (sound 8 → rd.toNat % 2 = 0 → Answers (.popd i rd 0 0) s (popped
        ((c.setReg 63 (c.reg 63 + 8)).setPair rd.toNat (BitVec.ofNat 64 (memRead c.dmem (sp - 0x08000000) 8)))))

/-- LB, LH, LW and LDD from own local data (R95, R85): the bytes at ra + imm14, sign-extended where narrower than a word, in 2
cycles; flags, memories and every other register are as before. -/
def Obligations.LocalLoads : Prop :=
  ∀ (s : State) (i : Issue) (rd ra : BitVec 6) (imm : BitVec 14), s.ready i = true → (s.doing i).runsOut = false →
    let c := s.doing i
    let p := i.core.val
    let a := (c.reg ra.toNat + imm.signExtend 32).toNat
    let off := a - 0x08000000
    let sound (n : Nat) : Prop :=
      a % n = 0 ∧ 0x08000000 ≤ a ∧ a + n ≤ 0x08010000
        ∧ ∀ w, off / 4 ≤ w → 4 * w < off + n → NMap.get .clean c.dmemErr w = .clean
    let loaded (k : CoreS) (t : State) : Prop :=
      OnlyCore (s.during i) t p ∧ (∀ j, (t.core p).reg j = k.reg j) ∧ (t.core p).dmem = c.dmem ∧ (t.core p).acc = c.acc
      ∧ (t.core p).status = (c.past 2).status ∧ (t.core p).pc = (c.past 2).pc ∧ (t.core p).cost = 2
    (sound 1 → Answers (.lb i rd ra imm) s
      (loaded (c.setReg rd.toNat (BitVec.ofInt 32 (BitVec.ofNat 8 (memRead c.dmem off 1)).toInt))))
    ∧ (sound 2 → Answers (.lh i rd ra imm) s
      (loaded (c.setReg rd.toNat (BitVec.ofInt 32 (BitVec.ofNat 16 (memRead c.dmem off 2)).toInt))))
    ∧ (sound 4 → Answers (.lw i rd ra imm) s (loaded (c.setReg rd.toNat (BitVec.ofNat 32 (memRead c.dmem off 4)))))
    ∧ (sound 8 → rd.toNat % 2 = 0 → Answers (.ldd i rd ra imm) s
      (loaded (c.setPair rd.toNat (BitVec.ofNat 64 (memRead c.dmem off 8)))))

/-- SB, SH, SW and SDD to own local data (R95, R85, R63): exactly the bytes of the form's width at ra + imm14 change, to the low
bytes of rd or of its pair, in 1 cycle; no register or flag changes, and on a word store the words covered are sound. -/
def Obligations.LocalStores : Prop :=
  ∀ (s : State) (i : Issue) (rd ra : BitVec 6) (imm : BitVec 14), s.ready i = true → (s.doing i).runsOut = false →
    let c := s.doing i
    let p := i.core.val
    let a := (c.reg ra.toNat + imm.signExtend 32).toNat
    let off := a - 0x08000000
    let fits (n : Nat) : Prop := a % n = 0 ∧ 0x08000000 ≤ a ∧ a + n ≤ 0x08010000
    let stored (n v : Nat) (t : State) : Prop :=
      OnlyCore (s.during i) t p ∧ (t.core p).w = c.w ∧ (t.core p).acc = c.acc
      ∧ memRead (t.core p).dmem off n = v % 2 ^ (8 * n)
      ∧ (∀ b, b < off ∨ off + n ≤ b → memRead (t.core p).dmem b 1 = memRead c.dmem b 1)
      ∧ (∀ w, off / 4 ≤ w → 4 * w < off + n → NMap.get .clean (t.core p).dmemErr w = .clean)
      ∧ (t.core p).status = (c.past 1).status ∧ (t.core p).pc = (c.past 1).pc ∧ (t.core p).cost = 1
    let clean := NMap.get .clean c.dmemErr (off / 4) = .clean
    (fits 1 → clean → Answers (.sb i rd ra imm) s (stored 1 (c.reg rd.toNat).toNat))
    ∧ (fits 2 → clean → Answers (.sh i rd ra imm) s (stored 2 (c.reg rd.toNat).toNat))
    ∧ (fits 4 → Answers (.sw i rd ra imm) s (stored 4 (c.reg rd.toNat).toNat))
    ∧ (fits 8 → rd.toNat % 2 = 0 → Answers (.sdd i rd ra imm) s (stored 8 (c.pair rd.toNat).toNat))

/-- LW and LDD from the commons, the scoreboard window and MRAM (R85, R95): the value and the cycles, with the waits of the issue;
memory does not change. -/
def Obligations.DistantLoads : Prop :=
  ∀ (s : State) (i : Issue) (rd ra : BitVec 6) (imm : BitVec 14), s.ready i = true → (s.doing i).runsOut = false →
    let c := s.doing i
    let u := s.during i
    let p := i.core.val
    let a := (c.reg ra.toNat + imm.signExtend 32).toNat
    let loaded (k : CoreS) (cost : Nat) (t : State) : Prop :=
      t.core p = k.past cost ∧ t.mem = u.mem ∧ t.tier = u.tier ∧ ∀ q, q ≠ p → t.core q = u.core q
    let word (n : Nat) : Word := BitVec.ofNat 32 n
    (a % 4 = 0 → a < 0x800000 → u.wordMark (a / 8) = .clean →
      Answers (.lw i rd ra imm) s (loaded (c.setReg rd.toNat (word (memRead u.mem a 4))) (6 + i.wait)))
    ∧ (a % 8 = 0 → a < 0x800000 → u.wordMark (a / 8) = .clean → rd.toNat % 2 = 0 →
      Answers (.ldd i rd ra imm) s
        (loaded (c.setPair rd.toNat (BitVec.ofNat 64 (memRead u.mem a 8))) (6 + i.wait)))
    ∧ (a % 8 = 0 → 0x0C000000 ≤ a → a < 0x0C200000 → rd.toNat % 2 = 0 →
      Answers (.ldd i rd ra imm) s (loaded (c.setPair rd.toNat (u.sbAt ((a - 0x0C000000) / 8)).val) 4))
    ∧ (a % 4 = 0 → 0x20600000 ≤ a → a < 0x21000000 →
      Answers (.lw i rd ra imm) s (loaded (c.setReg rd.toNat (word (memRead u.mem a 4))) (12 + i.wait)))

/-- SW and SDD to the commons and MRAM (R85, R86, R95): exactly the bytes stored change; a checked core's store takes 2 cycles
more. -/
def Obligations.DistantStores : Prop :=
  ∀ (s : State) (i : Issue) (rd ra : BitVec 6) (imm : BitVec 14), s.ready i = true → (s.doing i).runsOut = false →
    s.sends i = true →
    let c := s.doing i
    let u := s.during i
    let p := i.core.val
    let a := (c.reg ra.toNat + imm.signExtend 32).toNat
    let hold := if 12 ≤ p then 2 else 0
    let stored (n v cost : Nat) (t : State) : Prop :=
      t.core p = c.past (cost + hold) ∧ memRead t.mem a n = v
      ∧ (∀ b, b < a ∨ a + n ≤ b → memRead t.mem b 1 = memRead u.mem b 1) ∧ ∀ q, q ≠ p → t.core q = u.core q
    (a % 4 = 0 → a < 0x800000 → u.wordMark (a / 8) = .clean →
      Answers (.sw i rd ra imm) s (stored 4 (c.reg rd.toNat).toNat (2 + i.wait)))
    ∧ (a % 8 = 0 → a < 0x800000 → rd.toNat % 2 = 0 →
      Answers (.sdd i rd ra imm) s (fun t => stored 8 (c.pair rd.toNat).toNat (2 + i.wait) t ∧ t.wordMark (a / 8) = .clean))
    ∧ (a % 4 = 0 → 0x20600000 ≤ a → a < 0x21000000 →
      Answers (.sw i rd ra imm) s (stored 4 (c.reg rd.toNat).toNat (36 + i.wait)))

/-- The traps of loads and stores (R65, R73, R26): a misaligned address is cause 7 before anything else, an unmapped one cause 8, a
store to the scoreboard cause 9 and an access to the solver store cause 10; nothing changes but what a trap changes. -/
def Obligations.AccessTraps : Prop :=
  ∀ (s : State) (i : Issue) (rd ra : BitVec 6) (imm : BitVec 14), s.ready i = true → (s.doing i).runsOut = false →
    let c := s.doing i
    let a := (c.reg ra.toNat + imm.signExtend 32).toNat
    let hole := (0x800000 ≤ a ∧ a < 0x08000000) ∨ (0x08010000 ≤ a ∧ a < 0x0C000000) ∨ 0x40160000 ≤ a
    (a % 4 ≠ 0 → exec (.lw i rd ra imm) s = .next (s.trapped i 7 (some a))
      ∧ exec (.sw i rd ra imm) s = .next (s.trapped i 7 (some a)))
    ∧ (a % 2 ≠ 0 → exec (.lh i rd ra imm) s = .next (s.trapped i 7 (some a))
      ∧ exec (.sh i rd ra imm) s = .next (s.trapped i 7 (some a)))
    ∧ (hole → exec (.lb i rd ra imm) s = .next (s.trapped i 8 (some a))
      ∧ exec (.sb i rd ra imm) s = .next (s.trapped i 8 (some a)))
    ∧ (0x0C000000 ≤ a → a < 0x0C200000 → exec (.sb i rd ra imm) s = .next (s.trapped i 9 (some a)))
    ∧ (0x10000000 ≤ a → a < 0x14000000 → exec (.lb i rd ra imm) s = .next (s.trapped i 10 (some a))
      ∧ exec (.sb i rd ra imm) s = .next (s.trapped i 10 (some a)))

/-- Writes of block registers (R5, R6, R8, R85, R589). A store of any width to a block register by a program on an unchecked core has the
effect of the register write: the same registers, collected writes, shadow banks and memory, in 4 cycles. A register write takes a
live word, or of a partial write the bytes it covers, at once, and changes no other register; it collects a sealed word, which stays
as it was; it is refused with event 14 where the word's job runs; and a core that has not started or is stopped writes nothing. -/
def Obligations.RegisterStores : Prop :=
  (∀ (s : State) (i : Issue) (rd ra : BitVec 6) (imm : BitVec 14), s.ready i = true → (s.doing i).runsOut = false →
    s.sends i = true → i.core.val < 12 → (s.during i).evIn = [] →
    let c := s.doing i
    let a := (c.reg ra.toNat + imm.signExtend 32).toNat
    let same (instr : Instr) (size : Size) (v : DWord) : Prop :=
      ∃ t u, exec instr s = .next t
        ∧ exec (.registerWrite ⟨i.core, i.cyc⟩ (BitVec.ofNat 32 a) size v) (s.during i) = .next u
        ∧ t.regs = u.regs ∧ t.coll = u.coll ∧ t.shadow = u.shadow ∧ t.mem = u.mem ∧ (t.core i.core.val).cost = 4
    let v := (c.reg rd.toNat).zeroExtend 64
    let names (n : Nat) : Prop := a % n = 0 ∧ namesRegisters a n = true
    0x40000000 ≤ a → a < 0x40160000 →
    (names 1 → same (.sb i rd ra imm) .byte v) ∧ (names 2 → same (.sh i rd ra imm) .half v)
    ∧ (names 4 → same (.sw i rd ra imm) .word v)
    ∧ (names 8 → rd.toNat % 2 = 0 → same (.sdd i rd ra imm) .dword (c.pair rd.toNat)))
  ∧ ∀ (s : State) (p : Port) (v : DWord), s.evIn = [] →
    let kept (t : State) : Prop := t.mem = s.mem ∧ t.cores = s.cores ∧ t.cycle = p.cyc
    (∀ (a : BitVec 32) (size : Size), s.serves p = false → a.toNat % size.bytes = 0 → namesRegisters a.toNat size.bytes = true →
      exec (.registerWrite p a size v) s = .next (s.setCycle p.cyc))
    ∧ (s.serves p = true →
      (∀ d w k, d < 16 → w < 8 → k < 4 →
        let a := R.EVNT_nMASKw d w
        (Answers (.registerWrite p (BitVec.ofNat 32 a) .word v) s fun t =>
          t.word a = v.setWidth 32 ∧ (∀ b, b ≠ a → t.word b = s.word b) ∧ t.coll = s.coll ∧ t.evIn = [] ∧ kept t)
        ∧ Answers (.registerWrite p (BitVec.ofNat 32 (a + k)) .byte v) s fun t =>
          (∀ j : Fin 4, (t.word a).extractLsb' (8 * j.val) 8 =
            if j.val = k then v.setWidth 8 else (s.word a).extractLsb' (8 * j.val) 8)
          ∧ (∀ b, b ≠ a → t.word b = s.word b) ∧ t.coll = s.coll ∧ t.evIn = [] ∧ kept t)
      ∧ ∀ n : Fin 128,
        let a := R.TIER_JOBn_LEN n.val
        ((s.job n.val).run = false → Answers (.registerWrite p (BitVec.ofNat 32 a) .word v) s fun t =>
          t.rdColl (R.TIER_JOBn_LEN_LEN n.val) = v.toNat % 2 ^ 19 ∧ t.regs = s.regs ∧ t.evIn = [] ∧ kept t)
        ∧ ((s.job n.val).run = true → Answers (.registerWrite p (BitVec.ofNat 32 a) .word v) s fun t =>
          t.coll = s.coll ∧ t.word a = s.word a ∧ kept t
          ∧ ∀ d, d = s.dutyOf p.core.val → d < 16 → s.isTarget d = true → ⟨60000 * s.tick.toNat + p.cyc + 2, d, 14⟩ ∈ t.evIn))

/-! ## Block instructions -/

/-- SLACK, TAKE and OBJSEQ (R108, R31, R110, R27, R111): the cycles to the deadline edge of the current job, or with none to the next
tick edge; a scoreboard word and its stamp; SEQ, ND and LOST of a CAN object, with their clear. -/
def Obligations.SlackTakeObjseq : Prop :=
  ∀ (s : State) (i : Issue) (rd ra : BitVec 6) (sel : BitVec 14), s.ready i = true → (s.doing i).runsOut = false →
    let c := s.doing i
    let u := s.during i
    let p := i.core.val
    let k := (c.reg ra.toNat).toNat + sel.toNat
    let w := u.sbAt k
    let late : Nat := if w.late then 2 ^ 37 else 0
    let age := min 65535 (u.tick.toNat - w.ptick.toNat)
    let take (stamp : Nat) : Host.Outcome State Fault Refusal :=
      .next (s.after i (((c.setPair rd.toNat w.val).setPair (rd.toNat + 2) (BitVec.ofNat 64 stamp)).past 5))
    let j := (c.reg ra.toNat).toNat
    let o := ((u.objOld j).map ObjOld.was).getD (u.objS j)
    let seen : Nat := o.seq + (if o.nd then 256 else 0) + (if o.lost then 512 else 0)
    (u.phase ≠ .setup → c.job = none →
      exec (.slack i rd 0 0) s = .next (s.after i ((c.setReg rd.toNat (BitVec.ofNat 32 (60000 - u.cycle))).past 1)))
    ∧ (∀ n, u.phase ≠ .setup → c.job = some n →
      exec (.slack i rd 0 0) s = .next (s.after i
        ((c.setReg rd.toNat (BitVec.ofNat 32 (min 4294967295 ((u.job n).deadline * 60000 - u.now)))).past 1)))
    ∧ (rd.toNat % 4 = 0 → k < 262144 → w.src < 32 → u.isStale k = false →
      exec (.take i rd ra sel) s = take (w.ptick.toNat % 2 ^ 32 + 2 ^ 32 * w.src + late + 2 ^ 48 * age))
    ∧ (rd.toNat % 4 = 0 → k < 262144 → w.src = 32 → u.isStale k = false →
      exec (.take i rd ra sel) s = take (2 ^ 39 + 2 ^ 48 * 65535))
    ∧ (rd.toNat % 4 = 0 → 262144 ≤ k → exec (.take i rd ra sel) s = .next (s.trapped i 8 (some (0x0C000000 + 8 * k))))
    ∧ (j < 8192 → exec (.objseq i rd ra 0) s = .next (s.after i ((c.setReg rd.toNat (BitVec.ofNat 32 seen)).past 3)))
    ∧ (∀ x, j < 8192 → u.objOld j = some x → Answers (.objseq i rd ra 1) s fun t =>
        t.core p = (c.setReg rd.toNat (BitVec.ofNat 32 seen)).past 3 ∧ t.objS j = x.clr
        ∧ (∀ h, h ≠ j → t.objS h = u.objS h) ∧ t.mem = u.mem)
    ∧ (j < 8192 → u.objOld j = none → Answers (.objseq i rd ra 1) s fun t =>
        t.core p = (c.setReg rd.toNat (BitVec.ofNat 32 seen)).past 3
        ∧ t.objS j = { o with nd := false, lost := false } ∧ (∀ h, h ≠ j → t.objS h = u.objS h) ∧ t.regs = u.regs
        ∧ t.mem = u.mem)

/-- PUB and PUB_DEFERRED_LEAVE (R109, R23, R24): a post that fits is accepted whole into its source's staging buffer, with 0 to rd;
one beyond the scoreboard, or beyond the buffer, is refused whole, with 2 or 1; one that cannot leave in its tick is held, and
leaves in cycle 0 of the next. -/
def Obligations.Posts : Prop :=
  ∀ (s : State) (i : Issue) (rd ra : BitVec 6), s.ready i = true → (s.doing i).runsOut = false → i.core.val < 12 →
    (s.during i).phase = .running →
    let c := s.doing i
    let u := s.during i
    let p := i.core.val
    let d := u.dutyOf p
    let a := (c.reg ra.toNat).toNat
    let off := a - 0x08000000
    let hdr := memRead c.dmem off 8
    let idx := hdr % 2 ^ 18
    let n := hdr / 2 ^ 20 % 2 ^ 9
    let post : Post := ⟨idx, (List.range n).map (fun k => memRead c.dmem (off + 8 + 8 * k) 8), u.jobLate c⟩
    let used := u.rd (R.TIER_SRCs_STAT_USED d)
    let left (t : State) (answer cost : Nat) : Prop :=
      (∀ k, (t.core p).reg k = (c.setReg rd.toNat (BitVec.ofNat 32 answer)).reg k) ∧ (t.core p).cost = cost
        ∧ (t.core p).pc = (c.past cost).pc ∧ (t.core p).dmem = c.dmem ∧ t.mem = u.mem
    a % 8 = 0 → 0x08000000 ≤ a → a + 8 * (n + 1) ≤ 0x08010000 →
    (∀ w, off / 4 ≤ w → 4 * w < off + 8 * (n + 1) → NMap.get .clean c.dmemErr w = .clean) →
    (i.cyc + n ≤ 59998 → idx + n ≤ 262144 → used + 8 * (n + 1) ≤ 4096 → Answers (.pub i rd ra 0) s fun t =>
        left t 0 (3 + n) ∧ t.staged d = u.staged d ++ [post] ∧ t.rd (R.TIER_SRCs_STAT_USED d) = used + 8 * (n + 1))
    ∧ (i.cyc + n ≤ 59998 → 262144 < idx + n → Answers (.pub i rd ra 0) s fun t =>
        left t 2 2 ∧ t.tier = u.tier ∧ t.rd (R.TIER_SRCs_STAT_BADADDR d) = 1 ∧ t.rd (R.TIER_SRCs_STAT_USED d) = used
        ∧ t.rd (R.TIER_SRCs_STAT_REFUSED d) = min 255 (u.rd (R.TIER_SRCs_STAT_REFUSED d) + 1))
    ∧ (i.cyc + n ≤ 59998 → idx + n ≤ 262144 → 4096 < used + 8 * (n + 1) → Answers (.pub i rd ra 0) s fun t =>
        left t 1 2 ∧ t.tier = u.tier ∧ t.rd (R.TIER_SRCs_STAT_USED d) = used
        ∧ t.rd (R.TIER_SRCs_STAT_REFUSED d) = min 255 (u.rd (R.TIER_SRCs_STAT_REFUSED d) + 1))
    ∧ (59998 < i.cyc + n → Answers (.pub i rd ra 0) s fun t =>
        (t.core p).wait = .post rd.toNat { post with late := false } 0 i.chk ∧ (t.core p).w = c.w ∧ (t.core p).pc = c.pc
        ∧ t.tier = u.tier ∧ t.regs = u.regs)
    ∧ ∀ (v : State) (r : Nat) (q : Post), (v.core p).wait = .post r q 0 false → v.evIn = [] →
        q.idx + q.data.length ≤ 262144 → v.rd (R.TIER_SRCs_STAT_USED (v.dutyOf p)) + 8 * (q.data.length + 1) ≤ 4096 →
        v.dutyOf p < 16 →
        Answers (.pubDeferredLeave i.core) v fun t =>
          (t.core p).wait = .none ∧ (r ≠ 0 → (t.core p).reg r = 0)
          ∧ t.staged (v.dutyOf p) = v.staged (v.dutyOf p) ++ [{ q with late := v.jobLate (v.core p) }]

/-- EVT, EVGET and EVWAIT with the ends of its wait (R112, R113, R114, R74, R78, R81). -/
def Obligations.EventInstructions : Prop :=
  ∀ (s : State) (i : Issue) (rd ra : BitVec 6) (sel : BitVec 14), s.ready i = true → (s.doing i).runsOut = false →
    let c := s.doing i
    let u := s.during i
    let p := i.core.val
    let d := u.dutyOf p
    let e := sel.toNat % 256
    let lowest (x : State) (y : Nat) (m : Nat → Word) (k : Nat) : Prop :=
      k < 256 ∧ (x.word (R.EVNT_nPENDw y (k / 32)) &&& m (k / 32)).getLsbD (k % 32) = true
        ∧ ∀ h, h < k → (x.word (R.EVNT_nPENDw y (h / 32)) &&& m (h / 32)).getLsbD (h % 32) = false
    let none' (x : State) (y : Nat) (m : Nat → Word) : Prop :=
      ∀ h, h < 256 → (x.word (R.EVNT_nPENDw y (h / 32)) &&& m (h / 32)).getLsbD (h % 32) = false
    let mask (w : Nat) : Word := u.word (R.EVNT_nMASKw d w)
    -- EVT: every target named gets the event 2 cycles after it leaves the core
    (sel.toNat < 16 → s.sends i = true → Answers (.evt i 0 ra sel) s fun t =>
        t.core p = c.past (1 + if 12 ≤ p then 2 else 0) ∧ t.mem = u.mem
        ∧ ∀ x, x < 16 → (c.reg ra.toNat).getLsbD x = true → u.isTarget x = true →
          ⟨(s.sending i).now + 2, x, 16 + sel.toNat⟩ ∈ t.evIn)
    -- EVGET of a named event that did not arrive in this cycle: NONE, the overflow bit, the pending bit cleared
    ∧ (256 ≤ sel.toNat → sel.toNat < 512 → d < 16 → NMap.get 0 u.evAt (256 * d + e) / 2 ≠ u.now →
        Answers (.evget i rd 0 sel) s fun t =>
        let v := e + (if u.rd (pendBit d e) = 0 then 256 else 0) + (if u.rd (ovfBit d e) = 0 then 0 else 512)
        t.core p = (c.setReg rd.toNat (BitVec.ofNat 32 v)).past 1 ∧ t.rd (pendBit d e) = 0
        ∧ t.rd (ovfBit d e) = u.rd (ovfBit d e) ∧ t.mem = u.mem)
    -- EVGET of the lowest with none pending
    ∧ (none' u d mask →
        exec (.evget i rd 0 0) s = .next (s.after i ((c.setReg rd.toNat 0x100).past 1)))
    -- EVWAIT with an event pending, and with none
    ∧ (∀ k, lowest u d mask k →
        exec (.evwait i rd ra 0) s = .next (s.after i ((c.setReg rd.toNat (BitVec.ofNat 32 k)).past 1)))
    ∧ (none' u d mask → Answers (.evwait i rd ra 0) s fun t =>
        OnlyCore u t p ∧ (t.core p).w = c.w ∧ (t.core p).pc = c.pc ∧ (t.core p).executes = false
        ∧ (t.core p).wait = .event rd.toNat
            (if c.reg ra.toNat = 0 then none else some (u.now + (c.reg ra.toNat).toNat)) ((List.range 8).map mask))
    -- the ends of a wait
    ∧ (∀ (v : State) (cyc r k : Nat) (m : List Word), v.evIn = [] → (v.core p).wait = .event r none m →
        lowest v (v.dutyOf p) (m.getD · 0) k → Answers (.evwaitResume i.core cyc) v fun t =>
        (t.core p).wait = .none ∧ t.cycle = cyc ∧ (∀ h, (t.core p).reg h = ((v.core p).setReg r (BitVec.ofNat 32 k)).reg h)
        ∧ t.regs = v.regs ∧ t.mem = v.mem)
    ∧ (∀ (v : State) (cyc r l : Nat) (m : List Word), v.evIn = [] → (v.core p).wait = .event r (some l) m →
        none' v (v.dutyOf p) (m.getD · 0) → l < v.tick.toNat * 60000 + cyc → Answers (.evwaitTimeout i.core cyc) v fun t =>
        (t.core p).wait = .none ∧ t.cycle = cyc ∧ (∀ h, (t.core p).reg h = ((v.core p).setReg r 0x100).reg h)
        ∧ t.regs = v.regs ∧ t.mem = v.mem)

/-- WTK and the end of its wait (R107, R29, R70, R71): it completes the current job; a release that waits is taken at once; else the
core waits, and goes on at cycle 1,538, in the restart form at RESTART with both stacks empty. -/
def Obligations.WaitTickInstruction : Prop :=
  ∀ (s : State) (i : Issue) (rd : BitVec 6) (sel : BitVec 14) (n : Nat), s.ready i = true → (s.doing i).runsOut = false →
    (s.doing i).atLoopEnd = false → (s.during i).phase = .running →
    let c := s.doing i
    let u := s.during i
    let p := i.core.val
    let found (x : State) (any : Bool) (m : Nat) : Prop :=
      m < 128 ∧ (x.job m).active = true ∧ (x.job m).taken = false
        ∧ (if any then x.rd (R.TIER_JOBn_CFG_CORE m) = p else m = n)
    -- the named job of this core waits: it becomes the current job
    (c.job = none → n < 128 → sel.toNat = n → u.rd (R.TIER_JOBn_CFG_CORE n) = p → found u false n →
      Answers (.wtk i rd 0 sel) s fun t =>
        (t.core p).job = some n ∧ (t.core p).trapMode = false ∧ (t.job n).taken = true ∧ (t.core p).cost = 2
        ∧ (∀ k, (t.core p).reg k = (c.setReg rd.toNat (BitVec.ofNat 32 (n + 65536 * ((u.job n).k % 65536)))).reg k)
        ∧ (t.core p).pc = (c.past 2).pc ∧ (∀ m, m ≠ n → t.job m = u.job m) ∧ t.mem = u.mem ∧ t.regs = u.regs)
    -- it does not: the core waits
    ∧ (c.job = none → n < 128 → sel.toNat = n → u.rd (R.TIER_JOBn_CFG_CORE n) = p → ¬found u false n →
      Answers (.wtk i rd 0 sel) s fun t =>
        (t.core p).wait = .job false false n rd.toNat ∧ (t.core p).executes = false ∧ (t.core p).pc = c.pc ∧ t.tier = u.tier)
    -- a job of another core
    ∧ (c.job = none → n < 128 → sel.toNat = n → u.rd (R.TIER_JOBn_CFG_CORE n) ≠ p → Answers (.wtk i rd 0 sel) s fun t =>
        (t.core p).job = none ∧ t.tier = u.tier
        ∧ ∀ k, (t.core p).reg k = (c.setReg rd.toNat (BitVec.ofNat 32 (0x80000000 + n))).reg k)
    -- the current job is completed, on time or late
    ∧ (∀ m, m < 128 → c.job = some m → sel.toNat = 4096 + n → n < 4 → Answers (.wtk i rd 0 sel) s fun t =>
        (t.core p).job = none ∧ (t.job m).active = false
        ∧ ((t.job m).lastOk = true ↔ u.tick.toNat < (u.job m).deadline)
        ∧ (t.core p).wait = .tier false n rd.toNat (if u.cycle < 1536 then u.tick.toNat else u.tick.toNat + 1))
    -- the ends of a wait
    ∧ (∀ (v : State) (r : Nat), v.evIn = [] → (v.core p).wait = .job false false n r → found v false n →
      Answers (.wtkResume i.core) v fun t =>
        (t.core p).wait = .none ∧ (t.core p).job = some n ∧ (t.job n).taken = true ∧ t.cycle = 1538
        ∧ ∀ k, (t.core p).reg k = ((v.core p).setReg r (BitVec.ofNat 32 (n + 65536 * ((v.job n).k % 65536)))).reg k)
    ∧ (∀ (v : State) (r since : Nat), v.evIn = [] → v.phase = .running → (v.core p).wait = .tier true 1 r since →
        v.tick.toNat % 10 = 0 → since ≤ v.tick.toNat → Answers (.wtkResume i.core) v fun t =>
        (t.core p).wait = .none ∧ (t.core p).job = none ∧ (t.core p).rstack = [] ∧ (t.core p).lstack = []
        ∧ (t.core p).pc = 4 * v.rdShadow (R.CORE_nVEC_RESTART p) ∧ t.cycle = 1538
        ∧ ∀ k, (t.core p).reg k = ((v.core p).setReg r (BitVec.ofNat 32 (v.tick.toNat % 2 ^ 32))).reg k)

/-- SQPOST, SQWAIT with the ends of its wait, and TRUST (R115, R116, R117): tickets, refusals and answers. -/
def Obligations.SubmissionInstructions : Prop :=
  ∀ (s : State) (i : Issue) (rd ra : BitVec 6) (sel : BitVec 14) (short : Bool), s.ready i = true →
    (s.doing i).runsOut = false → s.sends i = true →
    let c := s.doing i
    let u := s.during i
    let p := i.core.val
    let a := (c.reg ra.toNat).toNat
    let held := (u.solv.held.filter (fun x => x.short == short)).length
    let seq := if short then u.solv.seqShort else u.solv.seqLong
    let q : BitVec 14 := if short then 1 else 0
    let cost := 3 + if 12 ≤ p then 2 else 0
    let answered (v : Nat) (t : State) : Prop := t.core p = (c.setReg rd.toNat (BitVec.ofNat 32 v)).past cost
    (held < 16 → a % 64 = 0 → a < 0x800000 → Answers (.sqpost i rd ra q) s fun t =>
        answered (seq + if short then 65536 else 0) t
        ∧ t.solv.held = u.solv.held ++ [⟨short, seq, a, u.dutyOf p, (s.sending i).now, none⟩]
        ∧ (if short then t.solv.seqShort else t.solv.seqLong) = (seq + 1) % 65536)
    ∧ (16 ≤ held → Answers (.sqpost i rd ra q) s fun t => answered (2 ^ 31 + 1) t ∧ t.solv = u.solv)
    ∧ (held < 16 → (a % 64 ≠ 0 ∨ 0x800000 ≤ a) → Answers (.sqpost i rd ra q) s fun t =>
        answered (2 ^ 31 + 2) t ∧ t.solv = u.solv)
    ∧ (∀ x v, NMap.get none u.solv.done (a % 2 ^ 17) = some (x, v) → x < u.now →
        exec (.sqwait i rd ra sel) s = .next (s.after i ((c.setReg rd.toNat (BitVec.ofNat 32 v)).past 2)))
    ∧ ((∀ x ∈ NMap.get none u.solv.done (a % 2 ^ 17), u.now ≤ x.1) → Answers (.sqwait i rd ra 0) s fun t =>
        (rd ≠ 0 → ((t.core p).reg rd.toNat).msb = true) ∧ (t.core p).cost = 2 ∧ t.solv = u.solv ∧ t.regs = u.regs)
    ∧ ((∀ x ∈ NMap.get none u.solv.done (a % 2 ^ 17), u.now ≤ x.1) → sel ≠ 0 → Answers (.sqwait i rd ra sel) s fun t =>
        (t.core p).wait = .solver rd.toNat a (if sel.toNat = 16383 then none else some (u.now + 64 * sel.toNat))
        ∧ (t.core p).executes = false ∧ t.regs = u.regs)
    ∧ (∀ (v : State) (cyc r k : Nat) (l : Option Nat) (e x : Nat), v.evIn = [] → (v.core p).wait = .solver r k l →
        NMap.get none v.solv.done (k % 2 ^ 17) = some (e, x) → e < v.tick.toNat * 60000 + cyc → (∀ b ∈ l, e ≤ b) → Answers (.sqwaitResume i.core cyc) v fun t =>
        (t.core p).wait = .none ∧ t.cycle = cyc ∧ ∀ h, (t.core p).reg h = ((v.core p).setReg r (BitVec.ofNat 32 x)).reg h)
    ∧ (∀ (v : State) (cyc r k l : Nat), v.evIn = [] → (v.core p).wait = .solver r k (some l) →
        (∀ x ∈ NMap.get none v.solv.done (k % 2 ^ 17), l < x.1) → l < v.tick.toNat * 60000 + cyc → 0 < r →
        Answers (.sqwaitTimeout i.core cyc) v fun t =>
        (t.core p).wait = .none ∧ t.cycle = cyc ∧ ((t.core p).reg r).msb = true)
    ∧ (u.trst.queue.length < 8 → a % 64 = 0 → a < 0x800000 → Answers (.trust i rd ra sel) s fun t =>
        answered u.trst.ticket t ∧ t.trst.queue = u.trst.queue ++ [⟨sel.toNat, a, u.dutyOf p, u.trst.ticket, none⟩]
        ∧ t.trst.ticket = (u.trst.ticket + 1) % 256)
    ∧ (8 ≤ u.trst.queue.length → Answers (.trust i rd ra sel) s fun t => answered (2 ^ 31 + 2 ^ 24) t ∧ t.trst = u.trst)
    ∧ (u.trst.queue.length < 8 → (a % 64 ≠ 0 ∨ 0x800000 ≤ a) → Answers (.trust i rd ra sel) s fun t =>
        answered (2 ^ 31 + 2 ^ 25) t ∧ t.trst = u.trst)

/-! ## Commands of the blocks

Each clause says that the command answers a next state, and what it has done there, under conditions on the state and the operands
alone. -/

/-- The tick (R18 to R21, R41, R44, R55): a tick edge advances the count and hands the staged posts to the collector; the changeover
publishes a collected post with its stamp; bound cores start at their ENTRY in tick 0; a standby that loses the marker stops
following; a read of the tick count latches its high word. -/
def Obligations.TickCommands : Prop :=
  ∀ (s : State) (p : Port),
    (∀ e, s.phase = .running → s.feed.dying = false → s.evIn = [] → Answers (.tickEdge e) s fun t =>
      t.tick = s.tick + 1 ∧ t.cycle = 0 ∧ t.phase = .running ∧ t.tier.collecting = s.tier.staging ∧ t.tier.staging = []
      ∧ ∀ src, src < 24 → t.rd (R.TIER_SRCs_STAT_USED src) = 0)
    ∧ (∀ e : TickIn, s.phase = .ready → s.feed.dying = false → e.failed = [] → Answers (.tickEdge e) s fun t =>
      t.tick = 0 ∧ t.cycle = 0 ∧ t.phase = .running)
    ∧ (∀ src k v, s.phase = .running → s.evIn = [] → src < 24 → s.tier.collecting = [(src, [⟨k, [v], false⟩])] →
      Answers .changeoverPublication s fun t =>
        t.cycle = 1536 ∧ t.sbAt k = ⟨BitVec.ofNat 64 v, s.tick, src, false⟩ ∧ (∀ h, h ≠ k → t.sbAt h = s.sbAt h)
        ∧ t.tier.collecting = [])
    ∧ (∀ q, q < 16 → s.phase = .running → s.tick = 0 → s.evIn = [] → s.inService q = true → s.partOf q ≠ 0 →
        (s.core q).on = false → (s.core q).stopped = false → Answers .coreStartTickZero s fun t =>
        (t.core q).executes = true ∧ (t.core q).pc = 4 * s.rd (R.CORE_nENTRY_ENTRY q) ∧ (t.core q).job = none
        ∧ (t.core q).w = (s.core q).w ∧ t.cycle = 1536)
    ∧ (s.isMember = true → s.rd R.PAIR_STAT_STATE = 2 → s.rd R.TIER_DISC_STAT_FOLLOW = 1 → Answers .followLost s fun t =>
        t.rd R.TIER_DISC_STAT_FOLLOW = 0 ∧ t.cores = s.cores ∧ t.mem = s.mem
        ∧ (∀ x, x < 16 → x ∈ s.dutiesOf 7 → s.isTarget x = true → ⟨s.now + 2, x, 13⟩ ∈ t.evIn))
    ∧ (s.evIn = [] → s.serves p = true → Answers (.tickCountRead p) s fun t =>
        t.readData = BitVec.ofNat 64 (s.tick.toNat % 2 ^ 32) ∧ (t.core p.core.val).tickh = BitVec.ofNat 32 (s.tick.toNat / 2 ^ 32)
        ∧ (t.core p.core.val).w = (s.core p.core.val).w ∧ t.regs = s.regs ∧ t.mem = s.mem ∧ t.cycle = p.cyc)

/-- Deadlines (R34, R35): a missed class W deadline is counted, holds every output of the module at its safe value and sends the
stop-class event 6 to every core of the partition; a missed class R deadline is counted, raises event 5 and has its region
marked at this changeover. -/
def Obligations.DeadlineMisses : Prop :=
  ∀ (s : State) (n : Fin 128), (s.job n.val).due = true →
    let q := s.rd (R.TIER_JOBn_CFG_CORE n.val)
    let counted (t : State) : Prop :=
      t.rd (R.TIER_JOBn_CNT_OVR n.val) = min 65535 (s.rd (R.TIER_JOBn_CNT_OVR n.val) + 1)
        ∧ (t.job n.val).due = false ∧ (t.job n.val).lastOk = false ∧ t.mem = s.mem
    (s.rd (R.TIER_JOBn_CFG_CLASS n.val) = 0 → Answers (.classWDeadlineMiss n) s fun t =>
        counted t ∧ t.rd R.DIOP_RSTAT_WHOLD = 1
        ∧ ∀ x, x < 16 → x ∈ s.dutiesOf (s.partOf q) → s.isTarget x = true → ⟨s.now + 2, x, 6⟩ ∈ t.evIn)
    ∧ (s.rd (R.TIER_JOBn_CFG_CLASS n.val) = 1 → Answers (.classRDeadlineMiss n) s fun t =>
        counted t ∧ t.cores = s.cores
        ∧ t.tier.toMark = s.tier.toMark
            ++ [(n.val, ⟨s.rd (R.TIER_JOBn_BASE_BASE n.val), s.rd (R.TIER_JOBn_LEN_LEN n.val), s.tick.toNat⟩)]
        ∧ ∀ x, x < 16 → (x = s.dutyOf q ∨ x ∈ s.dutiesOf 7) → s.isTarget x = true → ⟨s.now + 2, x, 5⟩ ∈ t.evIn)

/-- The seals of a job and of a core's binding, and loads that clear (R45, R54, R8, R12, R13). A seal of a group that does not run ends
with the code of its first failing check: with code 0 the collected fields are in effect, with another they are discarded, the fields
stay, and event 15 tells the writing core; a group that runs is refused with event 14 and stays as it was. A load that covers a counter
whole returns it and clears it, a narrower one leaves it, and an update of the load's own cycle is neither lost nor returned. -/
def Obligations.TierSealsAndReads : Prop :=
  ∀ (s : State) (p : Port), s.evIn = [] → s.serves p = true →
    let now := 60000 * s.tick.toNat + p.cyc
    let own := s.dutyOf p.core.val
    let told (t : State) (e : Nat) : Prop := own < 16 → s.isTarget own = true → ⟨now + 2, own, e⟩ ∈ t.evIn
    let kept (t : State) : Prop := t.mem = s.mem ∧ t.cores = s.cores
    -- each word is collected once
    let once := (s.coll.map Prod.fst).Nodup
    (∀ n : Fin 128,
      let fields := [R.TIER_JOBn_CFG_CLASS n.val, R.TIER_JOBn_CFG_DIV n.val, R.TIER_JOBn_CFG_PHASE n.val,
        R.TIER_JOBn_CFG_CORE n.val, R.TIER_JOBn_BASE_BASE n.val, R.TIER_JOBn_LEN_LEN n.val]
      let div := s.rdColl (R.TIER_JOBn_CFG_DIV n.val)
      let cls := s.rdColl (R.TIER_JOBn_CFG_CLASS n.val)
      let core := s.rdColl (R.TIER_JOBn_CFG_CORE n.val)
      let base := s.rdColl (R.TIER_JOBn_BASE_BASE n.val)
      let len := s.rdColl (R.TIER_JOBn_LEN_LEN n.val)
      let meets (m : Nat) : Bool :=
        let b := s.rd (R.TIER_JOBn_BASE_BASE m)
        let l := s.rd (R.TIER_JOBn_LEN_LEN m)
        decide (m ≠ n.val ∧ (s.job m).isSealed = true ∧ len ≠ 0 ∧ l ≠ 0 ∧ base < b + l ∧ b < base + len)
      let code := if div = 0 ∨ 1000 < div then 1 else if div ≤ s.rdColl (R.TIER_JOBn_CFG_PHASE n.val) then 2
        else if 2 ≤ cls then 3 else if s.inService core = false then 4
        else if cls = 0 ∧ s.partOf core ≠ 1 ∧ s.partOf core ≠ 8 then 5 else if 262144 < base + len then 6
        else if cls = 1 ∧ len = 0 then 7 else if (List.range 128).any meets = true then 8 else 0
      let others (t : State) : Prop := ∀ m, m ≠ n.val → t.job m = s.job m
      ((s.job n.val).run = false → code = 0 → once → Answers (.tierJobSeal p n) s fun t =>
        (t.job n.val).isSealed = true ∧ t.rd (R.TIER_JOBn_SEAL_ERR n.val) = 0 ∧ (∀ f ∈ fields, t.rd f = s.rdColl f)
        ∧ t.evIn = [] ∧ others t ∧ kept t)
      ∧ ((s.job n.val).run = false → code ≠ 0 → Answers (.tierJobSeal p n) s fun t =>
        t.tier = s.tier ∧ t.rd (R.TIER_JOBn_SEAL_ERR n.val) = code
        ∧ (∀ f ∈ fields, t.rd f = s.rd f ∧ t.rdColl f = s.rd f) ∧ told t 15 ∧ kept t)
      ∧ ((s.job n.val).run = true → Answers (.tierJobSeal p n) s fun t =>
        t.tier = s.tier ∧ t.word (R.TIER_JOBn_SEAL n.val) = s.word (R.TIER_JOBn_SEAL n.val) ∧ t.coll = s.coll
        ∧ (∀ f ∈ fields, t.rd f = s.rd f) ∧ told t 14 ∧ kept t))
    ∧ (∀ n : Fin 16,
      let m := s.heir n.val
      let part := s.rdColl (R.CORE_nBIND_PART m)
      let entry := s.rdColl (R.CORE_nENTRY_ENTRY m)
      let code := if 9 ≤ part then 1 else if s.inService m = false then 2 else if part = 8 ∧ m < 12 then 3
        else if part = 8 ∧ (List.range 16).any (fun k => decide (k ≠ m ∧ s.partOf k = 8)) = true then 4 else 0
      (s.phase ≠ .running → m < 16 → code = 0 → once → Answers (.coreBindSeal p n) s fun t =>
        t.rd (R.CORE_nSEAL_ERR m) = 0 ∧ t.rd (R.CORE_nBIND_PART m) = part ∧ t.rd (R.CORE_nENTRY_ENTRY m) = entry
        ∧ t.evIn = [] ∧ kept t)
      ∧ (s.phase ≠ .running → m < 16 → code ≠ 0 → Answers (.coreBindSeal p n) s fun t =>
        t.rd (R.CORE_nSEAL_ERR m) = code ∧ t.rd (R.CORE_nBIND_PART m) = s.rd (R.CORE_nBIND_PART m)
        ∧ t.rdColl (R.CORE_nBIND_PART m) = s.rd (R.CORE_nBIND_PART m)
        ∧ t.rd (R.CORE_nENTRY_ENTRY m) = s.rd (R.CORE_nENTRY_ENTRY m) ∧ told t 15 ∧ kept t)
      ∧ (s.phase = .running → Answers (.coreBindSeal p n) s fun t =>
        t.rd (R.CORE_nBIND_PART n.val) = s.rd (R.CORE_nBIND_PART n.val)
        ∧ t.rd (R.CORE_nSEAL_ERR n.val) = s.rd (R.CORE_nSEAL_ERR n.val) ∧ t.coll = s.coll ∧ told t 14 ∧ kept t))
    ∧ ∀ n : Fin 128,
      let a := R.TIER_JOBn_CNT n.val
      let ovr := R.TIER_JOBn_CNT_OVR n.val
      let read (t : State) (v : Nat) : Prop :=
        t.readData = BitVec.ofNat 64 v ∧ (∀ b, b ≠ a → t.word b = s.word b) ∧ t.evIn = [] ∧ kept t
      let load (size : Size) := Instr.rcFieldRead p (BitVec.ofNat 32 a) size
      ((∀ e ∈ s.hw, e.t ≠ now ∨ e.addr ≠ a) →
        Answers (load .word) s (fun t => read t (s.word a).toNat ∧ t.word a = 0)
        ∧ Answers (load .half) s (fun t => read t (s.rd ovr) ∧ t.rd ovr = 0
            ∧ t.rd (R.TIER_JOBn_CNT_SKIP n.val) = s.rd (R.TIER_JOBn_CNT_SKIP n.val))
        ∧ Answers (load .byte) s (fun t => read t (s.rd ovr % 256) ∧ t.word a = s.word a))
      ∧ ∀ old, s.hw = [⟨now, a, 15, 0, old, 1, false⟩] → old < 65536 →
        Answers (load .half) s fun t => read t old ∧ t.rd ovr = 1
/-- The commons (R133, R131, R132, R135, R141, R142): a scrub corrects or poisons the bank's next word and moves on; at the round boundary
after its copy the oldest row that a bank copies goes on a bench row, and at no other tick; a check-unit command holds what it is to do and, at its end, has written a check word over its
data, verified one, or copied both. -/
def Obligations.CommonsCommands : Prop :=
  ∀ (s : State) (bank : Fin 32) (p : Port) (k : Fin 4),
    let n := NMap.get 0 s.cmns.scrub bank.val
    let w := 32 * n + bank.val
    let idle := s.evIn = [] ∧ s.serves p = true ∧ s.rd (R.CMNS_CKkCMD_BUSY k.val) = 0
    let started (op : Nat) (t : State) : Prop :=
      NMap.get none t.cmns.ck k.val = some ⟨op, s.rd (R.CMNS_CKkSRC_SRC k.val), s.rd (R.CMNS_CKkDST_DST k.val),
        s.rd (R.CMNS_CKkLEN_LEN k.val), s.dutyOf p.core.val⟩
      ∧ t.rd (R.CMNS_CKkCMD_BUSY k.val) = 1 ∧ t.mem = s.mem ∧ t.cores = s.cores
    let sound (a len : Nat) : Prop := ∀ x, a / 8 ≤ x → x < a / 8 + len → s.wordMark x = .clean
    let words (a len : Nat) : List Nat := (List.range len).map (fun j => memRead s.mem (a + 8 * j) 8)
    let done (t : State) (code : Nat) : Prop :=
      t.rd (R.CMNS_CKkCMD_BUSY k.val) = 0 ∧ t.rd (R.CMNS_CKkCMD_ERR k.val) = code
        ∧ NMap.get none t.cmns.ck k.val = none ∧ t.cores = s.cores
    (s.rd R.CMNS_CFG_SCRUB = 1 → s.wordMark w = .single → Answers (.commonsScrub bank) s fun t =>
        t.wordMark w = .clean ∧ t.rd R.CMNS_ECCCNT_COR = min 65535 (s.rd R.CMNS_ECCCNT_COR + 1)
        ∧ NMap.get 0 t.cmns.scrub bank.val = (n + 1) % 32768 ∧ t.mem = s.mem ∧ t.cores = s.cores)
    ∧ (s.rd R.CMNS_CFG_SCRUB = 1 → w < 2 ^ 20 → s.wordMark w = .double → Answers (.commonsScrub bank) s fun t =>
        t.wordMark w = .poisoned ∧ t.rd R.CMNS_UEADDR_ADDR = 8 * w ∧ t.rd R.CMNS_UEINFO_PORT = 31 ∧ t.mem = s.mem)
    ∧ (s.rd R.CMNS_CFG_SCRUB = 0 → exec (.commonsScrub bank) s = .next s)
    ∧ (∀ row since rest, NMap.get [] s.cmns.rowCopy bank.val = (row, since) :: rest →
        (s.tick.toNat % 1000 = 0 → since < s.tick.toNat → s.rd (R.CMNS_BANKb_BROWS bank.val) < 32 →
          Answers (.commonsRowSwitch bank) s fun t =>
            NMap.get [] t.cmns.rowCopy bank.val = rest
            ∧ NMap.get 0 t.cmns.rowSub (256 * bank.val + row) = s.rd (R.CMNS_BANKb_BROWS bank.val) + 1
            ∧ t.rd (R.CMNS_BANKb_BROWS bank.val) = s.rd (R.CMNS_BANKb_BROWS bank.val) + 1 ∧ t.mem = s.mem ∧ t.cores = s.cores
            ∧ ∀ x, x < 16 → x ∈ s.dutiesOf 7 → s.isTarget x = true → ⟨s.now + 2, x, 54⟩ ∈ t.evIn)
        ∧ (s.tick.toNat % 1000 ≠ 0 ∨ s.tick.toNat ≤ since → exec (.commonsRowSwitch bank) s = .next s))
    ∧ (idle → Answers (.ckSeal p k) s (started 1)) ∧ (idle → Answers (.ckVerify p k) s (started 2))
    ∧ (idle → Answers (.ckCopy p k) s (started 3))
    ∧ (s.evIn = [] → s.serves p = true → s.rd (R.CMNS_CKkCMD_BUSY k.val) = 1 → Answers (.ckSeal p k) s fun t =>
        t.rd (R.CMNS_CKkCMD_ERR k.val) = 4 ∧ t.cmns = s.cmns ∧ t.mem = s.mem)
    ∧ (∀ a d len core, len ≠ 0 → a % 8 = 0 → a + 8 * (len + 1) ≤ 0x800000 → sound a (len + 1) →
        (NMap.get none s.cmns.ck k.val = some ⟨1, a, d, len, core⟩ → Answers (.checkUnitComplete k) s fun t =>
          done t 0 ∧ memRead t.mem (a + 8 * len) 8 = carryWord (words a len)
          ∧ ∀ b, b < a + 8 * len ∨ a + 8 * len + 8 ≤ b → memRead t.mem b 1 = memRead s.mem b 1)
        ∧ (NMap.get none s.cmns.ck k.val = some ⟨2, a, d, len, core⟩ →
            memRead s.mem (a + 8 * len) 8 = carryWord (words a len) → Answers (.checkUnitComplete k) s fun t =>
          done t 0 ∧ t.mem = s.mem)
        ∧ (NMap.get none s.cmns.ck k.val = some ⟨2, a, d, len, core⟩ → len < 2 ^ 24 →
            bitsOf (memRead s.mem (a + 8 * len) 8) 63 56 ≠ 0x5C → Answers (.checkUnitComplete k) s fun t =>
          done t 5 ∧ t.mem = s.mem)
        ∧ (NMap.get none s.cmns.ck k.val = some ⟨3, a, d, len, core⟩ → d % 8 = 0 → d + 8 * (len + 1) ≤ 0x800000 →
            (a + 8 * (len + 1) ≤ d ∨ d + 8 * (len + 1) ≤ a) →
            memRead s.mem (a + 8 * len) 8 = carryWord (words a len) → Answers (.checkUnitComplete k) s fun t =>
          done t 0 ∧ (∀ j, j < len → memRead t.mem (d + 8 * j) 8 = memRead s.mem (a + 8 * j) 8)
          ∧ memRead t.mem (d + 8 * len) 8 = carryWord (words a len)
          ∧ ∀ b, b < d ∨ d + 8 * (len + 1) ≤ b → memRead t.mem b 1 = memRead s.mem b 1))
    ∧ (∀ a d core op, NMap.get none s.cmns.ck k.val = some ⟨op, a, d, 0, core⟩ → Answers (.checkUnitComplete k) s fun t =>
        done t 1 ∧ t.mem = s.mem)

/-- The quarter model (R158, R159, R162, R164). A seal of a generation that does not run clears SEALED and is in progress; of one that
runs it is refused with event 89. It ends with event 88 to the core that sealed: where no check of R159 fails, with SEALED, the
collected BASE in effect and ERR 0, else with the code of the first failing check in ERR, 1 for a region out of place, 2 for one that
overlaps the other generation, and BASE as it was. A hold that has run out frees its generation and raises event 94. A scan unseals a
sealed generation whose header fails, an active one with CORRUPT and event 92, and leaves a sound or unsealed one. -/
def Obligations.QuarterModelCommands : Prop :=
  ∀ (s : State) (p : Port) (g : Fin 2),
    let base := s.rdColl (R.FUSA_QMg_BASE_BASE g.val)
    let o := 1 - g.val
    let kept (t : State) : Prop := t.mem = s.mem ∧ t.cores = s.cores
    let told (t : State) (at' d e : Nat) : Prop := d < 16 → s.isTarget d = true → ⟨at' + 2, d, e⟩ ∈ t.evIn
    let sealed (x : State) (h : Nat) : Prop := x.rd (R.FUSA_QMg_SEAL_SEALED h) = 1
    let active (h : Nat) : Prop := s.rd R.FUSA_QM_STAT_AVALID = 1 ∧ s.rd R.FUSA_QM_STAT_ACTG = h
    let runs (h : Nat) : Prop :=
      active h ∨ (s.rdShadow R.FUSA_QM_SEL_ACT = h ∧ s.rd (R.FUSA_QMg_SEAL_SEALED h) ≠ 0)
        ∨ s.rd (R.FUSA_QMg_SEAL_BUSY h) = 1 ∨ NMap.get none s.qm.hold h ≠ none
    let region (h : Nat) : Nat :=
      if s.rd (R.FUSA_QMg_SEAL_BUSY h) = 1 then s.rdColl (R.FUSA_QMg_BASE_BASE h) else s.rd (R.FUSA_QMg_BASE_BASE h)
    let placed := base % 4096 = 0 ∧ base + 0xAC000 ≤ 0x800000
    let clash := (s.rd (R.FUSA_QMg_SEAL_SEALED o) = 1 ∨ runs o) ∧ base < region o + 0xAC000 ∧ region o < base + 0xAC000
    (s.evIn = [] → s.serves p = true →
      (¬runs g.val → Answers (.qmSeal p g) s fun t =>
        ¬sealed t g.val ∧ t.rd (R.FUSA_QMg_SEAL_BUSY g.val) = 1
        ∧ t.rd (R.FUSA_QMg_BASE_BASE g.val) = s.rd (R.FUSA_QMg_BASE_BASE g.val) ∧ t.coll = s.coll
        ∧ NMap.get none t.qm.sealBy g.val = some (s.dutyOf p.core.val) ∧ t.evIn = [] ∧ kept t)
      ∧ (runs g.val → Answers (.qmSeal p g) s fun t =>
        t.qm = s.qm ∧ t.rd (R.FUSA_QMg_SEAL_SEALED g.val) = s.rd (R.FUSA_QMg_SEAL_SEALED g.val) ∧ t.coll = s.coll
        ∧ told t (60000 * s.tick.toNat + p.cyc) (s.dutyOf p.core.val) 89 ∧ kept t))
    ∧ (∀ d, NMap.get none s.qm.sealBy g.val = some d → (s.coll.map Prod.fst).Nodup →
      let ended (code : Nat) (t : State) : Prop :=
        t.rd (R.FUSA_QMg_SEAL_ERR g.val) = code ∧ t.rd (R.FUSA_QMg_SEAL_BUSY g.val) = 0
        ∧ NMap.get none t.qm.sealBy g.val = none ∧ told t s.now d 88 ∧ kept t
      let failed (code : Nat) (t : State) : Prop :=
        ended code t ∧ t.rd (R.FUSA_QMg_SEAL_SEALED g.val) = s.rd (R.FUSA_QMg_SEAL_SEALED g.val)
        ∧ t.rd (R.FUSA_QMg_BASE_BASE g.val) = s.rd (R.FUSA_QMg_BASE_BASE g.val)
        ∧ t.rdColl (R.FUSA_QMg_BASE_BASE g.val) = s.rd (R.FUSA_QMg_BASE_BASE g.val)
      ((s.qmCheck g.val base).1.isNone = true → Answers (.qmSealComplete g) s fun t =>
        ended 0 t ∧ sealed t g.val ∧ t.rd (R.FUSA_QMg_BASE_BASE g.val) = base
        ∧ NMap.get 0 t.qm.mseq g.val = (s.qmCheck g.val base).2.1)
      ∧ (∀ f, (s.qmCheck g.val base).1 = some f → f.code < 16 → Answers (.qmSealComplete g) s (failed f.code))
      ∧ (¬placed → Answers (.qmSealComplete g) s (failed 1))
      ∧ (placed → clash → Answers (.qmSealComplete g) s (failed 2))
      ∧ (placed → ¬clash → (∀ w, base / 8 ≤ w → w < base / 8 + 9 → s.wordMark w = .clean) →
          memRead s.mem (base + 64) 8 = carryWord ((List.range 8).map fun j => memRead s.mem (base + 8 * j) 8) →
          memRead s.mem base 2 ≠ 0x514D → Answers (.qmSealComplete g) s (failed 3)))
    ∧ (∀ r, NMap.get none s.qm.hold g.val = some r →
      (r ≤ s.tick.toNat → Answers (.qmHoldEnd g) s fun t =>
        NMap.get none t.qm.hold g.val = none ∧ kept t ∧ (∀ x, x ∈ s.dutiesOf 7 → told t s.now x 94)
        ∧ (¬active g.val → s.rd (R.FUSA_QMg_SEAL_SEALED g.val) = 0 → s.rd (R.FUSA_QMg_SEAL_BUSY g.val) = 0 →
            t.rd (if g.val = 0 then R.FUSA_QM_STAT_FREE0 else R.FUSA_QM_STAT_FREE1) = 1))
      ∧ (s.tick.toNat < r → exec (.qmHoldEnd g) s = .next s))
    ∧ (s.qm.scan = true → sealed s 0 → s.rd (R.FUSA_QMg_SEAL_SEALED 1) = 0 →
        (s.readSection (s.rd (R.FUSA_QMg_BASE_BASE 0)) 0 1).2.1 ≠ 0 → Answers .qmScan s fun t =>
        t.rd (R.FUSA_QMg_SEAL_SEALED 0) = 0 ∧ (active 0 → t.rd R.FUSA_QM_STAT_CORRUPT = 1)
        ∧ (∀ x, x ∈ s.dutiesOf 2 ∨ x ∈ s.dutiesOf 7 → told t s.now x 92) ∧ kept t)
    ∧ (s.qm.scan = false ∨ (s.rd (R.FUSA_QMg_SEAL_SEALED 0) = 0 ∧ s.rd (R.FUSA_QMg_SEAL_SEALED 1) = 0) →
        exec .qmScan s = .next s)
/-- State fusion (R168 to R198): a sample is calibrated and queued, or refused with its reason; the base is sealed or refused; at its
limit a buffer closes in any case, then gets its header and check word, and the slot two further is cleared; GATE and CUPD are
held with their descriptor and, of GATE, the gate fields of that cycle, until they end with their code, and CUPD has updated its records; a calibration write takes effect within
its limits. -/
def Obligations.FusionCommands : Prop :=
  ∀ (s : State) (p : Port), s.evIn = [] → s.serves p = true →
    (∀ (v : DWord), s.rd R.FUSA_STAT_RUN = 1 → s.rd R.FUSA_QM_STAT_AVALID = 1 → s.fusa.queue.length < 256 →
      let r := bitsOf v.toNat 43 32
      let x := signedOf 32 (bitsOf v.toNat 31 0)
      let z := nearest 32 (halfUp (s.rdI (R.FUSA_REFr_GAIN_GAIN r) * x) 28 + s.rdI (R.FUSA_REFr_OFF_OFF r))
      r < s.nref → bitsOf v.toNat 47 44 = 0 → bitsOf v.toNat 63 48 ≤ s.tick.toNat →
      Answers (.fusaSampleWrite p .dword v 0) s fun t =>
        t.fusa.queue = s.fusa.queue ++ [⟨r, patternOf 32 z, s.tick.toNat - bitsOf v.toNat 63 48, 60000 * s.tick.toNat + p.cyc⟩]
        ∧ t.rd R.FUSA_STAT_QLEN = s.fusa.queue.length + 1 ∧ t.mem = s.mem ∧ t.cores = s.cores)
    ∧ (∀ (size : Size) (v : DWord),
      let refused (code : Nat) : Prop := Answers (.fusaSampleWrite p size v 0) s fun t =>
        t.fusa.queue = s.fusa.queue ∧ t.rd R.FUSA_STAT_RREASON = code
        ∧ t.rd R.FUSA_CNTB_REFUSED = min 65535 (s.rd R.FUSA_CNTB_REFUSED + 1) ∧ t.mem = s.mem ∧ t.cores = s.cores
      (s.rd R.FUSA_STAT_RUN = 0 → refused 1)
      ∧ (s.rd R.FUSA_STAT_RUN = 1 → s.rd R.FUSA_QM_STAT_AVALID = 0 → refused 2)
      ∧ (s.rd R.FUSA_STAT_RUN = 1 → s.rd R.FUSA_QM_STAT_AVALID = 1 → bitsOf v.toNat 43 32 < s.nref →
          (256 ≤ s.fusa.queue.length → refused 3)
          ∧ (s.fusa.queue.length < 256 → size ≠ .dword → refused 4)))
    ∧ (∀ w : Word, s.rd R.FUSA_STAT_RUN = 0 → s.coll = [(R.FUSA_SBASE, w)] →
      let base := w.toNat % 2 ^ 23
      (base % 256 = 0 → base + 0x5AA00 ≤ 0x800000 → s.slotOverlap base = false → Answers (.fusaSbaseSeal p) s fun t =>
        t.rd R.FUSA_SBASE_SBASE = base ∧ t.rd R.FUSA_SEAL_ERR = 0 ∧ t.coll = [] ∧ t.mem = s.mem)
      ∧ (base % 256 ≠ 0 → Answers (.fusaSbaseSeal p) s fun t =>
        t.rd R.FUSA_SBASE_SBASE = s.rd R.FUSA_SBASE_SBASE ∧ t.rd R.FUSA_SEAL_ERR = 1 ∧ t.coll = [] ∧ t.mem = s.mem))
    ∧ (s.rd R.FUSA_STAT_RUN = 1 → Answers (.fusaSbaseSeal p) s fun t =>
        t.rd R.FUSA_SBASE_SBASE = s.rd R.FUSA_SBASE_SBASE ∧ t.rd R.FUSA_SEAL_ERR = s.rd R.FUSA_SEAL_ERR ∧ t.mem = s.mem)
    ∧ (∀ k, s.fusa.aligning = some k → s.fusa.queue = [] → 1000 * k + s.fusa.limit ≤ s.tick.toNat →
      Answers .alignmentLimitExpiry s fun t =>
        t.fusa.closed = k + 1 ∧ t.fusa.aligning = none ∧ t.fusa.nlate = 0
        ∧ t.fusa.closing = some ⟨k, s.tick.toNat - 1000 * k, !s.allPresent k, s.fusa.nlate⟩
        ∧ t.rd R.FUSA_CBUF_CBUF = k % 2 ^ 32 ∧ t.rd R.FUSA_STAT_ALIGN = 0 ∧ t.mem = s.mem)
    ∧ (∀ c, s.fusa.closing = some c →
      let a := s.slotAddr c.buf
      Answers .bufferClosedAndSealed s fun t =>
        t.fusa = { s.fusa with closing := none }
        ∧ memRead t.mem (a + 8 * 4096) 8
            = (c.buf % 2 ^ 32 + 2 ^ 32 * c.ctick + 2 ^ 42 * b2n c.byLim + 2 ^ 43 * c.nlate) % 2 ^ 64
        ∧ memRead t.mem (a + 8 * 4609) 8 = carryWord ((List.range 4609).map fun j => memRead t.mem (a + 8 * j) 8)
        ∧ (∀ j, j < 4096 → memRead t.mem (a + 8 * j) 8 = memRead s.mem (a + 8 * j) 8)
        ∧ (∀ j, j < 4610 → memRead t.mem (s.slotAddr (c.buf + 2) + 8 * j) 8 = 0)
        ∧ ∀ x, x < 16 → x ∈ s.dutiesOf 2 → s.isTarget x = true → ⟨s.now + 2, x, 80⟩ ∈ t.evIn)
    ∧ (∀ k : Fin 2,
      let u := s.setCycle p.cyc
      let desc := u.rdPrev (R.FUSA_AkDESC_DESC k.val)
      let started (op : Nat) (t : State) : Prop :=
        (∃ run, NMap.get none t.fusa.assist k.val = some run ∧ run.op = op ∧ run.desc = desc
          ∧ run.words = (List.range 8).map (fun j => memRead s.mem (desc + 8 * j) 8) ∧ run.core = s.dutyOf p.core.val
          ∧ run.g1 = u.rdPrev R.FUSA_GATEB_G1 ∧ run.g2 = u.rdPrev R.FUSA_GATEA_G2 ∧ run.g3 = u.rdPrev R.FUSA_GATEA_G3
          ∧ run.rehab = max 1 (u.rdPrev R.FUSA_GATEB_REHAB) ∧ run.base = s.activeBase ∧ run.code ≤ 4)
        ∧ t.rd (R.FUSA_AkCMD_BUSY k.val) = 1 ∧ t.mem = s.mem ∧ t.cores = s.cores
      (s.rd (R.FUSA_AkCMD_BUSY k.val) = 0 → desc % 64 = 0 → desc + 64 ≤ 0x800000 →
        (∀ w, desc / 8 ≤ w → w < desc / 8 + 8 → s.wordMark w = .clean) →
        Answers (.gate p k) s (started 1) ∧ Answers (.cupd p k) s (started 2))
      ∧ (s.rd (R.FUSA_AkCMD_BUSY k.val) = 1 → Answers (.cupd p k) s fun t =>
          t.rd (R.FUSA_AkCMD_ERR k.val) = 7 ∧ t.fusa = s.fusa ∧ t.mem = s.mem)
      ∧ ∀ run, NMap.get none s.fusa.assist k.val = some run → s.fusa.queue = [] →
        let ended (code : Nat) (t : State) : Prop :=
          t.rd (R.FUSA_AkCMD_BUSY k.val) = 0 ∧ t.rd (R.FUSA_AkCMD_ERR k.val) = code
            ∧ NMap.get none t.fusa.assist k.val = none ∧ t.cores = s.cores
        let a := run.arg 0
        let rec' := cupdRecord (leNat (wordsBytes ((List.range 48).map fun j => memRead s.mem (a + 8 * j) 8)))
        (1 ≤ run.code → run.code ≤ 4 → Answers (.assistComplete k) s fun t => ended run.code t ∧ t.mem = s.mem)
        ∧ (run.code = 0 → run.op = 2 → run.arg 4 = 1 → a % 64 = 0 → run.desc % 64 = 0 →
            (a + 384 ≤ run.desc ∨ run.desc + 64 ≤ a) → (∀ w, a / 8 ≤ w → w < a / 8 + 48 → s.wordMark w = .clean) →
            s.wordMark (run.desc / 8 + 1) = .clean → Answers (.assistComplete k) s fun t =>
          ended 0 t ∧ (List.range 48).map (fun j => memRead t.mem (a + 8 * j) 8) = numWords 48 rec'.1
          ∧ memRead t.mem (run.desc + 8) 4 = (if rec'.2 then 1 else 65536)
          ∧ ∀ b, (b < a ∨ a + 384 ≤ b) → (b < run.desc + 8 ∨ run.desc + 12 ≤ b) →
              memRead t.mem b 1 = memRead s.mem b 1))
    ∧ (∀ (r : Fin 4096) (v : Word), s.fusa.freeUntil ≤ s.tick.toNat → r.val < s.nref →
      let x := s.refRec r.val
      let v0 := recSigned x 16 4
      let step : Nat := recField x 26 2 * s.rd R.FUSA_CALR_ORATE / 256
      let held := signedOf 32 ((NMap.get 0 s.fusa.held (R.FUSA_REFr_OFF r.val)).toNat)
      let near : Int := max (held - step) (min (held + step) v.toInt)
      let within : Int := max (v0 - recField x 26 2) (min (v0 + recField x 26 2) near)
      ((recField x 32 1).testBit 1 = true → Answers (.calibrationWrite p r false v) s fun t =>
        t.rdI (R.FUSA_REFr_OFF_OFF r.val) = nearest 32 within ∧ t.rd (R.FUSA_REFr_GAIN_GAIN r.val) =
          s.rd (R.FUSA_REFr_GAIN_GAIN r.val) ∧ t.fusa = { s.fusa with budget := t.fusa.budget }
        ∧ ((NMap.get 0 t.fusa.budget r.val).testBit 0 = true ↔
            (t.rdI (R.FUSA_REFr_OFF_OFF r.val) - v0).natAbs = recField x 26 2)
        ∧ t.mem = s.mem ∧ t.cores = s.cores)
      ∧ ((recField x 32 1).testBit 1 = false → ∀ gain, exec (.calibrationWrite p r gain v) s = .next (s.setCycle p.cyc)))
/-- The work of the solver commands that define a problem and move data (R210, R215 to R218, R221, R236, R237): a pattern part by part, a
symbolic factorisation with the code of what it lacks, delta lists to K and to a vector, and cells read into the commons; what PDEF,
SYMB and PDEL make of the problem stands from their completion on. -/
def Obligations.SolverProblemCommands : Prop :=
  ∀ (s : State) (short : Bool) (seq : BitVec 16) (c : SqCmd) (r : SqRun), s.works short seq c r →
    let ws := r.words
    let p := dprob ws
    let x := s.prob p
    let nrows := s.rd (R.SOLV_Pp_DIM_NROWS p)
    let ended (code : Nat) (t : State) : Prop := t.workEnd short seq = some (SqFin.err code) ∧ t.cores = s.cores
    let left (code : Nat) (y : Prob) (t : State) : Prop :=
      ended code t ∧ t.prob p = y ∧ (∀ q, q ≠ p → t.prob q = s.prob q) ∧ t.mem = s.mem
    p < 8 →
    (dop ws = 1 → Answers (.pdef short seq calmRun) s fun t => left 0 x t ∧ t.regs = s.regs)
    ∧ (∀ ps, dop ws = 2 → ps.length = dfield ws 20 4 → ps.length ≤ 131072 → s.buffer (dchk ws) (dfield ws 16 4) ps →
        let last := dfield ws 24 1
        (∀ cs, patternPart nrows ps.length x.cols.length ps = some cs → (last ≠ 1 ∨ (x.cols ++ cs).length = nrows) →
          Answers (.patt short seq calmRun) s (left 0 { x with cols := x.cols ++ cs }))
        ∧ (∀ cs, patternPart nrows ps.length x.cols.length ps = some cs → last = 1 → (x.cols ++ cs).length ≠ nrows →
          Answers (.patt short seq calmRun) s (left 9 { x with cols := [] }))
        ∧ (patternPart nrows ps.length x.cols.length ps = none →
          Answers (.patt short seq calmRun) s (left 9 { x with cols := [] })))
    ∧ (dop ws = 3 →
        let fill := fillFrom 0 [] x.cols
        let cells := nfac nrows fill + s.rd (R.SOLV_Pp_STAT_NW p) * nrows
        let symb (code : Nat) : Prop := Answers (.symb short seq calmRun) s fun t => left code x t ∧ t.regs = s.regs
        let matrix := x.cols.length = nrows ∧ x.deltaOk = true
        (x.cols.length ≠ nrows → symb 9) ∧ (x.cols.length = nrows → x.deltaOk = false → symb 11)
        ∧ (matrix → firstFit cells 8388608 0 s.cellRuns = none → symb 7)
        ∧ (matrix → (firstFit cells 8388608 0 s.cellRuns).isSome = true → firstFit x.swords 2097152 0 s.wordRuns = none → symb 8)
        ∧ (matrix → (firstFit cells 8388608 0 s.cellRuns).isSome = true →
            (firstFit x.swords 2097152 0 s.wordRuns).isSome = true → symb 0))
    ∧ (dop ws = 4 → Answers (.pdel short seq calmRun) s fun t => left 0 x t ∧ t.regs = s.regs)
    ∧ (∀ ps, dop ws = 5 → ps.length = 2 * dfield ws 20 4 → ps.length ≤ 131070 → s.buffer (dchk ws) (dfield ws 16 4) ps →
        (∀ es, kdelta x ps = some es → Answers (.kdelta short seq calmRun) s fun t =>
          left 0 { x with k := applyCells x.k es } t)
        ∧ (kdelta x ps = none → Answers (.kdelta short seq calmRun) s (left 10 x)))
    ∧ (∀ ps, dop ws = 6 → ps.length = 2 * dfield ws 20 4 → ps.length ≤ 131070 → s.buffer (dchk ws) (dfield ws 16 4) ps →
        (∀ es, vdelta x (dfield ws 24 1) ps = some es →
          Answers (.vdelta short seq calmRun) s (left 0 { x with vec := applyCells x.vec es }))
        ∧ (vdelta x (dfield ws 24 1) ps = none → Answers (.vdelta short seq calmRun) s (left 10 x)))
    ∧ ∀ ps, dop ws = 7 → ps.length = (dfield ws 24 4 + 1) / 2 → ps.length ≤ 131072 → dfield ws 20 4 % 8 = 0 →
        s.buffer (dchk ws) (dfield ws 16 4) ps →
        let n := dfield ws 24 4
        let rows := (halves ps).take n
        let word (row : Nat) : Nat := patternOf 48 (x.cell (dfield ws 28 1) row) + 2 ^ 48 * patternOf 8 (x.col row).ev
        (∀ row ∈ rows, row < x.n) → Answers (.vread short seq calmRun) s fun t =>
          ended 0 t ∧ t.buffer (dchk ws) (dfield ws 20 4) (rows.map word) ∧ t.solv.prob = s.solv.prob
          ∧ s.sameBut t (dfield ws 20 4) (8 * n + 8 * b2n (dchk ws))

/-- Solver commands that compute, their completion and their cancellation (R205, R221, R227 to R236): the factor, the solutions and
products they leave in the problem, what they write into their descriptor or block, and how they end. -/
def Obligations.SolverNumericCommands : Prop :=
  ∀ (s : State) (short : Bool) (seq : BitVec 16) (c : SqCmd) (r : SqRun), s.works short seq c r →
    let ws := r.words
    let p := dprob ws
    let x := s.prob p
    let arg (k : Nat) : Nat := dfield ws k 1
    let ended (f : SqFin) (y : ProbO) (t : State) : Prop :=
      t.workEnd short seq = some { f with ovf := !y.2.isEmpty } ∧ t.prob p = y.1 ∧ t.cores = s.cores
    let cells : Prop := x.n ≤ 262144 ∧ ∀ v row, v < 5 → row < x.n →
      -cellMax ≤ x.cell v row ∧ x.cell v row ≤ cellMax ∧ -64 ≤ (x.col row).ev ∧ (x.col row).ev ≤ 63
    let near (row sc : Nat) (v : Int) : Int := clampInt (-cellMax) cellMax (roundCell v sc (x.col row).ev)
    let vop (f : Nat → Int) (t : State) : Prop :=
      (∃ o, t.workEnd short seq = some { SqFin.ok with ovf := o }) ∧ t.mem = s.mem ∧ t.cores = s.cores
        ∧ (∀ row, row < x.n → (t.prob p).cell (arg 17) row = f row)
        ∧ (∀ v row, v ≠ arg 17 → v < 5 → row < x.n → (t.prob p).cell v row = x.cell v row)
        ∧ (t.prob p).k = x.k ∧ (t.prob p).l = x.l
    let al := signedOf 32 (dfield ws 20 4)
    let be := signedOf 32 (dfield ws 24 4)
    p < 8 ∨ 14 ≤ dop ws →
    (dop ws = 8 → c.desc % 8 = 0 → p < 8 → Answers (.refac short seq calmRun) s fun t =>
        let f := refactor x
        t.prob p = f.1 ∧ t.probState p = s.probState p ∧ t.cores = s.cores
        ∧ (∃ e, t.workEnd short seq = some e ∧ e.code = 0 ∧ (e.ovf = true ↔ f.2.ovf ≠ [])
            ∧ (e.reg = true ↔ ∃ g ∈ f.2.flags, g.2 ≠ 4) ∧ (e.signf = true ↔ ∃ g ∈ f.2.flags, g.2 = 4))
        ∧ (∀ j, j < 16 → memRead t.mem (c.desc + 16 + 3 * j) 3 = (flagEntries f.2.flags).getD j 0 % 2 ^ 24)
        ∧ s.sameBut t (c.desc + 16) 48)
    ∧ (dop ws = 8 → p < 8 → c.desc % 8 = 0 → Answers (.refac short seq ⟨0, true, none⟩) s fun t =>
        t.workEnd short seq = some (SqFin.err 6) ∧ t.probState p = 4
        ∧ t.rd R.SOLV_ECC_UNC = min 65535 (s.rd R.SOLV_ECC_UNC + 1) ∧ t.mem = s.mem)
    ∧ (dop ws = 9 → Answers (.solve short seq calmRun) s fun t =>
        ended { SqFin.ok with fstale := s.rdBit (R.SOLV_Pp_STAT_FSTALE p) } (solveVec (arg 16) (arg 17) (x, [])) t
        ∧ t.mem = s.mem)
    ∧ (dop ws = 10 → Answers (.spmv short seq calmRun) s fun t =>
        ended SqFin.ok (spmv (arg 16) (arg 17) (arg 18 == 1) (x, [])) t ∧ t.mem = s.mem)
    ∧ (dop ws = 11 → cells →
        (arg 16 = 0 → arg 18 < 5 → Answers (.vopCopy short seq calmRun) s (vop fun row => x.cell (arg 18) row))
        ∧ (arg 16 = 1 → Answers (.vopAxpby short seq calmRun) s
            (vop fun row => near row 127 (al * x.val (arg 18) row + be * x.val (arg 19) row)))
        ∧ (arg 16 = 2 → arg 18 < 5 → Answers (.vopClamp short seq calmRun) s (vop fun row =>
            let a := x.cell (arg 18) row
            if (x.col row).dual = false then a else if a < x.cell 3 row then x.cell 3 row
            else if x.cell 4 row < a then x.cell 4 row else a))
        ∧ (arg 16 = 3 → Answers (.vopFill short seq calmRun) s (vop fun row => near row 111 (al * 2 ^ 95)))
        ∧ (arg 16 = 4 → s.wordMark ((c.desc + 28) / 8) = .clean → Answers (.vopNorm short seq calmRun) s fun t =>
            t.workEnd short seq = some SqFin.ok ∧ t.solv.prob = s.solv.prob
            ∧ memRead t.mem (c.desc + 28) 4 = scalarWord (vopNorm x (arg 18)) % 2 ^ 32 ∧ s.sameBut t (c.desc + 28) 4))
    ∧ (dop ws = 12 → s.wordMark ((c.desc + 20) / 8) = .clean → Answers (.refine short seq calmRun) s fun t =>
        let y := refine (arg 16) (arg 17) (arg 18) (arg 19) (x, [])
        ended SqFin.ok y t ∧ memRead t.mem (c.desc + 20) 4 = scalarWord (residual y.1 (arg 16) (arg 17)) % 2 ^ 32
        ∧ s.sameBut t (c.desc + 20) 4)
    ∧ (∀ n : Nat, dop ws = 13 → c.desc % 64 = 0 → (∀ w, c.desc / 8 ≤ w → w < c.desc / 8 + 8 → s.wordMark w = .clean) →
        let a := iterArgs ws
        let g := iterRun a n r.iters r.res (x, [])
        (g.2.2.2 = false → g.2.1 < a.itmax → Answers (.iter short seq calmRun n) s fun t =>
          t.works short seq { c with run := some { r with iters := g.2.1, res := g.2.2.1, ovf := r.ovf || !g.1.2.isEmpty } }
            { r with iters := g.2.1, res := g.2.2.1, ovf := r.ovf || !g.1.2.isEmpty }
          ∧ t.prob p = g.1.1 ∧ t.mem = s.mem)
        ∧ ((g.2.2.2 = true ∨ a.itmax ≤ g.2.1) → Answers (.iter short seq calmRun n) s fun t =>
          t.workEnd short seq = some { SqFin.ok with limit := !g.2.2.2, ovf := r.ovf || !g.1.2.isEmpty }
          ∧ memRead t.mem (c.desc + 40) 4 = g.2.1 % 2 ^ 32
          ∧ (∀ e ∈ g.2.2.1, memRead t.mem (c.desc + 44) 4 = scalarWord e.1 % 2 ^ 32
              ∧ memRead t.mem (c.desc + 48) 4 = scalarWord e.2 % 2 ^ 32)
          ∧ s.sameBut t (c.desc + 40) 12))
    ∧ (∀ b : List Nat, dop ws = 14 →
        let a := dfield ws 16 4
        let word (t : State) (j : Nat) : Nat := memRead t.mem (a + 4 * j) 4
        let nv := word s 0 % 256
        let nc := word s 0 / 256 % 256
        let itmax := word s 0 / 65536 % 256
        let n := dqpWords nv nc
        let uAt := 2 + nv * nv + 3 * nv + nc * nv + 2 * nc
        let lo (i : Nat) : Int := signedOf 32 (word s (2 + nv * nv + nv + i))
        let hi (i : Nat) : Int := signedOf 32 (word s (2 + nv * nv + 2 * nv + i))
        1 ≤ nv → nv ≤ 64 → nc ≤ 128 → 1 ≤ itmax → b.length = (n + 1) / 2 → a + 8 * b.length + 8 ≤ 0x800000 →
        s.buffer (dchk ws) a b → Answers (.dqp short seq calmRun) s fun t =>
          (∃ e, t.workEnd short seq = some e ∧ e.code = 0 ∧ (e.limit = true ↔ word t 1 % 256 = 1))
          ∧ word t 1 % 256 ≤ 3 ∧ word t 1 / 256 ≤ itmax
          ∧ (∀ j, j < 2 * b.length → j ≠ 1 → (j < uAt ∨ n ≤ j) → word t j = word s j)
          ∧ (∀ i, i < nv → word t 1 % 256 < 2 → lo i ≤ hi i →
              lo i ≤ signedOf 32 (word t (uAt + i)) ∧ signedOf 32 (word t (uAt + i)) ≤ hi i)
          ∧ (∀ i, i < nv → 2 ≤ word t 1 % 256 → word t (uAt + i) = word s (uAt + i))
          ∧ s.sameBut t a (8 * b.length + 8) ∧ t.cores = s.cores)
    ∧ (∀ (b : List Nat) (ly : List EncLayer × Nat), dop ws = 15 →
        let a := dfield ws 16 4
        let h := memRead s.mem a 4
        let nb := h % 4096
        let nin := h / 65536 % 256
        let outAt := pad4 (ly.2 + 2 * nb * nin)
        let bs := memBytes s.mem a (8 * b.length)
        let row (i : Nat) : List Int := (List.range nin).map fun k => sbyte bs (ly.2 + 2 * (nin * i + k)) 2
        1 ≤ nb → nb ≤ 2048 → 1 ≤ h / 4096 % 8 → h / 4096 % 8 ≤ 4 → 1 ≤ nin → nin ≤ 64 →
        encLayers (memBytes s.mem a 34000) (h / 4096 % 8) nin 4 = some ly → b.length = (outAt + 16 * nb + 7) / 8 →
        a + 8 * b.length + 8 ≤ 0x800000 → s.buffer (dchk ws) a b → Answers (.enc short seq calmRun) s fun t =>
          t.workEnd short seq = some SqFin.ok
          ∧ memBytes t.mem (a + outAt) (16 * nb) = (List.range nb).flatMap (fun i => encBytes (encRow bs ly.1 (row i)))
          ∧ memBytes t.mem a outAt = memBytes s.mem a outAt ∧ s.sameBut t a (8 * b.length + 8) ∧ t.cores = s.cores)

/-- The end and the cancellation of a solver command (R116, R208, R210, R215, R217, R218, R220, R227, R228, R229, R236, R237): a completed
ticket leaves its queue, answers with its status, has STEPS, at most the command's work, and STATUS in its descriptor, and sends the
event of its queue to the core that submitted it. With code 0 the results of PDEF, SYMB, PDEL, KDELTA and REFAC stand from then on; a
pending command is cancelled at once, a running one is marked and does not complete by itself. -/
def Obligations.SolverCommandEnds : Prop :=
  ∀ (s : State) (short : Bool) (seq : BitVec 16) (c : SqCmd), s.evIn = [] →
    s.solv.held.find? (fun d => d.short == short && d.seq == seq.toNat) = some c →
    let at' (cyc : Nat) := 60000 * s.tick.toNat + cyc
    let gone (t : State) (cyc status : Nat) : Prop :=
      t.solv.held.find? (fun d => d.short == short && d.seq == seq.toNat) = none
        ∧ NMap.get none t.solv.done (seq.toNat + (if short then 65536 else 0)) = some (at' cyc, status) ∧ t.cores = s.cores
    let told (t : State) (cyc e : Nat) : Prop :=
      c.core < 16 → s.isTarget c.core = true → ⟨at' cyc + 2, c.core, e⟩ ∈ t.evIn
    (∀ (r : SqRun) (f : SqFin) (cyc steps : Nat), c.run = some r → r.cancel = false → r.fin = some f → f.code ≤ 15 →
      c.desc % 64 = 0 → s.wordMark (c.desc / 8 + 1) = .clean →
      let p := dprob r.words
      let x := s.prob p
      let ends (P : State → Prop) : Prop := Answers (.solverCommandComplete short seq cyc steps) s P
      (ends fun t => gone t cyc f.status ∧ told t cyc (if short then 57 else 56) ∧ (f.code ≠ 0 → told t cyc 58)
        ∧ memRead t.mem (c.desc + 12) 4 = min steps (s.workSteps r.words) % 2 ^ 32
        ∧ memRead t.mem (c.desc + 8) 4 = f.status + 65536 * min 65535 (s.tick.toNat - r.start)
        ∧ (f.code = 0 → s.sameBut t (c.desc + 8) 8))
      ∧ (f.code = 0 → p < 8 → ends fun t =>
        let nrows := s.rd (R.SOLV_Pp_DIM_NROWS p)
        let fill := fillFrom 0 [] x.cols
        let cells := nfac nrows fill + s.rd (R.SOLV_Pp_STAT_NW p) * nrows
        (∀ q, q ≠ p → t.prob q = s.prob q)
        ∧ (dop r.words = 1 → dfield r.words 16 4 ≤ 262144 → dfield r.words 20 1 ≤ 3 →
            t.prob p = { Prob.free with
              tauX := signedOf 8 (dfield r.words 21 1), tauM := dfield r.words 22 2,
              delX := signedOf 8 (dfield r.words 24 1), delM := dfield r.words 26 2 }
            ∧ t.probState p = 1 ∧ t.rd (R.SOLV_Pp_DIM_NROWS p) = dfield r.words 16 4
            ∧ t.rd (R.SOLV_Pp_STAT_NW p) = dfield r.words 20 1)
        ∧ (∀ ca wa, dop r.words = 3 → firstFit cells 8388608 0 s.cellRuns = some ca →
            firstFit x.swords 2097152 0 s.wordRuns = some wa → cells ≤ 8388608 → x.swords ≤ 2097152 →
            t.prob p = { x with fill := fill, cellsAt := ca, wordsAt := wa, k := [], vec := [] }
            ∧ t.probState p = 2 ∧ t.rd (R.SOLV_Pp_CELLS_CELLS p) = cells ∧ t.rd (R.SOLV_Pp_SWORDS_WORDS p) = x.swords)
        ∧ (dop r.words = 4 → t.prob p = Prob.free ∧ t.probState p = 0 ∧ t.rd (R.SOLV_Pp_CELLS_CELLS p) = 0
            ∧ t.rd (R.SOLV_Pp_SWORDS_WORDS p) = 0 ∧ t.rd (R.SOLV_Pp_DIM_NROWS p) = 0)
        ∧ (dop r.words = 5 → t.prob p = x ∧ t.rd (R.SOLV_Pp_STAT_FSTALE p) =
            if s.probState p = 3 then 1 else s.rd (R.SOLV_Pp_STAT_FSTALE p))
        ∧ (dop r.words = 8 → t.prob p = x ∧ t.probState p = 3 ∧ t.rd (R.SOLV_Pp_STAT_FSTALE p) = 0
            ∧ (t.rd (R.SOLV_Pp_STAT_REG p) = 1 ↔ f.reg = true) ∧ (t.rd (R.SOLV_Pp_STAT_SIGNF p) = 1 ↔ f.signf = true)
            ∧ t.rd R.SOLV_STATUS_PROB = p ∧ t.rd R.SOLV_STATUS_FLAGCNT = min 16777215 f.flagcnt)
        ∧ (5 < dop r.words → dop r.words ≠ 8 → t.solv.prob = s.solv.prob)))
    ∧ (∀ (r : SqRun) (cyc steps : Nat), c.run = some r → (r.cancel = true ∨ r.fin = none) →
        exec (.solverCommandComplete short seq cyc steps) s = .next s)
    ∧ (∀ p : Port, s.serves p = true → c.run = none → Answers (.solvCancel p seq short) s fun t =>
        gone t p.cyc 13 ∧ told t p.cyc 58 ∧ told t p.cyc 61)
    ∧ ∀ (p : Port) (r : SqRun), s.serves p = true → c.run = some r → Answers (.solvCancel p seq short) s fun t =>
        t.solv.held.find? (fun d => d.short == short && d.seq == seq.toNat)
            = some { c with run := some { r with cancel := true } }
        ∧ t.mem = s.mem ∧ t.cores = s.cores
/-- An evaluation of a running loop, and the post of the output slots (R283 to R288, R295, R297): a loop that is not due does
nothing; one in manual mode gives MANOUT; one in automatic, with nothing to track, gives what its law computes from its setpoint and
its feedback, and shows a saturated feedback; one that is no longer enabled stops. No write falls in the evaluation's first cycle (R6,
R10), and no console entry waits. -/
def Obligations.LoopEvaluations : Prop :=
  ∀ (s : State) (n : Fin 512), s.evIn = [] → s.rd (R.LOOP_nSTAT_RUN n.val) = 1 → s.loops.console = [] →
    let u := s.setCycle (1600 + 100 * n.val)
    (∀ w ∈ s.wrote, w.t ≠ u.now) →
    let l := s.loopS n.val
    let due := s.rd (R.LOOP_nSEAL_SEALED n.val) = 1 ∧ s.tick.toNat % l.f 4 4 = l.f 8 4
    let en := s.rd (R.LOOP_nCTRL_EN n.val)
    let sp := s.rdI (R.LOOP_nSP_SP n.val)
    let law := computeLaw (u.keepAcc { l with sp := sp }) sp
    (¬due → exec (.loopEvaluation n) s = .next u)
    ∧ (due → en = 0 → u.injOf n.val = none → Answers (.loopEvaluation n) s fun t =>
        t.rd (R.LOOP_nSTAT_RUN n.val) = 0 ∧ t.rd (R.LOOP_nOUT_OUT n.val) = s.rd (R.LOOP_nOUT_OUT n.val) ∧ t.mem = s.mem
        ∧ t.cores = s.cores)
    ∧ (∀ y clipped, due → en = 1 → s.rd (R.LOOP_nBANK_PEND n.val) = 0 → l.rack = none → s.rd (R.LOOP_nSTAT_REACT n.val) = 0 →
        l.f 12 1 = 0 → l.f 15 1 = 0 → l.f 60 1 = 0 → u.injOf n.val = none → s.rd R.LOOP_CAPSTAT_ACT = 0 →
        u.loopY l = some (y, clipped) →
        let ran (out : Int) (t : State) : Prop :=
          t.rdI (R.LOOP_nOUT_OUT n.val) = out ∧ (t.loopS n.val).outprev = out ∧ (t.loopS n.val).first = false
            ∧ (clipped = true → t.rd (R.LOOP_nSTAT_SAT n.val) = 1)
            ∧ t.rd (R.LOOP_nYUSE_YUSE n.val) = patternOf 32 y ∧ t.rdI (R.LOOP_nRSP_RSP n.val) = s.rdI (R.LOOP_nSP_SP n.val)
            ∧ (∀ m, m ≠ n.val → t.loopS m = s.loopS m) ∧ t.mem = s.mem ∧ t.cores = s.cores
            ∧ t.cycle = 1600 + 100 * n.val
        (s.rd (R.LOOP_nMODE_MODE n.val) = 0 → Answers (.loopEvaluation n) s fun t =>
          ran (s.rdI (R.LOOP_nMANOUT_MANOUT n.val)) t ∧ t.rd (R.LOOP_nSTAT_TRACK n.val) = 1)
        ∧ (s.rd (R.LOOP_nMODE_MODE n.val) = 1 → s.innerTrack n.val = none → l.first = false → -2 ^ 31 ≤ l.act.umin →
            l.act.umin ≤ l.act.umax → l.act.umax < 2 ^ 31 → Answers (.loopEvaluation n) s fun t =>
          ran (law y 0).out t ∧ l.act.umin ≤ t.rdI (R.LOOP_nOUT_OUT n.val)
          ∧ t.rdI (R.LOOP_nOUT_OUT n.val) ≤ l.act.umax ∧ t.rd (R.LOOP_nSTAT_TRACK n.val) = 0))
    ∧ (s.rd R.LOOP_STAT_NRUN = 0 → exec .loopOutputPost s = .next (s.setCycle 52800))
    ∧ (s.rd R.LOOP_STAT_NRUN ≠ 0 →
        let base := s.rd R.LOOP_OREG_OBASE
        let num := s.rd R.LOOP_OREG_ONUM
        base + num ≤ 262144 → s.rd (R.TIER_SRCs_STAT_USED 20) + 8 * (num + 1) ≤ 4096 → Answers .loopOutputPost s fun t =>
          t.staged 20 = s.staged 20 ++ [⟨base, (List.range num).map (fun i =>
            patternOf 32 (NMap.get 0 s.loops.slots (2 * i)) + 2 ^ 32 * patternOf 32 (NMap.get 0 s.loops.slots (2 * i + 1))),
            false⟩]
          ∧ t.rd (R.TIER_SRCs_STAT_USED 20) = s.rd (R.TIER_SRCs_STAT_USED 20) + 8 * (num + 1) ∧ t.loops = s.loops
          ∧ t.mem = s.mem)

/-- The loop engine's commands (R287, R289, R300 to R304, R307, R309): seals and their ends, commits, set loads, console entries,
acknowledgements, injectors and capture. -/
def Obligations.LoopCommands : Prop :=
  ∀ (s : State) (p : Port) (n : Fin 512) (k : Fin 8), s.evIn = [] → s.serves p = true →
    let duty := s.dutyOf p.core.val
    let now := 60000 * s.tick.toNat + p.cyc
    let l := s.loopS n.val
    (s.rd (R.LOOP_nSTAT_RUN n.val) = 0 → s.rd (R.LOOP_nSEAL_BUSY n.val) = 0 → Answers (.loopSeal p n) s fun t =>
        t.rd (R.LOOP_nSEAL_BUSY n.val) = 1 ∧ NMap.get none t.loops.sealBy n.val = some (duty, s.rdColl (R.LOOP_nDESC_ADDR n.val))
        ∧ t.loopS n.val = l ∧ t.rd (R.LOOP_nDESC_ADDR n.val) = s.rd (R.LOOP_nDESC_ADDR n.val) ∧ t.mem = s.mem ∧ t.cores = s.cores)
    ∧ (s.rd (R.LOOP_nSTAT_RUN n.val) = 1 → Answers (.loopSeal p n) s fun t =>
        t.loops = s.loops ∧ t.word (R.LOOP_nSEAL n.val) = s.word (R.LOOP_nSEAL n.val) ∧ t.mem = s.mem)
    ∧ (∀ (d a : Nat) (ds : List Nat), NMap.get none s.loops.sealBy n.val = some (d, a) →
        let code := s.loopSealCode n.val { l with desc := ds }
        let ended (e : Nat) (t : State) : Prop :=
          t.rd (R.LOOP_nSEAL_ERR n.val) = e ∧ t.rd (R.LOOP_nSEAL_BUSY n.val) = 0
            ∧ NMap.get none t.loops.sealBy n.val = none ∧ t.mem = s.mem ∧ t.cores = s.cores
            ∧ (d < 16 → s.isTarget d = true → ⟨s.now + 2, d, 98⟩ ∈ t.evIn)
        (a % 64 = 0 → a + 128 ≤ 0x800000 → ds.length = 15 → s.buffer true a ds → code = 0 →
          Answers (.loopSealComplete n) s fun t =>
          ended 0 t ∧ t.rd (R.LOOP_nSEAL_SEALED n.val) = 1 ∧ t.rd (R.LOOP_nDESC_ADDR n.val) = a ∧ t.loopS n.val = { l with desc := ds, mround := 0 })
        ∧ (a % 64 = 0 → a + 128 ≤ 0x800000 → ds.length = 15 → s.buffer true a ds → code ≠ 0 →
          Answers (.loopSealComplete n) s fun t =>
          ended code t ∧ 4 ≤ code ∧ t.rd (R.LOOP_nSEAL_SEALED n.val) = s.rd (R.LOOP_nSEAL_SEALED n.val) ∧ t.loopS n.val = l)
        ∧ (a % 64 ≠ 0 → Answers (.loopSealComplete n) s fun t =>
          ended 1 t ∧ t.rd (R.LOOP_nSEAL_SEALED n.val) = s.rd (R.LOOP_nSEAL_SEALED n.val) ∧ t.loopS n.val = l))
    ∧ (∀ w : Word, s.rd R.LOOP_STAT_NRUN = 0 → s.coll = [(R.LOOP_OREG, w)] →
        let num := bitsOf w.toNat 26 18
        let base := bitsOf w.toNat 17 0
        (num ≤ 504 → base + num ≤ 262144 → Answers (.loopOutputSeal p) s fun t =>
          t.rd R.LOOP_OREG_ONUM = num ∧ t.rd R.LOOP_OREG_OBASE = base ∧ t.rd R.LOOP_OSEAL_ERR = 0 ∧ t.coll = [])
        ∧ (504 < num → Answers (.loopOutputSeal p) s fun t =>
          t.rd R.LOOP_OREG_ONUM = s.rd R.LOOP_OREG_ONUM ∧ t.rd R.LOOP_OSEAL_ERR = 1 ∧ t.coll = []))
    ∧ Answers (.loopCommit p n) s (fun t =>
        t.rd (R.LOOP_nBANK_PEND n.val) = 1 ∧ (∀ a, a ≠ R.LOOP_nBANK n.val → t.word a = s.word a) ∧ t.loops = s.loops
        ∧ t.mem = s.mem ∧ t.cores = s.cores)
    ∧ Answers (.reactionAcknowledge p n) s (fun t =>
        t.loopS n.val = { l with rack := some now } ∧ (∀ m, m ≠ n.val → t.loopS m = s.loopS m) ∧ t.regs = s.regs ∧ t.mem = s.mem
        ∧ t.cores = s.cores)
    ∧ (∀ a : BitVec 23,
        let b := (s.core p.core.val).blda
        (s.loops.loads.length < 8 → Answers (.setLoadQueue p a) s fun t =>
          t.loops.loads = s.loops.loads ++ [⟨b.toNat % 512, b.getLsbD 9, a.toNat, duty⟩]
          ∧ t.rd R.LOOP_STAT_NB = s.loops.loads.length + 1 ∧ t.mem = s.mem ∧ t.cores = s.cores)
        ∧ (8 ≤ s.loops.loads.length → Answers (.setLoadQueue p a) s fun t =>
          t.loops = s.loops ∧ t.rd R.LOOP_BLST_REFUSED = min 255 (s.rd R.LOOP_BLST_REFUSED + 1)))
    ∧ (∀ (q : SetLoad) (rest : List SetLoad) (ws : List Nat), s.loops.loads = q :: rest → q.loop < 512 →
        let x := s.loopS q.loop
        (q.addr % 64 = 0 → q.addr + 216 ≤ 0x800000 → ws.length = 26 → s.buffer true q.addr ws → setOk ws = true →
          s.loopSealed q.loop = true → Answers .setLoadComplete s fun t =>
          t.loopS q.loop = { x with
            shd := setBank ws, dirty := List.range 24, before := some ⟨s.now, x.shd, x.dirty⟩ }
          ∧ t.rd (R.LOOP_nBANK_DIRTY q.loop) = 1
          ∧ t.rd R.LOOP_BLST_ERR = 0 ∧ t.rd R.LOOP_BLST_LOOP = q.loop ∧ t.loops.loads = rest
          ∧ t.rd (R.LOOP_nBANK_PEND q.loop) = (if q.commit then 1 else s.rd (R.LOOP_nBANK_PEND q.loop)) ∧ t.mem = s.mem)
        ∧ (q.addr % 64 = 0 → q.addr + 216 ≤ 0x800000 → ws.length = 26 → s.buffer true q.addr ws →
          (setOk ws = false ∨ s.loopSealed q.loop = false) → Answers .setLoadComplete s fun t =>
          t.rd R.LOOP_BLST_ERR = (if setOk ws then 5 else 4) ∧ t.loops.loads = rest ∧ t.loopS q.loop = x ∧ t.mem = s.mem)
        ∧ (q.addr % 64 ≠ 0 → Answers .setLoadComplete s fun t =>
          t.rd R.LOOP_BLST_ERR = 1 ∧ t.loops.loads = rest ∧ t.loopS q.loop = x ∧ t.mem = s.mem))
    ∧ (∀ v : Word,
        let a := (s.core p.core.val).cwra.toNat
        let idx := bitsOf a 13 9
        (idx < 24 → s.loops.console.length < 16 → Answers (.consoleEntryQueue p v) s fun t =>
          t.loops.console = s.loops.console ++ [⟨a % 512, idx, bitsOf a 18 14, v.toInt, duty, now⟩]
          ∧ t.rd R.LOOP_STAT_NQ = s.loops.console.length + 1 ∧ t.mem = s.mem ∧ t.cores = s.cores)
        ∧ ((24 ≤ idx ∨ 16 ≤ s.loops.console.length) → Answers (.consoleEntryQueue p v) s fun t =>
          t.loops = s.loops ∧ t.rd R.LOOP_CWST_REFUSED = min 255 (s.rd R.LOOP_CWST_REFUSED + 1)))
    ∧ (s.rd (R.LOOP_INJk_STAT_ACT k.val) = 0 →
        Answers (.injectorSeal p k) s (fun t =>
          t.rd (R.LOOP_INJk_SEAL_ERR k.val) = s.injCode k.val
          ∧ (t.injS k.val).isSealed = ((s.injS k.val).isSealed || s.injCode k.val == 0) ∧ t.mem = s.mem)
        ∧ ((s.injS k.val).isSealed = true → Answers (.injectorStart p k) s fun t =>
          t.injS k.val = { s.injS k.val with starting := some now, core := duty } ∧ t.regs = s.regs ∧ t.mem = s.mem)
        ∧ ((s.injS k.val).isSealed = false → exec (.injectorStart p k) s = .next (s.setCycle p.cyc))
        ∧ Answers (.injectorStop p k) s (fun t =>
          t.injS k.val = { s.injS k.val with starting := none } ∧ t.regs = s.regs ∧ t.mem = s.mem))
    ∧ (s.rd (R.LOOP_INJk_STAT_ACT k.val) = 1 → Answers (.injectorStop p k) s fun t =>
        t.rd (R.LOOP_INJk_STAT_ACT k.val) = 0 ∧ t.rd (R.LOOP_INJk_STAT_END k.val) = 2
        ∧ t.rd (R.LOOP_nSTAT_INJ (s.rd (R.LOOP_INJk_CFG_LOOP k.val))) = 0 ∧ (t.injS k.val).starting = none ∧ t.mem = s.mem)
    ∧ (s.rd R.LOOP_CAPSTAT_ACT = 0 →
        Answers (.captureSeal p) s (fun t => t.rd R.LOOP_CAPSEAL_ERR = s.capCode ∧ t.loops = s.loops ∧ t.mem = s.mem)
        ∧ Answers (.captureStart p) s (fun t =>
          t.rd R.LOOP_CAPSTAT_ACT = 1 ∧ t.rd R.LOOP_CAPSTAT_WRAP = 0 ∧ t.rd R.LOOP_CAPSTAT_N = 0
          ∧ t.loops.capCore = some duty ∧ t.mem = s.mem)
        ∧ exec (.captureStop p) s = .next (s.setCycle p.cyc))
    ∧ (s.rd R.LOOP_CAPSTAT_ACT = 1 → Answers (.captureStop p) s fun t =>
        t.rd R.LOOP_CAPSTAT_ACT = 0 ∧ t.rd R.LOOP_CAPSTAT_N = s.rd R.LOOP_CAPSTAT_N ∧ t.loops = s.loops ∧ t.mem = s.mem)
/-- Valve axes and the module's count inputs (R310 to R327, R484, R486, R579): the update of cycle 53,000 moves each enabled axis towards
its target and carries out what its registers asked for before that cycle; an overcurrent, eight on phases that reach TONMAX, or a
bridge-fault input low for 1 µs is a fault that switches the axis off, and no leg ever has both gates on; writes are held for the
update; a seal is applied or refused; encoder and pulse edges count; and a standby keeps what its receivers take. -/
def Obligations.AxisAndInputCommands : Prop :=
  ∀ (s : State) (p : Port) (a : Fin 8), s.evIn = [] →
    let x := s.axis a.val
    let en := s.rd (R.AXIS_aCTRL_EN a.val)
    let pos := s.rdI (R.AXIS_aPOS_POS a.val)
    let tgt := s.rdI (R.AXIS_aTGT_TGT a.val)
    let due (t : Nat) : Prop := t < 60000 * s.tick.toNat + 53000
    let now := 60000 * s.tick.toNat + p.cyc
    let updated (q : State → Prop) : Prop := (∀ w ∈ s.wrote, w.t ≠ 60000 * s.tick.toNat + 53000) → ∀ la, Answers (.axisUpdate la) s fun t =>
      t.cycle = 53000 ∧ t.mem = s.mem ∧ t.cores = s.cores ∧ q t
    let kept (t : State) : Prop := (∀ b, t.axis b = s.axis b) ∧ t.mem = s.mem ∧ t.cores = s.cores
    (en = 1 → x.commit = [] → x.clr = [] → x.setp = [] → s.rd (R.AXIS_aCFG_TSRC a.val) = 0 →
        s.forcedAx a.val = false → s.rd (R.AXIS_aSTAT_STALL a.val) = 0 → s.rd (R.AXIS_aSTAT_FAULT a.val) = 0 →
        s.rdI (R.AXIS_aSLO_SLO a.val) ≤ tgt → tgt ≤ s.rdI (R.AXIS_aSHI_SHI a.val) →
        let m := moveTo tgt pos x.vel x.frac (max 1 (s.rd (R.AXIS_aVEL_VMAX a.val)))
          (max 1 (s.rd (R.AXIS_aVEL_AMAX a.val))) none
        updated fun t => t.rdI (R.AXIS_aPOS_POS a.val) = m.pos ∧ t.rd (R.AXIS_aSTAT_MOVING a.val) = b2n m.moving
          ∧ t.rd (R.AXIS_aSTAT_LIMLO a.val) = 0 ∧ t.rd (R.AXIS_aSTAT_LIMHI a.val) = 0)
    ∧ (en = 0 → x.commit = [] → x.setp = [] → updated fun t =>
        t.rdI (R.AXIS_aPOS_POS a.val) = pos ∧ t.rd (R.AXIS_aSTAT_MOVING a.val) = 0 ∧ (t.axis a.val).vel = 0)
    ∧ (∀ (v : Word) (w : Nat), en = 0 → x.setp = [(w, v.toInt)] → due w → updated fun t =>
        t.rd (R.AXIS_aPOS_POS a.val) = v.toNat ∧ t.rd (R.AXIS_aSTAT_HOMED a.val) = 1 ∧ (t.axis a.val).setp = []
        ∧ (t.axis a.val).vel = 0)
    ∧ (∀ w, en = 0 → x.setp = [] → x.commit = [] → x.clr = [w] → due w → updated fun t =>
        t.rd (R.AXIS_aSTAT_STALL a.val) = 0 ∧ t.rd (R.AXIS_aSTAT_FAULT a.val) = 0 ∧ t.rd (R.AXIS_aSTAT_FCODE a.val) = 0
        ∧ (t.axis a.val).clr = [])
    ∧ (∀ (v : Word) (w u : Nat), en = 0 → x.setp = [(w, v.toInt)] → x.clr = [u] → ¬due w → ¬due u → x.commit = [] → updated fun t =>
        t.rdI (R.AXIS_aPOS_POS a.val) = pos ∧ (t.axis a.val).setp = [(w, v.toInt)] ∧ (t.axis a.val).clr = [u]
        ∧ t.rd (R.AXIS_aSTAT_FAULT a.val) = s.rd (R.AXIS_aSTAT_FAULT a.val))
    ∧ (∀ cyc : Nat, s.isStandby = false → s.rd (R.AXIS_aSTAT_FAULT a.val) = 0 →
        let at' := 60000 * s.tick.toNat + cyc
        let faulted (w : List ChopSense) (code : Nat) : Prop := Answers (.chopperFault a w cyc) s fun t =>
          t.rd (R.AXIS_aSTAT_FAULT a.val) = 1 ∧ t.rd (R.AXIS_aSTAT_FCODE a.val) = code
          ∧ t.rd (R.AXIS_aSTAT_HOMED a.val) = 0 ∧ t.gatesOff a.val = true
          ∧ t.rd (R.AXIS_aCNT_FAULTS a.val) = min 255 (s.rd (R.AXIS_aCNT_FAULTS a.val) + 1)
          ∧ (∀ b, b ≠ a.val → t.axis b = s.axis b) ∧ t.mem = s.mem ∧ t.cores = s.cores
          ∧ ∀ y, y < 16 → y ∈ s.dutiesOf 4 → s.isTarget y = true → ⟨at' + 2, y, 112 + a.val⟩ ∈ t.evIn
        let c := s.chopCfg a.val
        let ends (y : ChopS) (ref : Int) (m : Nat) : Prop :=
          y.phase = .drive ∧ y.run = 7 ∧ 32 ≤ ref.natAbs ∧ c.tonmax ≤ y.t + 1 ∧ m < ref.natAbs ∧ m ≤ 320
        (∀ m : ChopSense, s.gatesOff a.val = false → x.chopA.blanked c = false → 320 < m.a → faulted [m] 1)
        ∧ (∀ m : ChopSense, s.gatesOff a.val = false → x.chopB.blanked c = false → m.a ≤ 320 → 320 < m.b → faulted [m] 2)
        ∧ (∀ m : ChopSense, s.gatesOff a.val = false → ends x.chopA x.refA m.a → m.b ≤ 320 → faulted [m] 3)
        ∧ (∀ m : ChopSense, s.gatesOff a.val = false → ends x.chopB x.refB m.b → m.a ≤ 320 → x.chopA = ⟨.slow, 0, 0⟩ →
            faulted [m] 4)
        ∧ (s.gatesOff a.val = true → x.low = 99 → faulted [⟨0, 0, true⟩] 5)
        ∧ (∀ m : ChopSense, s.gatesOff a.val = true → m.low = false → Answers (.chopperFault a [m] cyc) s fun t =>
            t.rd (R.AXIS_aSTAT_FAULT a.val) = 0 ∧ (t.axis a.val).low = 0 ∧ t.axisGates a.val = List.replicate 8 false))
    ∧ (∀ (w : List ChopSense) (cyc : Nat), (s.isStandby = false → Answers (.chopperFault a w cyc) s fun t =>
          t.mem = s.mem ∧ t.cores = s.cores
          ∧ ∀ k, k < 4 → ¬((t.axisGates a.val)[2 * k]? = some true ∧ (t.axisGates a.val)[2 * k + 1]? = some true))
        ∧ (s.isStandby = true → exec (.chopperFault a w cyc) s = .next ((s.setCycle cyc).capture cyc (.bridge a w))))
    ∧ (s.serves p = true →
        exec (.axisClr p a) s = .next ((s.setCycle p.cyc).setAxis a.val { x with clr := now :: x.clr })
        ∧ (∀ v : Word, Answers (.axisSetp p a v) s fun t =>
            t.axis a.val = { x with setp := (now, v.toInt) :: x.setp } ∧ (∀ b, b ≠ a.val → t.axis b = s.axis b)
            ∧ (∀ b, b ≠ R.AXIS_aSETP a.val → t.word b = s.word b) ∧ t.mem = s.mem ∧ t.cores = s.cores)
        ∧ exec (.axisCommit p a) s = .next ((s.setCycle p.cyc).setAxis a.val { x with commit := now :: x.commit }))
    ∧ (s.serves p = true → en = 0 → s.axisSealCode a.val = 0 → Answers (.axisSeal p a) s fun t =>
        t.rd (R.AXIS_aSEAL_ERR a.val) = 0 ∧ (t.axis a.val).isSealed = true ∧ t.evIn = [] ∧ t.mem = s.mem)
    ∧ (s.serves p = true → en = 0 → s.axisSealCode a.val ≠ 0 → Answers (.axisSeal p a) s fun t =>
        t.rd (R.AXIS_aSEAL_ERR a.val) = s.axisSealCode a.val ∧ kept t ∧ t.rd (R.AXIS_aEVC_SEALE a.val) = 1)
    ∧ (s.serves p = true → en = 1 → Answers (.axisSeal p a) s fun t =>
        t.coll = s.coll ∧ t.rd (R.AXIS_aEVC_SEALE a.val) = 1 ∧ t.rd (R.AXIS_aSEAL_ERR a.val) ≠ 0 ∧ kept t)
    ∧ (∀ (e : Fin 4) (k : EncEdge), s.isStandby = false → Answers (.encoderEdge e k) s fun t =>
        let n := s.rd (R.AXIS_ENCe_POS_COUNT e.val)
        t.rd (R.AXIS_ENCe_POS_COUNT e.val) = (match k with
          | .forward => (n + 1) % 2 ^ 32
          | .reverse => (n + (2 ^ 32 - 1)) % 2 ^ 32
          | .double => n)
        ∧ t.rd (R.AXIS_ENCe_STAT_QERR e.val) = (match k with
          | .double => min 65535 (s.rd (R.AXIS_ENCe_STAT_QERR e.val) + 1)
          | _ => s.rd (R.AXIS_ENCe_STAT_QERR e.val))
        ∧ kept t)
    ∧ (∀ (e : Fin 4) (k : EncEdge), s.isStandby = true → exec (.encoderEdge e k) s = .next (s.capture s.cycle (.encoder e k)))
    ∧ (∀ (i : Fin 32) (ten : Fin 10000), s.isStandby = true →
        exec (.pulseInputEdge i ten) s = .next ((s.setCycle (6 * ten.val)).capture (6 * ten.val) (.pulse i ten.val)))
    ∧ (∀ (i : Fin 32) (ten : Fin 10000), s.isStandby = false → Answers (.pulseInputEdge i ten) s fun t =>
        t.rd (R.DIOP_PIp_CNT_CNT i.val) = (s.rd (R.DIOP_PIp_CNT_CNT i.val) + 1) % 2 ^ 32
        ∧ t.edgesOf i.val = (10000 * s.tick.toNat + ten.val) :: s.edgesOf i.val
        ∧ (∀ j, j ≠ i.val → t.edgesOf j = s.edgesOf j) ∧ kept t)

/-- Kick-off, restarts, releases and the supply (R332 to R335, R353, R554 to R566, R569 to R571, R578): kick-off ends in setup on
the loader core or stops; requests are taken or answered with their code; a restart clears the cores of its partition; feeds and
overloaded outputs are watched. -/
def Obligations.KickOffAndSupplyCommands : Prop :=
  ∀ (s : State) (p : Port),
    let quiet (t : State) : Prop :=
      t.phase = .off ∧ t.tick = 0 ∧ (∀ q, (t.core q).on = false) ∧ t.evIn = []
        ∧ (∀ a, 0x20000000 ≤ a → a < 0x21000000 → NMap.get 0 t.mem a = NMap.get 0 s.mem a)
        ∧ ∀ a, (a < 0x20000000 ∨ 0x21000000 ≤ a) → NMap.get 0 t.mem a = 0
    (∀ k : KickIn, s.phase = .off → ((1800 ≤ k.va ∧ k.va ≤ 3200) ∨ (1800 ≤ k.vb ∧ k.vb ≤ 3200)) → k.va ≤ 4000 → k.vb ≤ 4000 →
        k.rows = [] → Answers (.powerGoodKickOff k) s fun t =>
        (t.phase = .setup ∨ t.phase = .halted) ∧ t.tick = 0
        ∧ (∀ q, (t.core q).on = true → t.phase = .setup ∧ t.rst.loader = some q)
        ∧ (t.phase = .setup → t.rd R.DIOP_RSTAT_WHOLD = 1 ∧ ∃ q, t.rst.loader = some q ∧ (t.core q).on = true)
        ∧ (k.memBad = true → t.phase = .halted))
    ∧ (∀ k : KickIn, (4000 < k.va ∨ 4000 < k.vb) → exec (.powerGoodKickOff k) s = .fault .outsideConditions)
    ∧ (s.phase = .setup → Answers .setupTimeout s fun t =>
        t.phase = .halted ∧ (∀ q, q < 16 → (t.core q).on = false) ∧ t.pair.hwc = 7 ∧ t.mem = s.mem)
    ∧ (s.phase ≠ .setup → exec .setupTimeout s = .next s)
    ∧ (∀ (part : BitVec 4) (kind : BitVec 2), s.evIn = [] → s.serves p = true →
        let answered (code : Nat) (t : State) : Prop :=
          t.rd R.DIOP_RSTAT_ERR = code ∧ t.rst = s.rst ∧ t.rd R.DIOP_RSTAT_PEND = s.rd R.DIOP_RSTAT_PEND ∧ t.mem = s.mem
        (s.phase = .running → (part = 1 ∨ part = 8) → s.coresOf part.toNat ≠ [] → s.rd R.DIOP_RSTAT_PEND = 0 → kind.toNat < 2 →
          Answers (.restartRequest p part kind) s fun t =>
            t.rd R.DIOP_RSTAT_PEND = 1 ∧ t.rd R.DIOP_RSTAT_ERR = 0
            ∧ t.rst.req = some (part.toNat, kind.toNat, 1000 * (s.tick.toNat / 1000 + 1)) ∧ t.cores = s.cores ∧ t.mem = s.mem)
        ∧ (s.phase ≠ .running → Answers (.restartRequest p part kind) s (answered 7))
        ∧ (s.phase = .running → part ≠ 1 → part ≠ 8 → Answers (.restartRequest p part kind) s (answered 1)))
    ∧ (∀ part kind q : Nat, s.evIn = [] → s.rst.req = some (part, kind, q) → q ≤ s.tick.toNat → kind < 2 →
        (∀ c, c < 16 → (s.core c).stopped = false) → Answers .partitionRestart s fun t =>
        t.rst.req = none ∧ t.rd R.DIOP_RSTAT_PEND = 0 ∧ t.rd R.DIOP_RSTAT_WHOLD = 1 ∧ t.rd R.DIOP_RSTAT_LKIND = 2 + kind
        ∧ t.rd R.DIOP_RSTAT_RCNT = min 65535 (s.rd R.DIOP_RSTAT_RCNT + 1) ∧ t.mem = s.mem ∧ t.cycle = 0
        ∧ (∀ c, c < 16 → s.partOf c = part → s.inService c = true →
            (t.core c).on = false ∧ (∀ r, (t.core c).reg r = 0) ∧ (t.core c).dmem = [] ∧ (t.core c).imem = (s.core c).imem)
        ∧ ∀ c, c < 16 → s.partOf c ≠ part → t.core c = s.core c)
    ∧ (s.evIn = [] → s.serves p = true → s.phase = .running →
        (s.rd R.DIOP_RSTAT_PEND = 0 → s.keyCoreStopped = false → Answers (.outputReleaseRequest p) s fun t =>
          t.rd R.DIOP_RSTAT_ERR = 0 ∧ t.rst = { s.rst with rel := some (s.tick.toNat + 1) } ∧ t.mem = s.mem)
        ∧ ((s.rd R.DIOP_RSTAT_PEND = 1 ∨ s.keyCoreStopped = true) → Answers (.outputReleaseRequest p) s fun t =>
          t.rd R.DIOP_RSTAT_ERR = 5 ∧ t.rst = s.rst))
    ∧ (∀ k, s.evIn = [] → s.rst.rel = some k → k ≤ s.tick.toNat → s.mayRelease = true → Answers .outputRelease s fun t =>
        t.rd R.DIOP_RSTAT_WHOLD = 0 ∧ t.rst.rel = none ∧ t.cycle = 1536 ∧ t.rd R.DIOP_FORCED_HOLD = 0
        ∧ (∀ o, o < 24 → t.forcedDo o = s.overDo.testBit o) ∧ t.mem = s.mem ∧ t.cores = s.cores)
    ∧ (∀ k, s.rst.rel = some k → s.mayRelease = false → exec .outputRelease s = .next s)
    ∧ (∀ (key : BitVec 16) (cold kick : Bool), s.evIn = [] → s.serves p = true →
        (key ≠ 0x4B1C → Answers (.kickOffRequest p key cold kick) s fun t =>
          t.rd R.DIOP_KREQ_ERR = 1 ∧ t.rd R.DIOP_KREQ_COLD = s.rd R.DIOP_KREQ_COLD ∧ t.rst = s.rst ∧ t.mem = s.mem)
        ∧ (s.phase = .running → s.isMember = false → Answers (.kickOffRequest p 0x4B1C cold true) s fun t =>
          t.rd R.DIOP_KREQ_ERR = 0 ∧ t.rd R.DIOP_KREQ_COLD = b2n cold ∧ t.mem = s.mem ∧ t.cores = s.cores
          ∧ t.rst.kick = some (s.rst.kick.getD (1000 * (s.tick.toNat / 1000 + 1))))
        ∧ (s.phase = .running → Answers (.kickOffRequest p 0x4B1C cold false) s fun t =>
          t.rd R.DIOP_KREQ_ERR = 0 ∧ t.rd R.DIOP_KREQ_COLD = b2n cold ∧ t.rst = s.rst ∧ t.mem = s.mem))
    ∧ (∀ h, s.evIn = [] → s.phase = .running → s.rst.kick = some h → h ≤ s.tick.toNat → Answers .requestedKickOff s quiet)
    ∧ (∀ b : Bool,
        let pres (b : Bool) (t : State) : Nat := t.rd (presOfFeed b)
        (pres b s = 0 → Answers (.feedPresent b) s fun t =>
          pres b t = 1 ∧ pres (!b) t = pres (!b) s ∧ t.mem = s.mem ∧ t.cores = s.cores
          ∧ (s.phase = .running → ∀ y, y < 16 → y ∈ s.dutiesOf 7 → s.isTarget y = true →
              ⟨s.now + 2, y, if b then 249 else 248⟩ ∈ t.evIn))
        ∧ (pres b s = 1 → Answers (.feedLost b) s fun t =>
          pres b t = 0 ∧ pres (!b) t = pres (!b) s ∧ t.rd (lostOfFeed b) = min 255 (s.rd (lostOfFeed b) + 1)
          ∧ t.feed.dying = (s.feed.dying || decide (pres (!b) s = 0)) ∧ t.mem = s.mem ∧ t.cores = s.cores)
        ∧ (∀ k, s.phase = .running → pres b s = 1 → NMap.get 0 s.feed.outSince (if b then 1 else 0) = k + 1 →
            k + 1000 ≤ s.tick.toNat → s.feed.told.testBit (if b then 1 else 0) = false → Answers (.feedOutOfBand b) s fun t =>
          t.rd R.FEED_CNT_OOB = min 255 (s.rd R.FEED_CNT_OOB + 1) ∧ t.feed.told.testBit (if b then 1 else 0) = true
          ∧ t.mem = s.mem ∧ t.cores = s.cores)
        ∧ (s.phase = .halted → Answers (.feedOutOfBand b) s quiet))
    ∧ (s.feed.dying = true → Answers .powerDown s quiet) ∧ (s.feed.dying = false → exec .powerDown s = .next s)
    ∧ ∀ o : Fin 24,
        (s.doDriven o.val = some true → Answers (.outputOverload o) s fun t =>
          (t.rd R.DIOP_DOFLT_OVL).testBit o.val = true ∧ t.doDriven o.val = some false
          ∧ NMap.get 0 t.diop.trip o.val = s.tick.toNat + 1 ∧ t.mem = s.mem ∧ t.cores = s.cores)
        ∧ (∀ k, NMap.get 0 s.diop.trip o.val = k + 1 → k + 1000 ≤ s.tick.toNat → s.doSelect o.val = some true →
          Answers (.overloadRetry o) s fun t => t.doDriven o.val = some true ∧ t.regs = s.regs ∧ t.mem = s.mem)
        ∧ (∀ k, NMap.get 0 s.diop.trip o.val = k + 1 → s.tick.toNat < k + 1000 → exec (.overloadRetry o) s = .next s)
/-- The substation bus (R354 to R372): frames received are stored with their check word or counted; transmit requests are taken,
started at an opportunity after their egress check, and end; errors count towards error passive and bus-off, and a channel recovers;
stations drop out and return by the stores of earlier ticks; a channel is sealed, on the writes collected at GO, and integrated; and
what the wire brings a standby is kept. -/
def Obligations.SubstationBusCommands : Prop :=
  ∀ (s : State) (p : Port) (c : Fin 16), s.evIn = [] →
    let n := c.val
    let x := s.canCh n
    let state := s.rd (R.CANB_cSTAT_STATE n)
    let run := s.rd (R.CANB_cSTAT_RUN n)
    let on := run = 1 ∧ state < 2
    let kept (t : State) : Prop := t.mem = s.mem ∧ t.cores = s.cores
    let word (t : State) (j k : Nat) : Nat := memRead t.mem (0x30000000 + 80 * j + 8 * k) 8
    let words (j : Nat) : List Nat := (List.range 10).map (word s j)
    let clean (j : Nat) : Prop := ∀ k, k < 10 → s.objMark (10 * j + k) = .clean
    let told (t : State) (part e : Nat) : Prop :=
      ∀ y, y < 16 → y ∈ s.dutiesOf part → s.isTarget y = true → ∃ at', ⟨at', y, e⟩ ∈ t.evIn
    -- reception
    (∀ f : CanFrame,
      let taken := on ∧ s.isStandby = false ∧ (f.fdf = true → s.rd (R.CANB_cCFG_FD n) = 1)
      let hit := x.table.find? (fun e => entKey e == frameWord0 f % 2 ^ 30 && !entTx e)
      let last := run = 0 ∧ f.begun + 1 < x.offAt ∧ s.isStandby = false ∧ (f.fdf = true → s.rd (R.CANB_cCFG_FD n) = 1)
      (∀ e, (taken ∨ last) → f.crcOk = true → f.remote = false → hit = some e → Answers (.canFrameReceive c f) s fun t =>
        let o := s.objS (entObj e)
        (∀ k, k < 10 → word t (entObj e) k = (frameWords f ++ [carryWord (frameWords f)]).getD k 0)
        ∧ t.objS (entObj e) = ⟨(o.seq + 1) % 256, true, o.lost || o.nd⟩
        ∧ t.rd (R.CANB_cCNTA_RXOK n) = min 65535 (s.rd (R.CANB_cCNTA_RXOK n) + 1)
        ∧ s.sameBut t (0x30000000 + 80 * entObj e) 80 ∧ t.cores = s.cores)
      ∧ (taken → f.crcOk = true → f.remote = false → hit = none → Answers (.canFrameReceive c f) s fun t =>
        t.rd (R.CANB_cCNTB_NOMATCH n) = min 255 (s.rd (R.CANB_cCNTB_NOMATCH n) + 1) ∧ kept t ∧ t.can.obj = s.can.obj)
      ∧ (taken → f.crcOk = true → f.remote = true → Answers (.canFrameReceive c f) s fun t =>
        t.rd (R.CANB_cCNTC_REMOTE n) = min 255 (s.rd (R.CANB_cCNTC_REMOTE n) + 1) ∧ kept t ∧ t.can.obj = s.can.obj)
      ∧ (taken → f.crcOk = false → Answers (.canFrameReceive c f) s fun t =>
        t.rd (R.CANB_cCNTB_CRCERR n) = min 255 (s.rd (R.CANB_cCNTB_CRCERR n) + 1)
        ∧ (t.canCh n).rcv = min 255 (x.rcv + 1) ∧ kept t ∧ t.can.obj = s.can.obj)
      ∧ (s.isStandby = false → ¬on → (run = 1 ∨ x.offAt ≤ f.begun + 1) → exec (.canFrameReceive c f) s = .next s)
      ∧ (s.isStandby = true → exec (.canFrameReceive c f) s = .next (s.capture s.cycle (.canFrame c f))))
    -- transmission
    ∧ (∀ (j : BitVec 13) (sealed : Bool), s.serves p = true → clean j.toNat →
      let code := s.txCode n j.toNat sealed (words j.toNat)
      (code = 0 → Answers (.canTxRequest p c j sealed) s fun t =>
        (∃ e, x.table.find? (fun e => entObj e == j.toNat && entTx e) = some e
          ∧ (t.canCh n).reqs = x.reqs ++ [⟨j.toNat, e, s.tick.toNat * 60000 + p.cyc, false, none⟩])
        ∧ t.objS j.toNat = { s.objS j.toNat with nd := false, lost := false }
        ∧ (sealed = true → word t j.toNat 9 = carryWord ((words j.toNat).take 9))
        ∧ s.sameBut t (0x30000000 + 80 * j.toNat + 72) 8 ∧ t.cores = s.cores)
      ∧ (code ≠ 0 → Answers (.canTxRequest p c j sealed) s fun t =>
        (t.canCh n).reqs = x.reqs ∧ t.rd (R.CANB_cSTAT_TXERR n) = code
        ∧ t.rd (R.CANB_cCNTC_TXREF n) = min 255 (s.rd (R.CANB_cCNTC_TXREF n) + 1) ∧ t.objS j.toNat = s.objS j.toNat
        ∧ told t 6 (120 + 2 * n)))
    ∧ (∀ (j : BitVec 13) (r : CanReq), s.serves p = true → x.reqs.find? (fun q => q.obj == j.toNat) = some r →
      (r.attempt = none → Answers (.canTxCancel p c j) s fun t =>
        (t.canCh n).reqs = x.reqs.filter (fun q => q.obj != j.toNat)
        ∧ t.objS j.toNat = { s.objS j.toNat with lost := true }
        ∧ (∀ b, b ≠ R.CANB_cTXCAN n → t.word b = s.word b) ∧ kept t)
      ∧ (r.attempt ≠ none → Answers (.canTxCancel p c j) s fun t =>
        (t.canCh n).reqs = x.reqs.map (fun q => if q.obj = j.toNat then { q with cancel := true } else q)
        ∧ t.can.obj = s.can.obj ∧ (∀ b, b ≠ R.CANB_cTXCAN n → t.word b = s.word b) ∧ kept t))
    ∧ (∀ (cyc : Nat) (r : CanReq), s.canMaySend n = true → (∀ q ∈ x.reqs, q.attempt = none) →
        s.nextReq n = some r → clean r.obj →
      (word s r.obj 9 = carryWord ((words r.obj).take 9) → Answers (.canTxAttempt c cyc) s fun t =>
        (t.canCh n).reqs = x.reqs.map
          (fun q => if q.obj = r.obj then { q with attempt := some (s.tick.toNat * 60000 + cyc) } else q)
        ∧ t.can.obj = s.can.obj ∧ t.regs = s.regs ∧ kept t)
      ∧ (bitsOf (word s r.obj 9) 63 56 ≠ 0x5C → Answers (.canTxAttempt c cyc) s fun t =>
        (t.canCh n).reqs = x.reqs.filter (fun q => q.obj != r.obj) ∧ (t.objS r.obj).lost = true
        ∧ t.rd (R.CANB_cCNTC_EXITF n) = min 255 (s.rd (R.CANB_cCNTC_EXITF n) + 1) ∧ kept t))
    ∧ (∀ r : CanReq, x.stopping = false → x.reqs.find? (fun q => q.attempt.isSome) = some r →
      let o := s.objS r.obj
      Answers (.canTxComplete c true) s (fun t =>
        (t.canCh n).reqs = x.reqs.filter (fun q => q.obj != r.obj) ∧ (t.canCh n).tec = x.tec - 1
        ∧ t.objS r.obj = { o with seq := (o.seq + 1) % 256, nd := true }
        ∧ t.rd (R.CANB_cCNTA_TXOK n) = min 65535 (s.rd (R.CANB_cCNTA_TXOK n) + 1) ∧ kept t)
      ∧ (r.cancel = false → Answers (.canTxComplete c false) s fun t =>
        (t.canCh n).reqs = x.reqs.map (fun q => if q.obj = r.obj then { q with attempt := none } else q)
        ∧ t.regs = s.regs ∧ t.can.obj = s.can.obj ∧ kept t))
    -- errors and bus-off
    ∧ (∀ e : CanErr, on → s.isStandby = false → x.stopping = false →
      let f := if e.kind = .crc then R.CANB_cCNTB_CRCERR n else R.CANB_cCNTB_OTHERR n
      let passive := 127 < x.tec ∨ 127 < x.rcv
      let step := if e.kind = .stuffArb ∨ (e.kind = .ackPassive ∧ passive) then 0 else 8
      (e.tx = false → Answers (.canBusError c e) s fun t =>
        (t.canCh n).rcv = min 255 (x.rcv + if e.heavy then 8 else 1) ∧ t.rd f = min 255 (s.rd f + 1) ∧ kept t)
      ∧ (e.tx = true → x.tec + step ≤ 255 → Answers (.canBusError c e) s fun t =>
        (t.canCh n).tec = x.tec + step ∧ t.rd f = min 255 (s.rd f + 1) ∧ t.rd (R.CANB_cSTAT_STATE n) < 2 ∧ kept t
        ∧ (127 < x.tec + step → t.rd (R.CANB_cSTAT_STATE n) = 1))
      ∧ (e.tx = true → 255 < x.tec + step → Answers (.canBusError c e) s fun t =>
        t.rd (R.CANB_cSTAT_STATE n) = 2 ∧ t.rd (R.CANB_cCNTC_BOFF n) = min 255 (s.rd (R.CANB_cCNTC_BOFF n) + 1)
        ∧ told t 6 (120 + 2 * n) ∧ kept t))
    ∧ (∀ e : CanErr, s.isStandby = true → exec (.canBusError c e) s = .next (s.capture s.cycle (.canError c e)))
    ∧ (∀ k : Nat, s.onSnapshot = true → exec (.busOffRecovery c k) s = .next s)
    ∧ (∀ k : Nat, state = 2 → s.rd (R.CANB_cCTRL_HOLD n) = 0 → s.onSnapshot = false →
      (x.count + k < 128 → exec (.busOffRecovery c k) s = .next (s.setCh n { x with count := x.count + k }))
      ∧ (128 ≤ x.count + k → Answers (.busOffRecovery c k) s fun t =>
        t.rd (R.CANB_cSTAT_STATE n) = 0 ∧ (t.canCh n).tec = 0 ∧ (t.canCh n).rcv = 0 ∧ (t.canCh n).reqs = x.reqs
        ∧ t.rd (R.CANB_cBODUR_DUR n) = (s.tick.toNat - x.boffAt) % 2 ^ 32 ∧ kept t))
    ∧ (state = 2 → s.serves p = true → Answers (.canRecov p c) s fun t =>
        t.canCh n = { x with recov := true } ∧ t.rd (R.CANB_cSTAT_HELD n) = 0 ∧ kept t)
    -- stations
    ∧ (∀ k : Fin 64, s.cycle = 0 → run = 1 → s.rd (R.CANB_cSTAs_USED n k.val) = 1 →
      (s.rd (dropBit n k.val) = 0 → s.stationSilent n k.val = true → Answers (.stationDropout c k) s fun t =>
        t.rd (dropBit n k.val) = 1 ∧ t.rd (R.CANB_cEVC_DROPE n) = 1 ∧ told t 1 (121 + 2 * n) ∧ told t 6 (121 + 2 * n) ∧ kept t)
      ∧ (s.rd (dropBit n k.val) = 0 → s.stationSilent n k.val = false → exec (.stationDropout c k) s = .next s)
      ∧ (s.rd (dropBit n k.val) = 1 → 1 ≤ NMap.get 0 x.seen k.val → NMap.get 0 x.seen k.val ≤ s.tick.toNat → Answers (.stationReturn c k) s fun t =>
        t.rd (dropBit n k.val) = 0 ∧ t.rd (R.CANB_cEVC_RETE n) = 1 ∧ told t 1 (121 + 2 * n) ∧ t.can = s.can ∧ kept t)
      ∧ (s.tick.toNat < NMap.get 0 x.seen k.val → exec (.stationReturn c k) s = .next s))
    -- seals
    ∧ (s.serves p = true → run = 0 → s.rd (R.CANB_cSEAL_BUSY n) = 0 → Answers (.canChannelSeal p c) s fun t =>
        t.rd (R.CANB_cSEAL_BUSY n) = 1 ∧ t.canCh n = { x with sealBy := some (s.dutyOf p.core.val) } ∧ kept t)
    ∧ (s.serves p = true → run = 1 → Answers (.canChannelSeal p c) s fun t =>
        t.can = s.can ∧ t.word (R.CANB_cSEAL n) = s.word (R.CANB_cSEAL n) ∧ t.rd (R.CANB_cEVC_SEALR n) = 1 ∧ kept t)
    ∧ (run = 0 → s.rd (R.CANB_cSEAL_BUSY n) = 1 → s.rd (R.CANB_cCTRL_EN n) = 0 → Answers (.canChannelSealComplete c) s fun t =>
        let r := { s with coll := s.sealing, sealing := s.coll }.canCheck n
        t.rd (R.CANB_cSEAL_ERR n) = r.1 ∧ t.rd (R.CANB_cSEAL_BUSY n) = 0 ∧ kept t ∧ told t 6 (120 + 2 * n)
        ∧ (r.1 = 0 → t.rd (R.CANB_cSEAL_SEALED n) = 1 ∧ (t.canCh n).table = r.2.1)
        ∧ (r.1 ≠ 0 → t.rd (R.CANB_cSEAL_SEALED n) = s.rd (R.CANB_cSEAL_SEALED n) ∧ (t.canCh n).table = x.table))
    ∧ (run = 1 → state = 3 → x.integrated = false → s.onSnapshot = false → Answers (.busIntegrationComplete c) s fun t =>
        t.rd (R.CANB_cSTAT_STATE n) = 0 ∧ t.canCh n = { x with integrated := true } ∧ kept t)
/-- Metering (R375 to R405): modulator faults, the update of a group's samples from the bits of its inputs and of a calculator's volume,
the energy and summary registers as read, saves, restores and zeroing, pulses, posts, commits and seals. -/
def Obligations.MeteringCommands : Prop :=
  ∀ (s : State) (p : Port), s.evIn = [] →
    let kept (t : State) : Prop := t.mem = s.mem ∧ t.cores = s.cores
    let told (t : State) (part e : Nat) : Prop :=
      ∀ y, y < 16 → y ∈ s.dutiesOf part → s.isTarget y = true → ⟨s.now + 2, y, e⟩ ∈ t.evIn
    let run := s.rd R.METR_STAT_RUN
    let en := s.rd R.METR_CTRL_EN
    let settled := s.isStandby = false ∧ ∀ w ∈ s.wrote, w.t ≠ 60000 * s.tick.toNat + 2000
    -- modulator faults
    (∀ (k : Fin 32) (clk : Fin 1000), s.onSnapshot = false → s.inFault k.val = false → Answers (.modulatorFault k clk) s fun t =>
        t.inFault k.val = true ∧ (t.rd R.METR_MODF_MODF).testBit k.val = true ∧ kept t
        ∧ (∀ g, g < 4 → s.feeds g k.val = true →
            t.rd (R.METR_GgSTAT_INF g) = 1 ∧ t.rd (R.METR_GgEVC_MODFE g) = 1 ∧ told t 5 (152 + g)))
    ∧ (∀ (k : Fin 32) (clk : Fin 1000), s.onSnapshot = false → s.inFault k.val = true → Answers (.modulatorFaultEnd k clk) s fun t =>
        t.inFault k.val = false ∧ (t.faultsOf k.val).length = (s.faultsOf k.val).length ∧ kept t)
    ∧ (∀ (k : Fin 32) (clk : Fin 1000), s.onSnapshot = true →
        let same (t : State) : Prop := t.metr.fault = s.metr.fault ∧ t.regs = s.regs ∧ t.evIn = [] ∧ kept t
        Answers (.modulatorFault k clk) s same ∧ Answers (.modulatorFaultEnd k clk) s same)
    -- the update
    ∧ (∀ x, settled → en = 0 → Answers (.meteringUpdate x) s fun t =>
        t.rd R.METR_STAT_RUN = 0 ∧ t.metr.reg = s.metr.reg ∧ t.cycle = 2000 ∧ kept t)
    ∧ (∀ (x : List Nat) (g : Fin 4) (b c : Nat → Nat), settled → en = 1 → s.rd (R.METR_GgCTRL_EN g.val) = 1 →
        s.rd (R.METR_GgSTAT_RUN g.val) = 1 → s.rd (R.METR_GgSTAT_PEND g.val) = 0 →
        (∀ k, k < 7 → (NMap.get [] s.metr.stream (s.metrInput g.val k)).take 2 = [b k, c k]) → Answers (.meteringUpdate x) s fun t =>
        let raw (k : Nat) : Int :=
          let inp := s.metrInput g.val k
          if s.sampleVoid inp then 0
          else sinc3 (filterBits (s.rd (R.METR_GgCFG_MDLY (s.groupOf inp))) (c k) (b k) (x.getD inp 0))
        let sample (k : Nat) : Int :=
          nearest 32 (halfUp (s.rdI (R.METR_GgCHk_GAIN_GAIN g.val k) * (raw k - s.rdI (R.METR_GgCHk_OFF_OFF g.val k)))
            (26 + s.rd (R.METR_GgCHk_GAIN_GSH g.val k)))
        (t.grpS g.val).hist = ((List.range 7).map sample :: (s.grpS g.val).hist).take 127 ∧ kept t)
    ∧ (∀ mdly n : Nat, mdly < 60 → n < 2998 →
        let bits (c b a : Nat) := filterBits mdly c b a
        (∀ c b a, (bits c b a).length = 2998 ∧ (bits c b a)[2997]? = some (a.testBit (59940 + mdly))
          ∧ (bits c b a)[n]? = some (([c, b, a].getD ((n + 2) / 1000) 0).testBit (60 * ((n + 2) % 1000) + mdly))))
    ∧ (∀ (x : List Nat) (c : Fin 8), settled → en = 1 → (∀ g, g < 4 → s.rd (R.METR_GgCTRL_EN g) = 0) →
        (∀ d, d < 8 → s.rd (R.METR_TCc_CTRL_EN d) = if d = c.val then 1 else 0) → s.rd (R.METR_TCc_STAT_RUN c.val) = 1 →
        s.rd (R.METR_TCc_CFG_FSRC c.val) = 0 →
        let pin := s.rd (R.METR_TCc_SRC_PIN c.val)
        let n := (NMap.get 0 s.metr.cnt1 pin + 2 ^ 32 - NMap.get 0 s.metr.cnt0 pin) % 2 ^ 32
        let back := s.metr.din.testBit (s.rd (R.METR_TCc_SRC_DIN c.val)) != s.rdBit (R.METR_TCc_CFG_DIRINV c.val)
        let i := 132 + 8 * c.val + if back then 1 else 0
        Answers (.meteringUpdate x) s fun t =>
          t.energy i = (s.energy i
            + (NMap.get 0 s.metr.rem i + s.rd (R.METR_TCc_KVOL_KVOL c.val) * n * 10 ^ 7 * 2 ^ 24) / 10 ^ 7) % 2 ^ 96 ∧ kept t)
    -- readings
    ∧ (∀ i : Fin 192, s.serves p = true → Answers (.energyRegisterRead p i) s fun t =>
        t.readData = BitVec.ofNat 64 (s.energy i.val / 2 ^ 32)
        ∧ (t.core p.core.val).efrac = BitVec.ofNat 32 (s.energy i.val)
        ∧ (t.core p.core.val).w = (s.core p.core.val).w ∧ t.metr = s.metr ∧ t.regs = s.regs ∧ t.mem = s.mem)
    ∧ (∀ i : Fin 192, s.serves p = true → Answers (.summaryRead p i) s fun t =>
        t.readData = BitVec.ofNat 64 (bitsOf (s.energy i.val) 87 48 + if s.doubleWrap i.val then 2 ^ 40 else 0)
        ∧ NMap.get 0 t.metr.ack i.val = bitsOf (s.energy i.val) 87 48 ∧ t.rd (R.METR_SUMi_DW i.val) = 0
        ∧ t.metr.reg = s.metr.reg ∧ kept t)
    -- saves
    ∧ (run = 1 → s.rd R.METR_CTRL_SAVEN = 1 → s.boundary 2 = true →
        let w := writeCopy s.saveChosen
        let a := 0x20000000 + s.rd R.METR_SBASE_SBASE + 0x1000 * w.1
        (s.rd R.METR_SVST_SBUSY = 0 → Answers .meteringSave s fun t =>
          t.rd R.METR_SVST_SBUSY = 1 ∧ t.metr.save = some (a, w.2, s.saveImage w.2) ∧ memRead t.mem (a + 8 * 424 + 7) 1 = 0
          ∧ s.sameBut t (a + 8 * 424 + 7) 1 ∧ t.cores = s.cores)
        ∧ (s.rd R.METR_SVST_SBUSY = 1 → Answers .meteringSave s fun t =>
          t.rd R.METR_SVST_SKIP = min 255 (s.rd R.METR_SVST_SKIP + 1) ∧ t.metr = s.metr ∧ kept t))
    ∧ (∀ a gen ws, s.metr.save = some (a, gen, ws) → gen < 2 ^ 32 →
        Answers (.meteringSaveComplete true) s (fun t =>
          (List.range ws.length).map (fun j => memRead t.mem (a + 8 * j) 8) = ws.map (· % 2 ^ 64)
          ∧ memRead t.mem (a + 8 * ws.length) 8 = carryWord ws ∧ s.sameBut t a (8 * ws.length + 8)
          ∧ t.rd R.METR_SVST_SBUSY = 0 ∧ t.rd R.METR_SVST_SFAIL = 0 ∧ t.rd R.METR_SVGEN_GEN = gen ∧ t.metr.save = none
          ∧ told t 5 165)
        ∧ Answers (.meteringSaveComplete false) s (fun t =>
          t.rd R.METR_SVST_SBUSY = 0 ∧ t.rd R.METR_SVST_SFAIL = 1 ∧ t.metr.save = none ∧ kept t ∧ told t 5 165))
    ∧ (s.serves p = true → en = 0 → s.rd R.METR_STAT_RBUSY = 0 →
        let asked (op : Nat) (t : State) : Prop :=
          t.rd R.METR_STAT_RBUSY = 1 ∧ t.metr.op = some (op, s.dutyOf p.core.val)
            ∧ t.metr.opArea = 0x20000000 + s.rd R.METR_SBASE_SBASE ∧ t.metr.reg = s.metr.reg ∧ kept t
        Answers (.meteringRestore p) s (asked 1) ∧ Answers (.meteringZero p) s (asked 2))
    ∧ (s.serves p = true → (en = 1 ∨ s.rd R.METR_STAT_RBUSY = 1) →
        let refused (t : State) : Prop := t.rd R.METR_STAT_RSTAT = 4 ∧ t.metr = s.metr ∧ kept t
        Answers (.meteringRestore p) s refused ∧ Answers (.meteringZero p) s refused)
    ∧ (∀ d, s.metr.op = some (2, d) → Answers .restoreOrZeroComplete s fun t =>
        (∀ i, i < 192 → t.energy i = 0 ∧ t.doubleWrap i = false) ∧ (∀ o, o < 16 → (t.poS o).owed = 0 ∧ (t.poS o).r = 0)
        ∧ t.rd R.METR_STAT_RSTAT = 3 ∧ t.rd R.METR_STAT_RBUSY = 0 ∧ t.metr.op = none ∧ kept t)
    ∧ (∀ d, s.metr.op = some (1, d) → s.savedAt s.metr.opArea = none → Answers .restoreOrZeroComplete s fun t =>
        t.rd R.METR_STAT_RSTAT = 2 ∧ t.rd R.METR_STAT_RBUSY = 0 ∧ t.metr.reg = s.metr.reg ∧ t.metr.op = none ∧ kept t)
    ∧ (∀ d k g, s.metr.op = some (1, d) → s.savedAt s.metr.opArea = some (k, g) → Answers .restoreOrZeroComplete s fun t =>
        let a := s.metr.opArea + 0x1000 * k
        (∀ i, i < 192 → t.energy i = memRead s.mem (a + 64 + 16 * i) 8 + 2 ^ 64 * memRead s.mem (a + 72 + 16 * i) 4)
        ∧ (∀ o, o < 16 → (t.poS o).owed = memRead s.mem (a + 3148 + 16 * o) 4)
        ∧ t.rd R.METR_STAT_RSTAT = 1 ∧ t.rd R.METR_STAT_RBUSY = 0 ∧ t.metr.restored = true ∧ kept t)
    -- pulse outputs
    ∧ (∀ (o : Fin 16) (ten : Fin 10000),
        let x := s.poS o.val
        let now := 10000 * s.tick.toNat + ten.val
        let w := s.pulseWidth o.val x.inc
        (s.poRun o.val = true → x.owed ≠ 0 → x.due ≤ now → (x.start = 0 ∨ x.start - 1 + 2 * w ≤ now) →
          let held := s.forcedPo o.val || s.gated
          let late := decide (x.due < now)
          let supp := s.rd (R.METR_POo_STAT_SUPP o.val)
          Answers (.pulseOutputStart o ten) s fun t =>
          (t.poS o.val).on = (!held) ∧ (t.poS o.val).owed = x.owed - 1 ∧ (t.poS o.val).width = w ∧ (t.poS o.val).start = now + 1
          ∧ t.rd (R.METR_POo_STAT_OWED o.val) = min 65535 (x.owed - 1)
          ∧ t.rd (R.METR_POo_STAT_DEFER o.val)
              = (if late then min 255 (s.rd (R.METR_POo_STAT_DEFER o.val) + 1) else s.rd (R.METR_POo_STAT_DEFER o.val))
          ∧ t.rd (R.METR_POo_STAT_SUPP o.val) = (if held then min 255 (supp + 1) else supp)
          ∧ (((late = true ∧ x.deferred = false) ∨ (held = true ∧ supp = 0)) → told t 5 164)
          ∧ t.metr.reg = s.metr.reg ∧ kept t)
        ∧ ((x.owed = 0 ∨ now < x.due ∨ s.poRun o.val = false ∨ (x.start ≠ 0 ∧ now < x.start - 1 + 2 * w)) →
          exec (.pulseOutputStart o ten) s = .next s)
        ∧ (let ends := x.start - 1 + x.width
          (x.on = true → ends < 10000 * (s.tick.toNat + 1) → Answers (.pulseOutputEnd o) s (fun t =>
            t.poS o.val = { x with on := false } ∧ (∀ q, q ≠ o.val → t.poS q = s.poS q) ∧ t.poDriven o.val = false
            ∧ t.cycle = max s.cycle (6 * (ends - 10000 * s.tick.toNat)) ∧ t.metr.reg = s.metr.reg ∧ kept t))
          ∧ ((x.on = false ∨ 10000 * (s.tick.toNat + 1) ≤ ends) → exec (.pulseOutputEnd o) s = .next s)))
    -- posts, commits, seals
    ∧ (run = 1 → s.tick.toNat % 10 = 9 → s.rd R.METR_PBASE_PBASE + 256 ≤ 262144 →
        s.rd (R.TIER_SRCs_STAT_USED 21) + 2056 ≤ 4096 → Answers .meteringPost s fun t =>
        t.staged 21 = s.staged 21 ++ [⟨s.rd R.METR_PBASE_PBASE, s.meterWords, false⟩] ∧ s.meterWords.length = 256
        ∧ t.metr = s.metr ∧ t.cycle = 56000 ∧ kept t)
    ∧ ((run = 0 ∨ s.tick.toNat % 10 ≠ 9) → exec .meteringPost s = .next s)
    ∧ (∀ g : Fin 4, s.serves p = true → Answers (.groupCommit p g) s fun t =>
        t.rd (R.METR_GgSTAT_PEND g.val) = 1 ∧ t.metr = s.metr ∧ kept t
        ∧ ∀ a, a ≠ R.METR_GgSTAT g.val → t.word a = s.word a)
    ∧ (∀ u : MeterUnit, s.serves p = true →
        let err : FieldRef := match u with
          | .block => R.METR_SEAL_ERR
          | .group g => R.METR_GgSEAL_ERR g.val
          | .calc c => R.METR_TCc_SEAL_ERR c.val
          | .output o => R.METR_POo_SEAL_ERR o.val
        (s.unitRuns u = false → Answers (.meteringSeal p u) s fun t =>
          t.rd err = s.unitCode u ∧ (s.unitCode u = 0 → t.evIn = []) ∧ t.metr = s.metr ∧ kept t)
        ∧ (s.unitRuns u = true → Answers (.meteringSeal p u) s fun t =>
          t.rd err = s.rd err ∧ t.coll = s.coll ∧ t.metr = s.metr ∧ kept t))

/-- The analogue inputs (R406 to R421): conversions, which a standby keeps, urgent requests, of which the lower core's is taken where
two meet, tracker resets, calibration captures, computes and commits, stores and loads of the coefficients, the seal and the post. -/
def Obligations.AnalogueInputCommands : Prop :=
  ∀ (s : State) (p : Port), s.evIn = [] →
    let kept (t : State) : Prop := t.mem = s.mem ∧ t.cores = s.cores
    let run := s.rd R.ADCS_STAT_RUN
    let busy := s.rd R.ADCS_STAT_LBUSY
    let now (cyc : Nat) := 60000 * s.tick.toNat + cyc
    let told (t : State) (cyc d e : Nat) : Prop := d < 16 → s.isTarget d = true → ⟨now cyc + 2, d, e⟩ ∈ t.evIn
    let own := s.dutyOf p.core.val
    -- conversions
    let coef (ch : Nat) : Int × Int :=
      let e := 2 * ch + s.rd (R.ADCS_CHn_CFG_RANGE ch)
      if ch < 48 then (s.rdI (R.ADCS_CALe_GAIN_GAIN e), s.rdI (R.ADCS_CALe_ZOFF_ZOFF e)) else s.adcCoef ch
    let fresh (ch : Nat) : Int × Int :=
      let e := 2 * ch + s.rd (R.ADCS_CHn_CFG_RANGE ch)
      (signedOf 32 (s.rdShadow (R.ADCS_CALe_GAIN_GAIN e)), signedOf 32 (s.rdShadow (R.ADCS_CALe_ZOFF_ZOFF e)))
    let result (c : Int × Int) (code : BitVec 18) : Int := nearest 32 (halfUp (c.1 * (256 * code.toInt - c.2)) 24)
    let lands (k ch cyc : Nat) : Prop := s.isStandby = false ∧ s.adcs.held = none ∧ (∀ w ∈ s.wrote, w.t ≠ now cyc)
      ∧ (k = 1 → (s.setCycle cyc).endsOnZero ch = false)
    let taken (t : State) (ch cyc : Nat) (v : Int) : Prop :=
      let lim := (s.setCycle cyc).windowOf ch
      (s.adcs.winOld = [] → lim = (s.rdI (R.ADCS_WINn_LO_LO ch), s.rdI (R.ADCS_WINn_HI_HI ch)))
      ∧ t.rdI (R.ADCS_ACCn_SUM ch) = signedOf 48 (patternOf 48 (s.rdI (R.ADCS_ACCn_SUM ch) + v))
      ∧ t.rd (R.ADCS_ACCn_COUNT ch) = (s.rd (R.ADCS_ACCn_COUNT ch) + 1) % 65536
      ∧ t.rdI (R.ADCS_MMn_MIN ch) = min (s.rdI (R.ADCS_MMn_MIN ch)) v
      ∧ t.rdI (R.ADCS_MMn_MAX ch) = max (s.rdI (R.ADCS_MMn_MAX ch)) v
      ∧ (v < lim.1 → NMap.get 0 s.adcs.win ch ≠ 1 → t.rd (chanBit R.ADCS_WINL R.ADCS_WINH ch) = 1)
      ∧ (lim.1 ≤ v → lim.2 < v → NMap.get 0 s.adcs.win ch ≠ 2 → t.rd (chanBit R.ADCS_WINL R.ADCS_WINH ch) = 1)
      ∧ (lim.1 ≤ v → v ≤ lim.2 → NMap.get 0 t.adcs.win ch = 0
          ∧ t.word R.ADCS_WINL = s.word R.ADCS_WINL ∧ t.word R.ADCS_WINH = s.word R.ADCS_WINH)
      ∧ kept t
    (∀ (k : Fin 2) (code : BitVec 18) (ch : Nat), run = 1 → ch < 60 →
        (s.ownList k.val)[NMap.get 0 s.adcs.done k.val]? = some ch →
      let cyc := 1800 + 600 * NMap.get 0 s.adcs.done k.val
      let done (v : Int) (t : State) : Prop :=
        taken t ch cyc v ∧ NMap.get 0 t.adcs.done k.val = NMap.get 0 s.adcs.done k.val + 1
        ∧ ∀ x, s.adcs.cap = some x → t.adcs.cap = some (if x.ch = ch ∧ x.left ≠ 0 then
            { x with left := x.left - 1, sum := x.sum + code.toInt } else x)
      (lands k.val ch cyc → NMap.get 0 s.adcs.commit ch = 0 →
          Answers (.adcConversionEnd k false code) s (done (result (coef ch) code)))
      ∧ (∀ w, lands k.val ch cyc → ch < 48 → NMap.get 0 s.adcs.commit ch = w + 1 → w + 600 < now cyc →
          Answers (.adcConversionEnd k false code) s fun t =>
            done (result (fresh ch) code) t ∧ NMap.get 0 t.adcs.commit ch = 0
            ∧ ∀ e, e = 2 * ch ∨ e = 2 * ch + 1 →
              t.rd (R.ADCS_CALe_GAIN_GAIN e) = s.rdShadow (R.ADCS_CALe_GAIN_GAIN e)
              ∧ t.rd (R.ADCS_CALe_ZOFF_ZOFF e) = s.rdShadow (R.ADCS_CALe_ZOFF_ZOFF e))
      ∧ (s.isStandby = true → Answers (.adcConversionEnd k false code) s fun t =>
          t.pair.locals.getLast? = some ⟨s.tick.toNat + 1, cyc,
            .conversion (Fin.ofNat 60 ch) (BitVec.ofInt 32 (result (coef ch) code)) code none⟩
          ∧ NMap.get 0 t.adcs.done k.val = NMap.get 0 s.adcs.done k.val + 1 ∧ t.regs = s.regs ∧ kept t))
    ∧ (∀ (k : Fin 2) (code : BitVec 18) (ch d cyc : Nat), run = 1 → ch < 60 →
        NMap.get none s.adcs.urg k.val = some (ch, d, cyc) →
        (lands k.val ch cyc → NMap.get 0 s.adcs.commit ch = 0 → Answers (.adcConversionEnd k true code) s fun t =>
          taken t ch cyc (result (coef ch) code) ∧ NMap.get none t.adcs.urg k.val = none ∧ t.adcs.cap = s.adcs.cap
          ∧ told t cyc d 171)
        ∧ (s.isStandby = true → Answers (.adcConversionEnd k true code) s fun t =>
          t.pair.locals.getLast? = some ⟨s.tick.toNat + 1, cyc,
            .conversion (Fin.ofNat 60 ch) (BitVec.ofInt 32 (result (coef ch) code)) code (some (Fin.ofNat 16 d))⟩
          ∧ NMap.get none t.adcs.urg k.val = none ∧ t.regs = s.regs ∧ t.evIn = [] ∧ kept t))
    ∧ (∀ (k : Fin 2) (u : Bool) (code : BitVec 18), run = 0 → exec (.adcConversionEnd k u code) s = .next s)
    -- urgent requests
    ∧ (∀ (ch : BitVec 6) (conv : Fin 2), s.serves p = true →
        let n := ch.toNat
        let k := if n < 48 then n % 2 else conv.val
        let able := run = 1 ∧ n < 60 ∧ s.rd (R.ADCS_CHn_CFG_EN n) = 1
        let busy' := (s.setCycle p.cyc).adcBusy k p.cyc
        let meets (x : Nat × Nat × Nat) : Prop :=
          NMap.get none s.adcs.urg k = some x ∧ x.2.2 = p.cyc + 1800 ∧ p.core.val < s.physOf x.2.1
        let rest (t : State) : Prop := (∀ b, b ≠ R.ADCS_URG → b ≠ R.ADCS_URGST → t.word b = s.word b) ∧ kept t
        let started (t : State) : Prop := NMap.get none t.adcs.urg k = some (n, own, p.cyc + 1800)
        (s.onSnapshot = false → able → busy' = false → p.cyc < 58200 → Answers (.urgentRequest p ch conv) s fun t =>
          started t ∧ t.rd R.ADCS_URGST_DROP = s.rd R.ADCS_URGST_DROP ∧ t.evIn = [] ∧ rest t)
        ∧ (s.onSnapshot = false → able → busy' = false → 58200 ≤ p.cyc → Answers (.urgentRequest p ch conv) s fun t =>
          t.rd R.ADCS_URGST_LATE = min 255 (s.rd R.ADCS_URGST_LATE + 1) ∧ t.adcs = s.adcs ∧ rest t ∧ told t p.cyc own 170)
        ∧ (∀ x, s.onSnapshot = false → able → meets x → Answers (.urgentRequest p ch conv) s fun t =>
          started t ∧ t.rd R.ADCS_URGST_DROP = min 65535 (s.rd R.ADCS_URGST_DROP + 1) ∧ rest t ∧ told t p.cyc x.2.1 170)
        ∧ (s.onSnapshot = false → (¬able ∨ (busy' = true ∧ ∀ x, ¬meets x)) → Answers (.urgentRequest p ch conv) s fun t =>
          t.rd R.ADCS_URGST_DROP = min 65535 (s.rd R.ADCS_URGST_DROP + 1) ∧ t.adcs = s.adcs ∧ rest t ∧ told t p.cyc own 170)
        ∧ (s.onSnapshot = true → Answers (.urgentRequest p ch conv) s fun t =>
          t.adcs = s.adcs ∧ t.rd R.ADCS_URGST_DROP = s.rd R.ADCS_URGST_DROP ∧ t.evIn = [] ∧ rest t))
    ∧ (∀ (high : Bool) (v : Word), s.serves p = true → Answers (.trackerReset p high v) s fun t =>
        (∀ b : Fin 32, let ch := b.val + if high then 32 else 0
          ch < 60 → if v.toNat.testBit b.val
            then t.rdI (R.ADCS_MMn_MIN ch) = 2 ^ 31 - 1 ∧ t.rdI (R.ADCS_MMn_MAX ch) = -2 ^ 31
            else t.rd (R.ADCS_MMn_MIN ch) = s.rd (R.ADCS_MMn_MIN ch) ∧ t.rd (R.ADCS_MMn_MAX ch) = s.rd (R.ADCS_MMn_MAX ch))
        ∧ t.adcs = s.adcs ∧ kept t)
    -- calibration
    ∧ (∀ (ch : BitVec 6) (r : BitVec 1) (nlog : BitVec 5), s.serves p = true →
        let n := ch.toNat
        let ready := n < 48 ∧ run = 1 ∧ s.rd (R.ADCS_CHn_CFG_EN n) = 1 ∧ s.listed n = true
          ∧ r.toNat = s.rd (R.ADCS_CHn_CFG_RANGE n) ∧ s.rd R.ADCS_CALST_BUSY = 0
        let begun (op : Nat) (t : State) : Prop :=
          t.adcs.cap = some ⟨n, r.toNat, op, nlog.toNat, 2 ^ nlog.toNat, 0, s.rdI R.ADCS_CALREF_REF, own⟩
          ∧ t.rd R.ADCS_CALST_BUSY = 1 ∧ t.rd R.ADCS_CALST_ERR = 0 ∧ t.evIn = [] ∧ kept t
        let failed (code : Nat) (t : State) : Prop :=
          t.rd R.ADCS_CALST_ERR = code ∧ t.adcs = s.adcs ∧ t.shadow = s.shadow ∧ kept t ∧ told t p.cyc own 173
        -- commits whose conversions have started are taken before a compute or a commit
        let u := (s.setCycle p.cyc).settleCommits
        let failedOn (code : Nat) (t : State) : Prop :=
          t.rd R.ADCS_CALST_ERR = code ∧ t.adcs = u.adcs ∧ t.shadow = s.shadow ∧ kept t ∧ told t p.cyc own 173
        (ready → 4 ≤ nlog.toNat → nlog.toNat ≤ 16 →
          Answers (.calCaptureZero p ch r nlog) s (begun 1) ∧ Answers (.calCaptureFullScale p ch r nlog) s (begun 2))
        ∧ (48 ≤ n ∨ nlog.toNat < 4 ∨ 16 < nlog.toNat →
          Answers (.calCaptureZero p ch r nlog) s (failed 1) ∧ Answers (.calCaptureFullScale p ch r nlog) s (failed 1))
        ∧ (48 ≤ n → Answers (.calCompute p ch r) s (failedOn 1) ∧ Answers (.calCommit p ch) s (failedOn 1))
        ∧ (∀ z f : Int × Int, ready → s.adcs.pts = some ⟨n, r.toNat, some z, some f⟩ →
          let d := f.2 - z.2
          let gain := Int.fdiv (2 * (2 ^ 24 * (f.1 - z.1)) + d) (2 * d)
          let zoff := z.2 - Int.fdiv (2 * (2 ^ 24 * z.1) + gain) (2 * gain)
          let nominal : Int := if n < 32 then (if r = 0 then 0x4E2000 else 0xBB8000) else if r = 0 then 0x32000 else 0x1F4000
          let near := 95 * nominal ≤ 100 * gain ∧ 100 * gain ≤ 105 * nominal
          let wide := (if n < 32 then 2 ^ 24 else 2 ^ 23) ≤ d.natAbs
          (wide → near → Answers (.calCompute p ch r) s fun t =>
            t.rdShadow (R.ADCS_CALe_GAIN_GAIN (2 * n + r.toNat)) = patternOf 32 gain
            ∧ t.rdShadow (R.ADCS_CALe_ZOFF_ZOFF (2 * n + r.toNat)) = patternOf 32 zoff
            ∧ t.adcs.pts = none ∧ t.rd R.ADCS_CALST_ERR = 0
            ∧ (∀ e, e < 96 → t.rd (R.ADCS_CALe_GAIN_GAIN e) = u.rd (R.ADCS_CALe_GAIN_GAIN e)) ∧ kept t ∧ told t p.cyc own 172)
          ∧ (¬wide → Answers (.calCompute p ch r) s (failedOn 6)) ∧ (wide → ¬near → Answers (.calCompute p ch r) s (failedOn 7)))
        ∧ (n < 48 → Answers (.calCommit p ch) s fun t =>
          NMap.get 0 t.adcs.commit n = (if NMap.get 0 u.adcs.commit n = 0 then now p.cyc + 1 else NMap.get 0 u.adcs.commit n)
          ∧ t.rd R.ADCS_CALST_ERR = 0 ∧ (∀ b, b ≠ R.ADCS_CALST → b ≠ R.ADCS_CALCOMMIT → t.word b = u.word b)
          ∧ t.shadow = s.shadow ∧ t.evIn = [] ∧ kept t))
    ∧ (∀ x, s.adcs.cap = some x →
        (x.left = 0 → Answers .calCaptureComplete s fun t =>
          (∃ q, t.adcs.pts = some q ∧ (if x.op = 1 then q.zero else q.full) = some (x.ref, halfUp (256 * x.sum) x.nlog))
          ∧ t.adcs.cap = none ∧ t.rd R.ADCS_CALST_BUSY = 0 ∧ kept t ∧ told t s.cycle x.duty 172)
        ∧ (x.left ≠ 0 → exec .calCaptureComplete s = .next s))
    -- stores and loads of the coefficients
    ∧ (s.serves p = true →
        let area := 0x20000000 + s.rd R.ADCS_CBASE_CBASE
        let w := writeCopy (s.calChosen area)
        let a := area + 0x800 * w.1
        let failed (code : Nat) (t : State) : Prop := t.rd R.ADCS_CALST_ERR = code ∧ t.adcs = s.adcs ∧ kept t ∧ told t p.cyc own 173
        (busy = 0 → Answers (.calStore p) s fun t =>
          t.rd R.ADCS_STAT_LBUSY = 1 ∧ t.adcs.op = some (1, own) ∧ t.adcs.opArea = area
          ∧ memRead t.mem (a + 1607) 1 = 0 ∧ s.sameBut t (a + 1607) 1
          ∧ t.cores = s.cores)
        ∧ (busy = 0 → run = 0 → Answers (.calLoad p) s fun t =>
          t.rd R.ADCS_STAT_LBUSY = 1 ∧ t.adcs.op = some (2, own) ∧ t.adcs.opArea = area ∧ t.shadow = s.shadow ∧ kept t)
        ∧ (busy = 0 → run = 1 → Answers (.calLoad p) s (failed 10))
        ∧ (busy = 1 → Answers (.calStore p) s (failed 4) ∧ Answers (.calLoad p) s (failed 4)))
    ∧ (∀ d,
        let area := s.adcs.opArea
        let ended (code : Nat) (t : State) : Prop :=
          t.rd R.ADCS_STAT_LBUSY = 0 ∧ t.rd R.ADCS_CALST_ERR = code ∧ t.adcs.op = none ∧ t.cores = s.cores
          ∧ told t s.cycle d (if code = 0 then 174 else 173)
        let loaded (t : State) (e : Nat) (g z fl : Nat) : Prop :=
          t.rd (R.ADCS_CALe_GAIN_GAIN e) = g ∧ t.rdShadow (R.ADCS_CALe_GAIN_GAIN e) = g
          ∧ t.rd (R.ADCS_CALe_ZOFF_ZOFF e) = z ∧ t.rdShadow (R.ADCS_CALe_ZOFF_ZOFF e) = z ∧ NMap.get 0 t.adcs.calFlag e = fl
        (s.adcs.op = some (1, d) →
          let w := writeCopy (s.calChosen area)
          let a := area + 0x800 * w.1
          Answers (.calStoreLoadComplete true) s (fun t => ended 0 t ∧ s.sameBut t a 1608
            ∧ memRead t.mem a 8 = (0x14143 + 2 ^ 32 * w.2) % 2 ^ 64
            ∧ (∀ e, e < 96 → memRead t.mem (a + 64 + 16 * e) 4 = s.settleCommits.rd (R.ADCS_CALe_GAIN_GAIN e)
              ∧ memRead t.mem (a + 68 + 16 * e) 4 = s.settleCommits.rd (R.ADCS_CALe_ZOFF_ZOFF e)))
          ∧ Answers (.calStoreLoadComplete false) s (fun t => ended 8 t ∧ t.mem = s.mem))
        ∧ (∀ ok, s.adcs.op = some (2, d) → s.calChosen area = none → Answers (.calStoreLoadComplete ok) s fun t =>
          ended 9 t ∧ t.rd R.ADCS_CALST_NOCAL = 1 ∧ t.mem = s.mem
          ∧ ∀ e, e < 96 → loaded t e (if e < 64 then (if e % 2 = 0 then 0x4E2000 else 0xBB8000)
              else if e % 2 = 0 then 0x32000 else 0x1F4000) 0 0)
        ∧ (∀ ok k g, s.adcs.op = some (2, d) → s.calChosen area = some (k, g) → Answers (.calStoreLoadComplete ok) s fun t =>
          let a := area + 0x800 * k
          ended 0 t ∧ t.rd R.ADCS_CALST_NOCAL = 0 ∧ t.mem = s.mem
          ∧ ∀ e, e < 96 → loaded t e (memRead s.mem (a + 64 + 16 * e) 4) (memRead s.mem (a + 68 + 16 * e) 4)
              (memRead s.mem (a + 78 + 16 * e) 1)))
    -- the seal and the post
    ∧ (∀ (n : Fin 60) (w : Word), s.serves p = true → run = 0 → s.coll = [(R.ADCS_CHn_CFG n.val, w)] →
        (s.adcCode = 0 → Answers (.adcSeal p) s fun t =>
          t.rd (R.ADCS_CHn_CFG_EN n.val) = w.toNat % 2 ∧ t.rd (R.ADCS_CHn_CFG_RANGE n.val) = w.toNat / 2 % 2
          ∧ t.coll = [] ∧ t.rd R.ADCS_SEAL_ERR = 0 ∧ t.evIn = [] ∧ kept t)
        ∧ (s.adcCode ≠ 0 → Answers (.adcSeal p) s fun t =>
          t.rd (R.ADCS_CHn_CFG_EN n.val) = s.rd (R.ADCS_CHn_CFG_EN n.val) ∧ t.coll = [] ∧ t.rd R.ADCS_SEAL_ERR = s.adcCode
          ∧ kept t ∧ told t p.cyc own 175))
    ∧ (s.serves p = true → run = 1 → Answers (.adcSeal p) s fun t => t.coll = s.coll ∧ t.adcs = s.adcs ∧ kept t ∧ told t p.cyc own 175)
    ∧ (s.adcs.pen = true → run = 1 → s.tick.toNat % 10 = 9 → s.rd R.ADCS_PBASE_PBASE + 128 ≤ 262144 →
        s.rd (R.TIER_SRCs_STAT_USED 23) + 1032 ≤ 4096 → Answers .adcPost s fun t =>
        t.staged 23 = s.staged 23 ++ [⟨s.rd R.ADCS_PBASE_PBASE, s.adcWords, false⟩] ∧ s.adcWords.length = 128
        ∧ t.adcs = s.adcs ∧ t.cycle = 57000 ∧ kept t)
    ∧ (s.adcs.pen = false ∨ run = 0 ∨ s.tick.toNat % 10 ≠ 9 → exec .adcPost s = .next s)

/-- The safety channel (R422 to R445): the readback of both switch nodes and the dark tests of its outputs, its monitors and faults,
the trip, arming and the seal, and Bextis: messages sent and copies received, paired, and missed; a standby keeps what reaches it. -/
def Obligations.SafetyChannelCommands : Prop :=
  ∀ (s : State) (p : Port), s.evIn = [] →
    let kept (t : State) : Prop := t.mem = s.mem ∧ t.cores = s.cores
    let now (cyc : Nat) := 60000 * s.tick.toNat + cyc
    let told (t : State) (cyc part e : Nat) : Prop :=
      ∀ y, y < 16 → y ∈ s.dutiesOf part → s.isTarget y = true → ⟨now cyc + 2, y, e⟩ ∈ t.evIn
    let state := s.rd R.SAFE_STAT_STATE
    let same (t : State) : Prop :=
      t.rd R.SAFE_STAT_STATE = state ∧ t.rd R.SAFE_STAT_LASTF = s.rd R.SAFE_STAT_LASTF ∧ t.rd R.SAFE_FCAUSE_F = s.rd R.SAFE_FCAUSE_F
    let faulted (t : State) (cyc k : Nat) : Prop :=
      t.rd R.SAFE_FCAUSE_F = s.rd R.SAFE_FCAUSE_F ||| 2 ^ k ∧ kept t
      ∧ (state ≠ 0 → t.rd R.SAFE_STAT_STATE = 0 ∧ t.rd R.SAFE_STAT_LASTF = k ∧ t.rd R.SAFE_GRLEFT_LEFT = 0
        ∧ t.safe.started = false ∧ t.safe.arming = false ∧ told t (cyc + 1) 8 176 ∧ told t (cyc + 1) 1 177 ∧ told t (cyc + 1) 7 177)
      ∧ (state = 0 → t.rd R.SAFE_STAT_STATE = 0 ∧ t.rd R.SAFE_STAT_LASTF = s.rd R.SAFE_STAT_LASTF)
    let mayProgram := s.partOf p.core.val = 8
    let foreign (t : State) : Prop :=
      t.rd R.SAFE_CNT_FOREIGN = min 65535 (s.rd R.SAFE_CNT_FOREIGN + 1) ∧ t.safe = s.safe ∧ t.coll = s.coll ∧ t.sent = s.sent
      ∧ same t ∧ kept t ∧ told t p.cyc 7 186
    -- readback and dark tests
    let on (o : Nat) : Bool := s.safeCmd.testBit o
    let seen (o : Nat) : Prop := on o = s.safe.cmd.testBit o
      ∧ (NMap.get 0 s.safe.changed o = 0 ∨ NMap.get 0 s.safe.changed o + s.rd R.SAFE_OTCFG_RBT ≤ s.tick.toNat + 1)
    (∀ rb : BitVec 16, s.isStandby = false →
        let load (o : Nat) : Bool := rb.getLsbD o && rb.getLsbD (8 + o)
        let shown (t : State) : Prop := ∀ o, o < 8 → (t.rd R.SAFE_OSTAT_RB).testBit o = load o
        ((∀ o, o < 8 → seen o ∧ load o = on o) → Answers (.outputReadback rb) s fun t =>
          shown t ∧ t.rd R.SAFE_OSTAT_OLOST = 0 ∧ t.safe.detected.testBit 5 = false ∧ same t ∧ t.cycle = 54500 ∧ kept t)
        ∧ (∀ q : Fin 8, (∀ o, o < 8 → seen o ∧ (load o = on o ↔ o ≠ q.val)) → on q.val = true →
          Answers (.outputReadback rb) s fun t => shown t ∧ t.rd R.SAFE_OSTAT_OLOST = 2 ^ q.val ∧ same t ∧ kept t
          ∧ (s.rd R.SAFE_OSTAT_OLOST = 0 → told t 54500 8 181 ∧ told t 54500 7 181))
        ∧ (∀ q : Fin 8, seen q.val → on q.val = false → load q.val = true → Answers (.outputReadback rb) s fun t =>
          shown t ∧ t.safe.detected.testBit 5 = true ∧ faulted t 54500 5))
    ∧ (∀ rb : BitVec 16, s.isStandby = true →
        exec (.outputReadback rb) s = .next ((s.setCycle 54500).capture 54500 (.safeBack rb)))
    ∧ (∀ (o : Fin 8) (off : Bool),
        let per := s.rd R.SAFE_OTCFG_OTPER
        let n := NMap.get 0 s.safe.tests o.val
        let m := NMap.get 0 s.safe.swPass (2 * o.val + n)
        let bit := ostatBit (8 + 8 * n) o.val
        (s.onSnapshot = false → s.tick.toNat % per = o.val * (per / 8) → on o.val = true → n < 2 →
          Answers (.darkTest o off) s fun t =>
          NMap.get 0 t.safe.tests o.val = 1 - n ∧ same t ∧ kept t
          ∧ NMap.get 0 t.safe.swPass (2 * o.val + n) = (if off then min 3 (m + 1) else 0)
          ∧ t.rd bit = (if off then if 2 ≤ m then 0 else s.rd bit else 1)
          ∧ (off = false → s.rd bit = 0 → told t s.cycle 8 181 ∧ told t s.cycle 7 181))
        ∧ ((s.onSnapshot = true ∨ s.tick.toNat % per ≠ o.val * (per / 8) ∨ on o.val = false) →
          exec (.darkTest o off) s = .next s))
    -- monitors, grace and trip
    ∧ (∀ k, let cmd (b : Bool) : Instr := if k = 3 then .clockMonitorFault b else .supplyWindowFault b
        k = 3 ∨ k = 4 →
        Answers (cmd true) s (fun t => t.safe.detected.testBit k = true ∧ faulted t s.cycle k)
        ∧ Answers (cmd false) s (fun t => t.safe.detected.testBit k = false ∧ t.regs = s.regs ∧ t.evIn = s.evIn ∧ kept t))
    ∧ (state = 2 → s.safe.graceEnd ≤ s.tick.toNat → s.safe.prevD ≠ 0 → Answers .graceExpiry s fun t => faulted t s.cycle 8)
    ∧ (state ≠ 2 ∨ s.tick.toNat < s.safe.graceEnd ∨ s.safe.prevD = 0 → exec .graceExpiry s = .next s)
    ∧ (s.serves p = true → mayProgram → Answers (.safetyTrip p) s fun t =>
        t.rd R.SAFE_CNT_TRIPS = min 255 (s.rd R.SAFE_CNT_TRIPS + 1) ∧ faulted t p.cyc 7)
    ∧ (s.serves p = true → ¬mayProgram →
        Answers (.safetyTrip p) s foreign ∧ Answers (.safeSeal p) s foreign ∧ (∀ k, Answers (.armSequence p k) s foreign)
        ∧ ∀ c, Answers (.bextisSend p c) s foreign)
    -- arming and the seal
    ∧ (s.serves p = true → mayProgram →
        Answers (.armSequence p 0x5AFE) s (fun t =>
          t.safe = { s.safe with armFirst := some s.tick.toNat } ∧ (∀ b, b ≠ R.SAFE_CTRL → t.word b = s.word b) ∧ kept t)
        ∧ (∀ k : BitVec 16, k ≠ 0x5AFE → k ≠ 0xA501 → Answers (.armSequence p k) s fun t =>
          t.safe = s.safe ∧ (∀ b, b ≠ R.SAFE_CTRL → t.word b = s.word b) ∧ t.evIn = [] ∧ kept t)
        ∧ (let first := ∃ t0, s.safe.armFirst = some t0 ∧ s.tick.toNat ≤ t0 + 10
          let checked (t : State) (code : Nat) : Prop :=
            t.rd R.SAFE_STAT_AERR = code ∧ t.safe.armFirst = none ∧ same t ∧ kept t ∧ told t p.cyc 7 184
          (¬first → Answers (.armSequence p 0xA501) s fun t => checked t 1 ∧ t.safe.arming = s.safe.arming)
          ∧ (first → state ≠ 0 → Answers (.armSequence p 0xA501) s fun t => checked t 2 ∧ t.safe.arming = s.safe.arming)
          ∧ (first → state = 0 → s.safe.started = false →
            Answers (.armSequence p 0xA501) s fun t => checked t 3 ∧ t.safe.arming = s.safe.arming)
          ∧ (first → state = 0 → s.safe.started = true → s.rd R.SAFE_STAT_SEALED = 1 → s.safe.detected = 0 → s.causes = 0 →
            s.safetyJobs ≠ [] → (∀ n ∈ s.safetyJobs, (s.job n).lastOk = true) → (∀ i, i < 16 → s.untested i = false) →
            (∀ c ∈ s.receivers, s.unpaired c = false) → Answers (.armSequence p 0xA501) s fun t =>
            checked t 0 ∧ t.safe.arming = true ∧ t.rd R.SAFE_CNT_ARMS = min 255 (s.rd R.SAFE_CNT_ARMS + 1)))
        ∧ (state ≠ 0 → Answers (.safeSeal p) s fun t => t.coll = s.coll ∧ t.safe = s.safe ∧ same t ∧ kept t)
        ∧ (∀ (i : Fin 16) (w : Word), state = 0 → s.coll = [(R.SAFE_INi_CFG i.val, w)] →
          (s.safeCode = 0 → Answers (.safeSeal p) s fun t =>
            t.rd (R.SAFE_INi_CFG_EN i.val) = w.toNat % 2 ∧ t.rd (R.SAFE_INi_CFG_FILT i.val) = w.toNat / 16 % 256
            ∧ t.rd R.SAFE_STAT_SEALED = 1 ∧ t.rd R.SAFE_SEAL_ERR = 0 ∧ t.coll = []
            ∧ (∀ c, c < 8 → (t.conS c).key = if s.rd (R.SAFE_CONc_CFG_EN c) = 1
                then (s.keyTransfer (s.rd (R.SAFE_CONc_KEY_KSLOT c)) 0).getD 0 else 0) ∧ same t ∧ kept t)
          ∧ (s.safeCode ≠ 0 → Answers (.safeSeal p) s fun t =>
            t.rd (R.SAFE_INi_CFG_EN i.val) = s.rd (R.SAFE_INi_CFG_EN i.val) ∧ t.rd R.SAFE_SEAL_ERR = s.safeCode ∧ t.coll = []
            ∧ t.safe = s.safe ∧ same t ∧ kept t)))
    -- Bextis messages sent
    ∧ (∀ c : Fin 8,
        let n := c.val
        let seq := (s.rd (R.SAFE_CONc_TSEQ_SEQ n) + 1) % 2 ^ 32
        let len := s.rd (R.SAFE_CONc_CFG_LEN n)
        let link (net : Nat) := s.rd (R.SAFE_CONc_CFG_PSEL n) + 2 * net
        let frame (u : State) (area net : Nat) : List Nat :=
          let head := [1, net, b2n (decide (state = 2)) + 2 * b2n (decide (state = 0)),
              (s.conBytes area len).length]
            ++ beBytes 4 (s.rd (R.SAFE_CONc_TXID_ID n)) ++ beBytes 4 seq
            ++ beBytes 8 (if u.extTimeValid then u.extTime % 2 ^ 64 else 0) ++ s.conBytes area len
          let body := head ++ beBytes 16 (bextisTag (s.conS n).key head)
          let msg := body ++ beBytes 4 (bextisCrc body)
          beBytes 6 (s.conDmac n) ++ beBytes 6 (s.macOf (link net)) ++ [0x88, 0xB5] ++ msg ++ List.replicate (46 - msg.length) 0
        let sender := s.rd (R.SAFE_CONc_CFG_EN n) = 1 ∧ s.rd (R.SAFE_CONc_CFG_DIR n) = 1
        let went (u : State) (area : Nat) (t : State) : Prop :=
          t.rd (R.SAFE_CONc_TSEQ_SEQ n) = seq ∧ same t ∧ kept t
          ∧ t.outs = s.outs ++ [(8, n, frame u area 0), (8, n, frame u area 1)]
          ∧ (s.gated = true → t.sent = s.sent)
          ∧ (s.gated = false → s.portSealed (link 0) = true → s.portSealed (link 1) = true →
              t.sent = s.sent ++ [(link 0, frame u area 0), (link 1, frame u area 1)])
        (s.serves p = true → mayProgram → sender →
          Answers (.bextisSend p c) s (went (s.setCycle p.cyc) (R.SAFE_CONc_TXj n 0)))
        ∧ (s.serves p = true → mayProgram → ¬sender → exec (.bextisSend p c) s = .next (s.setCycle p.cyc))
        ∧ (let at' := (s.conS n).txAt
          let due := state = 0 ∧ (at' = 0 ∨ at' + s.rd (R.SAFE_CONc_CFG_TXPER n) ≤ s.tick.toNat + 1)
          (due → sender → Answers (.bextisSafeStateSend c) s fun t =>
            went s (R.SAFE_CONc_TXFSj n 0) t ∧ (t.conS n).txAt = s.tick.toNat + 1)
          ∧ (¬due → exec (.bextisSafeStateSend c) s = .next s)))
    -- Bextis copies received
    ∧ (∀ (c : Fin 8) (w : PairWin),
        let n := c.val
        let x := s.conS n
        let last := s.rd (R.SAFE_CONc_SEQ_SEQ n)
        let newer (a b : Nat) := let d := (a + 2 ^ 32 - b) % 2 ^ 32; 1 ≤ d ∧ d < 2 ^ 31
        let receiver := s.rd (R.SAFE_CONc_CFG_EN n) = 1 ∧ s.rd (R.SAFE_CONc_CFG_DIR n) = 0
        let counted (t : State) (f : FieldRef) : Prop := t.rd f = min 255 (s.rd f + 1) ∧ t.safe = s.safe ∧ same t ∧ kept t
        let accepted (t : State) (seq : Nat) (data : List Nat) (two : Bool) : Prop :=
          t.conBytes (R.SAFE_CONc_RXj n 0) data.length = data ∧ t.rd (R.SAFE_CONc_SEQ_SEQ n) = seq % 2 ^ 32
          ∧ t.rd (R.SAFE_CONc_ATICK_TICK n) = s.tick.toNat % 2 ^ 32 ∧ t.rd (R.SAFE_CONc_STAT_CFAULT n) = 0
          ∧ t.rd ⟨R.SAFE_RXEV, n, n⟩ = 1 ∧ (t.conS n).acc = s.tick.toNat + 1 ∧ same t ∧ kept t ∧ told t s.cycle 8 182
          ∧ (two = true → (t.conS n).acc2 = s.tick.toNat + 1
            ∧ t.rd (R.SAFE_CONc_STAT_CLRCNT n) = min 255 (s.rd (R.SAFE_CONc_STAT_CLRCNT n) + 1)
            ∧ (s.rd (R.SAFE_CONc_TMO_NCLR n) ≤ min 255 (s.rd (R.SAFE_CONc_STAT_CLRCNT n) + 1) → t.rd (R.SAFE_CONc_STAT_DEGR n) = 0))
          ∧ (two = false → (t.conS n).acc2 = x.acc2 ∧ t.rd (R.SAFE_CONc_STAT_CLRCNT n) = 0 ∧ t.rd (R.SAFE_CONc_STAT_DEGR n) = 1
            ∧ t.rd (R.SAFE_CONc_CNT_NOPAIR n) = min 255 (s.rd (R.SAFE_CONc_CNT_NOPAIR n) + 1) ∧ told t s.cycle 8 183)
        let wide (l : List Nat) : Prop := l.length ≤ 64 ∧ ∀ b ∈ l, b < 256
        (∀ (b : Bool) (dest : BitVec 48) (flags : Byte) (seq : Word) (ts : DWord) (data : List Byte),
          let head := [1, b2n b, flags.toNat, data.length] ++ beBytes 4 (s.rd (R.SAFE_CONc_RXID_ID n)) ++ beBytes 4 seq.toNat
            ++ beBytes 8 ts.toNat ++ data.map BitVec.toNat
          let body := head ++ beBytes 16 (bextisTag x.key head)
          let msg := (body ++ beBytes 4 (bextisCrc body)).map (BitVec.ofNat 8)
          let opened (t : State) : Prop :=
            (t.conS n).win = some ⟨seq.toNat, b, head.drop 2, data.map BitVec.toNat, s.tick.toNat + s.rd (R.SAFE_CONc_CFG_SKEW n)⟩
            ∧ t.rd (R.SAFE_CONc_STAT_WIN n) = 1 ∧ same t ∧ kept t
          receiver → s.isStandby = false → s.portSealed (s.rd (R.SAFE_CONc_CFG_PSEL n) + 2 * b2n b) = true →
          s.rd (R.SAFE_CONc_CFG_LEN n) = data.length → data.length ≤ 64 → dest.toNat = s.conDmac n →
          -- no window is open
          (x.win = none →
            (x.acc = 0 ∨ seq.toNat ≠ last → x.fresh = true ∨ newer seq.toNat last →
              Answers (.bextisCopyReceive c b dest msg) s opened)
            ∧ (x.acc ≠ 0 → seq.toNat = last →
              Answers (.bextisCopyReceive c b dest msg) s fun t => counted t (R.SAFE_CONc_CNT_LATE n))
            ∧ (x.acc = 0 ∨ seq.toNat ≠ last → x.fresh = false → ¬newer seq.toNat last →
              Answers (.bextisCopyReceive c b dest msg) s fun t => counted t (R.SAFE_CONc_CNT_INVAL n) ∧ told t s.cycle 8 183))
          -- a window is open
          ∧ (x.win = some w → w.seq = seq.toNat →
            (w.net ≠ b → w.body = head.drop 2 → Answers (.bextisCopyReceive c b dest msg) s fun t =>
              accepted t seq.toNat (data.map BitVec.toNat) true ∧ (t.conS n).win = none)
            ∧ (w.net ≠ b → w.body ≠ head.drop 2 → Answers (.bextisCopyReceive c b dest msg) s fun t =>
              t.rd (R.SAFE_CONc_STAT_CFAULT n) = 1 ∧ t.rd (R.SAFE_CONc_CNT_DISAG n) = min 255 (s.rd (R.SAFE_CONc_CNT_DISAG n) + 1)
              ∧ t.conBytes (R.SAFE_CONc_RXj n 0) 64 = s.conBytes (R.SAFE_CONc_RXFSj n 0) 64 ∧ (t.conS n).win = none
              ∧ t.rd (R.SAFE_CONc_SEQ_SEQ n) = last ∧ same t ∧ kept t ∧ told t s.cycle 8 183)
            ∧ (w.net = b → Answers (.bextisCopyReceive c b dest msg) s fun t => counted t (R.SAFE_CONc_CNT_LATE n)))
          ∧ (x.win = some w → w.seq < 2 ^ 32 → wide w.data → newer seq.toNat w.seq →
            Answers (.bextisCopyReceive c b dest msg) s fun t => opened t ∧ accepted t w.seq w.data false))
        ∧ (∀ (b : Bool) (dest : BitVec 48) (msg : List Byte), receiver → s.isStandby = false →
            s.portSealed (s.rd (R.SAFE_CONc_CFG_PSEL n) + 2 * b2n b) = true → s.copySound n b dest.toNat (msg.map BitVec.toNat) = false →
            Answers (.bextisCopyReceive c b dest msg) s fun t => counted t (R.SAFE_CONc_CNT_INVAL n) ∧ told t s.cycle 8 183)
        ∧ (∀ (b : Bool) (dest : BitVec 48) (msg : List Byte),
            let open' := s.portSealed (s.rd (R.SAFE_CONc_CFG_PSEL n) + 2 * b2n b)
            (¬receiver → s.isStandby = false → Answers (.bextisCopyReceive c b dest msg) s fun t =>
              t.safe = s.safe ∧ t.regs = s.regs ∧ t.evIn = [] ∧ kept t)
            ∧ (s.isStandby = true → open' = true →
              exec (.bextisCopyReceive c b dest msg) s = .next (s.capture s.cycle (.bextis c b dest msg)))
            ∧ (open' = false → exec (.bextisCopyReceive c b dest msg) s = .next s))
        ∧ (x.win = some w → wide w.data → w.last ≤ s.tick.toNat → Answers (.pairingWindowEnd c) s fun t =>
            accepted t w.seq w.data false ∧ (t.conS n).win = none)
        ∧ (x.win = none ∨ (x.win = some w ∧ s.tick.toNat < w.last) → exec (.pairingWindowEnd c) s = .next s)
        ∧ (receiver → s.safe.armed = true → x.tmo + s.rd (R.SAFE_CONc_TMO_TMO n) ≤ s.tick.toNat + 1 →
            Answers (.bextisTimeout c) s fun t => faulted t s.cycle 6)
        ∧ (¬receiver ∨ s.safe.armed = false ∨ s.tick.toNat + 1 < x.tmo + s.rd (R.SAFE_CONc_TMO_TMO n) →
            exec (.bextisTimeout c) s = .next s))

/-- Ethernet, network time and the backup clock (R446 to R473): frames received, which a standby keeps, PRP's duplicates and trailers,
transmit descriptors, supervision, silent LANs, links and the interface seal; the wrap and the steps of the network time counter; the writes, the second
boundaries, the supply and the reset of the backup domain. -/
def Obligations.NetworkAndClockCommands : Prop :=
  ∀ (s : State) (p : Port), s.evIn = [] →
    let kept (t : State) : Prop := t.mem = s.mem ∧ t.cores = s.cores
    let now (cyc : Nat) := 60000 * s.tick.toNat + cyc
    let told (t : State) (cyc part e : Nat) : Prop :=
      ∀ y, y < 16 → y ∈ s.dutiesOf part → s.isTarget y = true → ⟨now cyc + 2, y, e⟩ ∈ t.evIn
    let toldOwn (t : State) (e : Nat) : Prop :=
      s.isTarget (s.dutyOf p.core.val) = true → s.dutyOf p.core.val < 16 → ⟨now p.cyc + 2, s.dutyOf p.core.val, e⟩ ∈ t.evIn
    let up1 (t : State) (top : Nat) (f : FieldRef) : Prop := t.rd f = min top (s.rd f + 1)
    let runs (i : Nat) : Prop := (s.ethOf i).isSealed = true ∧ s.rd (R.ETHN_iCTRL_EN i) = 1
    let settled (cyc : Nat) : Prop := ∀ w ∈ s.wrote, w.t ≠ now cyc
    let linked (q : Nat) : Prop := s.rd (R.ETHN_pSTAT_LINK q) = 1
    let step (next n : Nat) : Nat := if n ≤ next + 1 then 0 else next + 1
    -- frames received
    (∀ (q : Fin 5) (cyc : Nat) (fifo : Bool) (frame : List Byte),
        let i := if q.val = 4 then 2 else q.val % 2
        let e := s.ethOf i
        let bs := frame.map BitVec.toNat
        let cmd (ok : Bool) : Instr := .ethernetFrameReceive q cyc ok fifo frame
        let ts := (s.setCycle cyc).rxStamp q.val
        let d := s.rd (R.ETHN_iRXR_BASE i) + 16 * s.rd (R.ETHN_iSTAT_RXNEXT i)
        let w0 := memRead s.mem d 8
        let buf := w0 % 2 ^ 23
        let rct := if q.val = 4 then none else rctOf bs
        let fits (body : List Nat) : Prop :=
          let n := 8 * ((body.length + 7) / 8) + 8
          d % 8 = 0 ∧ s.wordMark (d / 8) = .clean ∧ w0.testBit 23 = true ∧ buf % 8 = 0 ∧ buf + n ≤ 0x800000
            ∧ (buf + n ≤ d ∨ d + 16 ≤ buf)
        let delivered (t : State) (body : List Nat) (tag : Bool) : Prop :=
          let n := 8 * ((body.length + 7) / 8) + 8
          t.buffer true buf (padWords body) ∧ memBytes t.mem buf body.length = body
          ∧ memRead t.mem d 8 = (buf + 2 ^ 24 * body.length + 2 ^ 35 * q.val + 2 ^ 38 * b2n tag) % 2 ^ 64
          ∧ memRead t.mem (d + 8) 8 = ts / 2 ^ 32 % 2 ^ 32 + 2 ^ 32 * (ts / 2 ^ 16 % 2 ^ 16)
          ∧ (∀ b, (b < buf ∨ buf + n ≤ b) → (b < d ∨ d + 16 ≤ b) → memRead t.mem b 1 = memRead s.mem b 1)
          ∧ t.rd (R.ETHN_iSTAT_RXNEXT i) = step (s.rd (R.ETHN_iSTAT_RXNEXT i)) (s.rd (R.ETHN_iRXN_N i)) % 4096
          ∧ t.cores = s.cores ∧ told t cyc 6 (192 + i)
        settled cyc →
        ((runs i → linked q.val → Answers (cmd false) s fun t =>
            up1 t 65535 (R.ETHN_pCNT_FCSERR q.val) ∧ t.eth = s.eth ∧ t.evIn = [] ∧ kept t)
        ∧ (¬runs i ∨ ¬linked q.val → ∀ ok, exec (cmd ok) s = .next (s.setCycle cyc))
        ∧ (runs i → linked q.val → s.isStandby = true →
          exec (cmd true) s = .next ((s.setCycle cyc).capture cyc (.frame q fifo ts frame)))
        ∧ (runs i → linked q.val → s.isStandby = false →
          (etherType bs = 0x8808 → Answers (cmd true) s fun t =>
            up1 t 255 (R.ETHN_pCNT_PAUSE q.val) ∧ t.eth = s.eth ∧ t.evIn = [] ∧ kept t)
          ∧ (etherType bs = 0x88B5 → exec (cmd true) s = .next (s.setCycle cyc))
          ∧ (etherType bs ≠ 0x8808 → s.passes q.val (beAt bs 0 6) = false → exec (cmd true) s = .next (s.setCycle cyc))
          ∧ (etherType bs ≠ 0x8808 → etherType bs ≠ 0x88B5 → s.passes q.val (beAt bs 0 6) = true →
            let size := bs.length - if rct.isSome then 6 else 0
            (1522 < size → Answers (cmd true) s fun t =>
              up1 t 255 (R.ETHN_iCNT_GIANT i) ∧ t.eth = s.eth ∧ kept t ∧ told t cyc 6 201)
            ∧ (size ≤ 1522 → fifo = true → Answers (cmd true) s fun t =>
              up1 t 255 (R.ETHN_iCNT_FIFO i) ∧ t.eth = s.eth ∧ kept t ∧ told t cyc 6 201)
            ∧ (size ≤ 1522 → fifo = false → rct = none → fits bs → Answers (cmd true) s fun t =>
              delivered t bs false ∧ t.eth = s.eth)
            ∧ (size ≤ 1522 → fifo = false → rct = none → s.wordMark (d / 8) = .clean → w0.testBit 23 = false →
              Answers (cmd true) s fun t => up1 t 255 (R.ETHN_iCNT_NOBUF i) ∧ t.eth = s.eth ∧ kept t ∧ told t cyc 6 201)
            ∧ (∀ seq lan, size ≤ 1522 → fifo = false → rct = some (seq, lan) →
              let laneB := q.val = 2 ∨ q.val = 3
              let live := s.liveDup e
              let entered := (if 2048 ≤ live.length then live.drop 1 else live) ++ [⟨beAt bs 6 6, seq, s.tick.toNat⟩]
              let alive (t : State) : Prop :=
                (laneB → (t.ethOf i).lanB = s.tick.toNat + 1 ∧ t.rd (R.ETHN_iPRPST_LANBS i) = 0)
                ∧ (¬laneB → (t.ethOf i).lanA = s.tick.toNat + 1 ∧ t.rd (R.ETHN_iPRPST_LANAS i) = 0)
              let twin := ∃ x ∈ live, x.src = beAt bs 6 6 ∧ x.seq = seq
              ((lan = 11 ↔ laneB) → ¬twin → fits (bs.take (bs.length - 6)) → Answers (cmd true) s fun t =>
                delivered t (bs.take (bs.length - 6)) true ∧ (t.ethOf i).dup = entered ∧ alive t)
              ∧ ((lan = 11 ↔ laneB) → twin → Answers (cmd true) s fun t =>
                up1 t 65535 (R.ETHN_iPRPST_DUPD i) ∧ (t.ethOf i).dup = e.dup ∧ alive t ∧ t.evIn = [] ∧ kept t)
              ∧ (¬(lan = 11 ↔ laneB) → fits (bs.take (bs.length - 6)) → Answers (cmd true) s fun t =>
                delivered t (bs.take (bs.length - 6)) true ∧ up1 t 255 (R.ETHN_iPRPST_WRONGLAN i) ∧ alive t))))))
    -- frames sent
    ∧ (∀ (i : Fin 3) (cyc : Nat), settled cyc →
        let n := i.val
        let e := s.ethOf n
        let a := s.rd (R.ETHN_iTXR_BASE n) + 16 * s.rd (R.ETHN_iSTAT_TXNEXT n)
        let w0 := memRead s.mem a 8
        let w1 := memRead s.mem (a + 8) 8
        let d := txDesc w0
        let ports := (maskPorts d.pmask).filter s.linkUp
        let ts := (s.setCycle cyc).txStamp (ports.headD 0)
        let back (t : State) (tst : Nat) (at' : Option Nat) : Prop :=
          memRead t.mem a 8 = putBits (putBits w0 23 23 0) 54 52 tst % 2 ^ 64
          ∧ memRead t.mem (a + 8) 8 = at'.elim w1 (fun x => x / 2 ^ 32 % 2 ^ 32 + 2 ^ 32 * (x / 2 ^ 16 % 2 ^ 16))
          ∧ s.sameBut t a 16 ∧ t.cores = s.cores
          ∧ t.rd (R.ETHN_iSTAT_TXNEXT n) = step (s.rd (R.ETHN_iSTAT_TXNEXT n)) (s.rd (R.ETHN_iTXN_N n)) % 4096
          ∧ told t cyc 6 (195 + n) ∧ (tst ≠ 0 → told t cyc 6 202) ∧ (t.ethOf n).busy = true
        let left (t : State) (f : Nat → List Nat) : Prop :=
          t.outs = s.outs ++ ports.map (fun q => (7, (if q = 4 then 2 else q % 2), f q))
          ∧ t.sent = s.sent ++ if s.gated then [] else ports.map fun q => (q, f q)
        let mute (t : State) : Prop := t.outs = s.outs ∧ t.sent = s.sent ∧ t.eth = s.eth
        (s.serves p = true → runs n → Answers (.transmitKick p i) s fun t => t.ethOf n = { e with busy := true } ∧ t.regs = s.regs ∧ t.evIn = [] ∧ kept t)
        ∧ (s.serves p = true → ¬runs n → exec (.transmitKick p i) s = .next (s.setCycle p.cyc))
        ∧ (e.busy = false ∨ ¬runs n ∨ s.txHeld = true → exec (.transmitDescriptor i cyc) s = .next (s.setCycle cyc))
        ∧ (e.busy = true → runs n → s.txHeld = false → a % 8 = 0 → s.wordMark (a / 8) = .clean →
          (w0.testBit 23 = false → Answers (.transmitDescriptor i cyc) s fun t =>
            t.ethOf n = { e with busy := false } ∧ t.regs = s.regs ∧ t.sent = s.sent ∧ t.evIn = [] ∧ kept t)
          ∧ (w0.testBit 23 = true → s.wordMark (a / 8 + 1) = .poisoned → Answers (.transmitDescriptor i cyc) s fun t =>
            back t 5 none ∧ mute t)
          ∧ (w0.testBit 23 = true → s.wordMark (a / 8 + 1) = .clean →
            (d.bad n = true → Answers (.transmitDescriptor i cyc) s fun t => back t 4 none ∧ mute t)
            ∧ (∀ ws, d.bad n = false → ws.length = (d.len + 7) / 8 →
              let bs := (wordsBytes ws).take d.len
              let cw := memRead s.mem (d.buf + 8 * ws.length) 8
              let diff := (ts + 2 ^ 64 - w1 % 2 ^ 32 * 2 ^ 32) % 2 ^ 64
              let padded (l : List Nat) : List Nat := l ++ List.replicate (60 - l.length) 0
              (s.buffer false d.buf ws → s.wordMark (d.buf / 8 + ws.length) = .clean → verifyCheck ws cw ≠ 0 →
                Answers (.transmitDescriptor i cyc) s fun t =>
                back t 1 none ∧ mute t ∧ t.rd R.CMNS_CKFADDR_ADDR = (d.buf + 8 * ws.length) % 2 ^ 23
                ∧ t.rd R.CMNS_CKFINFO_DETECT = 0x0B ∧ t.rd R.CMNS_CKFINFO_EXIT = 1 ∧ told t cyc 7 50)
              ∧ (s.buffer true d.buf ws → ports = [] → Answers (.transmitDescriptor i cyc) s fun t => back t 3 none ∧ mute t)
              ∧ (s.buffer true d.buf ws → ports ≠ [] → d.onestep = true → 2 ^ 63 ≤ diff →
                Answers (.transmitDescriptor i cyc) s fun t => back t 2 none ∧ mute t)
              ∧ (s.buffer true d.buf ws → ports ≠ [] → d.onestep = true → diff < 2 ^ 63 → d.udp = false → d.prp = false →
                Answers (.transmitDescriptor i cyc) s fun t =>
                let o := d.off + 8
                back t 0 (some ts) ∧ t.eth = s.eth ∧ left t fun _ =>
                  padded (bs.take o ++ beBytes 8 ((beAt bs o 8 + diff / 2 ^ 16) % 2 ^ 64) ++ bs.drop (o + 8)))
              ∧ (s.buffer true d.buf ws → ports ≠ [] → d.onestep = false → d.prp = false →
                Answers (.transmitDescriptor i cyc) s fun t =>
                back t 0 (if d.tsreq then some ts else none) ∧ t.eth = s.eth ∧ left t fun _ => padded bs)
              ∧ (s.buffer true d.buf ws → ports ≠ [] → d.onestep = false → d.prp = true →
                Answers (.transmitDescriptor i cyc) s fun t =>
                back t 0 (if d.tsreq then some ts else none) ∧ (t.ethOf n).seq = (e.seq + 1) % 65536
                ∧ left t fun q => padded bs ++ beBytes 2 e.seq
                  ++ beBytes 2 (4096 * (if q = 2 ∨ q = 3 then 11 else 10) + ((padded bs).length - lsduAt (padded bs) + 6) % 4096)
                  ++ [0x88, 0xFB])))))
    -- supervision, silent LANs, links and the seal
    ∧ (∀ i : Fin 2,
        let n := i.val
        let e := s.ethOf n
        let due := runs n ∧ s.gated = false ∧ (e.supAt = 0 ∨ e.supAt + 10 * s.rd R.ETHN_PRP_LCI ≤ s.tick.toNat + 1)
        (due → Answers (.prpSupervisionSend i) s fun t =>
          let f := supervisionFrame (s.macOf n) e.supSeq
          t.sent = s.sent ++ (([n, n + 2].filter s.linkUp).map fun q => (q, withRct f e.seq q))
          ∧ t.ethOf n = { e with supAt := s.tick.toNat + 1, supSeq := (e.supSeq + 1) % 65536, seq := (e.seq + 1) % 65536 }
          ∧ t.regs = s.regs ∧ kept t)
        ∧ (¬due → exec (.prpSupervisionSend i) s = .next s)
        ∧ (∀ lanB : Bool,
          let this := if lanB then e.lanB else e.lanA
          let other := if lanB then e.lanA else e.lanB
          let f := if lanB then R.ETHN_iPRPST_LANBS n else R.ETHN_iPRPST_LANAS n
          let silent (x : Nat) : Prop := max 1 x + 30 * s.rd R.ETHN_PRP_LCI ≤ s.tick.toNat + 1
          let fresh := runs n ∧ silent this ∧ other ≠ 0 ∧ ¬silent other ∧ s.rd f = 0
          (fresh → Answers (.prpLanSilent i lanB) s fun t => t.rd f = 1 ∧ t.eth = s.eth ∧ kept t ∧ told t s.cycle 7 200)
          ∧ (¬fresh → exec (.prpLanSilent i lanB) s = .next s)))
    ∧ (∀ (q : Fin 5) (up : Bool) (spd : Fin 3) (fdx : Bool), Answers (.linkChange q up spd fdx) s fun t =>
        let an := s.rd (R.ETHN_pCFG_AN q.val)
        t.rd (R.ETHN_pSTAT_LINK q.val) = b2n up
        ∧ t.rd (R.ETHN_pSTAT_SPD q.val) = (if an = 1 then spd.val else s.rd (R.ETHN_pCFG_SPEED q.val))
        ∧ t.rd (R.ETHN_pSTAT_DPX q.val) = (if an = 1 then if spd.val = 2 then 1 else b2n fdx else s.rd (R.ETHN_pCFG_FDX q.val))
        ∧ t.eth = s.eth ∧ kept t ∧ (s.rd (R.ETHN_pSTAT_LINK q.val) = b2n up → t.evIn = s.evIn)
        ∧ (s.rd (R.ETHN_pSTAT_LINK q.val) ≠ b2n up → told t s.cycle 6 199 ∧ told t s.cycle 7 199))
    ∧ (∀ (i : Fin 3) (w : Word), s.serves p = true →
        let n := i.val
        (s.rd (R.ETHN_iCTRL_EN n) = 1 → Answers (.ethnSeal p i) s fun t => t.coll = s.coll ∧ t.eth = s.eth ∧ kept t ∧ toldOwn t 204)
        ∧ (s.rd (R.ETHN_iCTRL_EN n) = 0 → s.coll = [(R.ETHN_iRXN n, w)] →
          (s.ethCode n = 0 → Answers (.ethnSeal p i) s fun t =>
            t.rd (R.ETHN_iRXN_N n) = w.toNat % 4096 ∧ t.ethOf n = { s.ethOf n with isSealed := true, busy := false }
            ∧ t.rd (R.ETHN_iSTAT_RXNEXT n) = 0 ∧ t.rd (R.ETHN_iSTAT_TXNEXT n) = 0 ∧ t.rd (R.ETHN_iSEAL_ERR n) = 0
            ∧ t.coll = [] ∧ t.evIn = [] ∧ kept t)
          ∧ (s.ethCode n ≠ 0 → Answers (.ethnSeal p i) s fun t =>
            t.rd (R.ETHN_iRXN_N n) = s.rd (R.ETHN_iRXN_N n) ∧ t.rd (R.ETHN_iSEAL_ERR n) = s.ethCode n ∧ t.coll = []
            ∧ t.eth = s.eth ∧ kept t ∧ toldOwn t 204)))
    -- the network time counter
    ∧ (∀ cyc,
        let u := s.setCycle cyc
        (u.counterRaw < 2 ^ 64 → exec (.networkTimeWrap cyc) s = .next u)
        ∧ (settled cyc → 2 ^ 64 ≤ u.counterRaw → Answers (.networkTimeWrap cyc) s fun t =>
          t.counter = u.counter ∧ t.ptpt.base = u.counterRaw - 2 ^ 64
          ∧ t.rd R.PTPT_STAT_WRAPC = (s.rd R.PTPT_STAT_WRAPC + 1) % 256
          ∧ t.rd R.TIER_DISC_ANCH_ANCH = (s.rd R.TIER_DISC_ANCH_ANCH + 32704) % 100000
          ∧ kept t ∧ told t cyc 6 198 ∧ told t cyc 7 198))
    ∧ (∀ v : Word, s.serves p = true → s.phase = .running →
        let u := s.setCycle p.cyc
        let n := u.counterClocks p.cyc
        s.ptpt.clk ≤ n →
        let new : Int := u.counterRaw + s.counterStep + v.toInt * 2 ^ 32
        let small := -1000000000 ≤ v.toInt ∧ v.toInt ≤ 1000000000
        let at' (t : State) (c : Nat) : Nat := (t.setCycle c).counterRaw
        let refused (code : Nat) (t : State) : Prop :=
          t.rd R.PTPT_STAT_STEPERR = code ∧ (∀ c, p.cyc ≤ c → at' t c = at' s c) ∧ kept t ∧ toldOwn t 203
        (n < s.ptpt.stepAt → Answers (.ptptStep p v) s (refused 3))
        ∧ (s.ptpt.stepAt ≤ n → ¬small → Answers (.ptptStep p v) s (refused 1))
        ∧ (s.ptpt.stepAt ≤ n → small → new < 0 → Answers (.ptptStep p v) s (refused 2))
        ∧ (s.ptpt.stepAt ≤ n → small → 0 ≤ new → Answers (.ptptStep p v) s fun t =>
          -- the step shows from the next counter clock on
          (∀ c, (u.counterClocks c = n → at' t c = at' u p.cyc) ∧ (u.counterClocks c = n + 1 → (at' t c : Int) = new))
          ∧ t.rd R.PTPT_STAT_STEPERR = 0 ∧ t.rd R.PTPT_STAT_WRAPC = s.rd R.PTPT_STAT_WRAPC ∧ kept t ∧ toldOwn t 203))
    -- the backup domain
    ∧ (let x := s.rtcb
      let busy := s.rd R.RTCB_STAT_BUSY
      (∀ v : BitVec 48, s.serves p = true →
        let sent (ws : List (Nat × Nat)) (t : State) : Prop :=
          t.rtcb = { x with crossing := ws } ∧ t.rd R.RTCB_STAT_BUSY = 1 ∧ t.evIn = [] ∧ kept t
        let refused (t : State) : Prop := t.rtcb = x ∧ up1 t 255 R.RTCB_STAT_REFUSED ∧ kept t ∧ toldOwn t 211
        (s.isStandby = false → busy = 0 →
          Answers (.rtcbSet p v) s (sent [(R.RTCB_SET, v.toNat % 2 ^ 32), (R.RTCB_SET + 4, v.toNat / 2 ^ 32)])
          ∧ Answers (.dst p) s (sent [(R.RTCB_CMD, 1)]))
        ∧ (s.isStandby = false → busy = 1 → Answers (.rtcbSet p v) s refused ∧ Answers (.dst p) s refused)
        ∧ (s.isStandby = true →
          exec (.rtcbSet p v) s = .next (s.setCycle p.cyc) ∧ exec (.dst p) s = .next (s.setCycle p.cyc))
        ∧ (x.crossing = [(R.RTCB_SET, v.toNat % 2 ^ 32), (R.RTCB_SET + 4, v.toNat / 2 ^ 32)] →
          Answers .domainWriteCrossing s fun t =>
          t.rtcb = { x with crossing := [], setTo := some v.toNat } ∧ t.regs = s.regs ∧ kept t)
        ∧ (x.crossing = [(R.RTCB_CMD, 1)] → Answers .domainWriteCrossing s fun t =>
          t.rtcb = { x with crossing := [], dst := true } ∧ t.regs = s.regs ∧ kept t))
      ∧ (∀ w : Word, x.setTo = none → x.dst = false →
        (x.crossing = [(R.RTCB_TRIM, w.toNat)] → Answers .domainWriteCrossing s fun t =>
          t.rd R.RTCB_TRIM_TRIM = w.toNat % 8192 ∧ t.rd R.RTCB_STAT_BUSY = 0 ∧ t.rtcb = { x with crossing := [] } ∧ kept t)
        ∧ (x.crossing = [(R.RTCB_ASTAT, w.toNat)] → Answers .domainWriteCrossing s fun t =>
          t.word R.RTCB_ASTAT = s.word R.RTCB_ASTAT &&& ~~~w ∧ t.rd R.RTCB_STAT_BUSY = 0 ∧ kept t))
      ∧ (x.crossing = [] → exec .domainWriteCrossing s = .next s)
      ∧ (∀ osc : Nat,
        let o := min 65535 (x.osc + osc)
        let full := (32768 : Int) ≤ o + trimPulses x.trim x.second
        let sec := (s.rd R.RTCB_TIME_SEC + 1) % 2 ^ 48
        let armed (k : Nat) : Prop := s.rd (R.RTCB_ALMk_ARM k) = 1
        let ran (t : State) (c : Nat) : Prop :=
          t.rd R.RTCB_TIME_SEC = c ∧ t.rd R.RTCB_TIME_FRAC = 0 ∧ t.rtcb.osc = 0 ∧ t.rtcb.second = (x.second + 1) % 1024
          ∧ t.rtcb.setTo = none ∧ t.rtcb.dst = false ∧ kept t
          ∧ (t.rtcb.trim = if (x.second + 1) % 1024 = 0 then s.rdI R.RTCB_TRIM_TRIM else x.trim)
          ∧ ∀ k, k < 2 →
            let bit (b : Nat) : FieldRef := ⟨R.RTCB_ASTAT, b + k, b + k⟩
            (armed k → s.rd (R.RTCB_ALMk_SEC k) ≤ c →
              t.rd (R.RTCB_ALMk_ARM k) = 0 ∧ t.rd (bit 0) = 1 ∧ (k ∈ x.past → t.rd (bit 4) = 1)
              ∧ (s.rd (R.RTCB_ALMk_WAKE k) = 1 → t.rd R.RTCB_PON_PON = 1) ∧ (s.phase = .running → told t s.cycle 7 (208 + k)))
            ∧ (¬armed k ∨ c < s.rd (R.RTCB_ALMk_SEC k) →
              t.rd (R.RTCB_ALMk_ARM k) = s.rd (R.RTCB_ALMk_ARM k) ∧ t.rd (bit 0) = s.rd (bit 0))
        let adjusted (t : State) (c : Nat) : Prop :=
          ran t c ∧ t.rd R.RTCB_STAT_BUSY = 0 ∧ (s.phase = .running → told t s.cycle 7 210)
        (¬full → Answers (.rtcSecondBoundary osc) s fun t =>
          t.rtcb = { x with osc := o } ∧ t.rd R.RTCB_TIME_FRAC = min 65534 (2 * o)
          ∧ t.rd R.RTCB_TIME_SEC = s.rd R.RTCB_TIME_SEC ∧ t.evIn = s.evIn ∧ kept t)
        ∧ (full → x.setTo = none → x.dst = false → Answers (.rtcSecondBoundary osc) s fun t => ran t sec)
        ∧ (∀ v, full → x.setTo = some v → v < 2 ^ 48 → Answers (.rtcSecondBoundary osc) s fun t => adjusted t v)
        ∧ (full → x.setTo = none → x.dst = true → s.rd R.RTCB_STAT_SUMMER = 0 → Answers (.rtcSecondBoundary osc) s fun t =>
          adjusted t ((sec + 3600) % 2 ^ 48) ∧ t.rd R.RTCB_STAT_SUMMER = 1)
        ∧ (full → x.setTo = none → x.dst = true → s.rd R.RTCB_STAT_SUMMER = 1 → Answers (.rtcSecondBoundary osc) s fun t =>
          adjusted t ((sec + 2 ^ 48 - 3600) % 2 ^ 48) ∧ t.rd R.RTCB_STAT_SUMMER = 0))
      ∧ (∀ vmain vbak : Nat,
        let leaves := x.onVbak = false ∧ (vmain < vbak ∨ vmain < 2700)
        let back := x.onVbak = true ∧ vbak + 100 ≤ vmain ∧ 2800 ≤ vmain
        (leaves → Answers (.backupSupplySwitch vmain vbak) s fun t => t.rtcb = { x with onVbak := true } ∧ t.regs = s.regs ∧ kept t)
        ∧ (back → Answers (.backupSupplySwitch vmain vbak) s fun t => t.rtcb = { x with onVbak := false } ∧ t.regs = s.regs ∧ kept t)
        ∧ (¬leaves → ¬back → exec (.backupSupplySwitch vmain vbak) s = .next s))
      ∧ Answers .backupDomainReset s (fun t =>
        t.rd R.RTCB_TIME_SEC = 0 ∧ t.rd R.RTCB_TIME_FRAC = 0 ∧ t.rd R.RTCB_TRIM_TRIM = 0 ∧ t.rd R.RTCB_STAT_SUMMER = 0
        ∧ t.rd R.RTCB_STAT_BUSY = 0 ∧ (∀ k, k < 2 → t.rd (R.RTCB_ALMk_ARM k) = 0 ∧ t.rd (R.RTCB_ALMk_SEC k) = 0)
        ∧ t.word R.RTCB_ASTAT = 0 ∧ t.rd R.RTCB_PON_PON = 1 ∧ t.rtcb = { RtcbS.init with onVbak := x.onVbak } ∧ kept t))

/-- The pair and its referee (R477 to R506): the strap, the Rioft link and its blocks, with the output hash first after the edge of a
tick, the snapshot and the local inputs at the standby, starvation, resynchronisation, the join, handover, solo, the fence and the seals at a member; polls, hearts, commands and the evaluation of the
referee. -/
def Obligations.PairAndRefereeCommands : Prop :=
  ∀ (s : State) (p : Port), s.evIn = [] →
    let kept (t : State) : Prop := t.mem = s.mem ∧ t.cores = s.cores
    let x := s.pair
    let st := s.rd R.PAIR_STAT_STATE
    let strap := s.rd R.PAIR_STAT_STRAP
    let member := strap = 1 ∨ strap = 2
    let on (f : FieldRef) : Prop := s.rd f = 1
    let tick := s.tick.toNat
    let now (cyc : Nat) := 60000 * tick + cyc
    let told (t : State) (cyc part e : Nat) : Prop :=
      ∀ y, y < 16 → y ∈ s.dutiesOf part → s.isTarget y = true → ⟨now cyc + 2, y, e⟩ ∈ t.evIn
    let toldDuty (t : State) (cyc d e : Nat) : Prop := d < 16 → s.isTarget d = true → ⟨now cyc + 2, d, e⟩ ∈ t.evIn
    let own := s.dutyOf p.core.val
    let up1 (t : State) (top : Nat) (f : FieldRef) : Prop := t.rd f = min top (s.rd f + 1)
    -- a block of the Rioft link and a message of the referee link, with their tags and check values
    let block (nonce seq typ flags n cychi : Nat) (body : List Nat) : List Nat :=
      let h := [typ, flags] ++ leBytes 2 body.length ++ leBytes 4 n ++ leBytes 4 seq ++ leBytes 2 cychi ++ [0, 0] ++ body
      let g := h ++ beBytes 16 (tag16 x.keyL (h ++ if seq = 0 then leBytes 16 nonce else []))
      g ++ leBytes 4 (crc32c g)
    -- the hash of the tick just ended goes first (R489)
    let pre := if member ∧ st = 1 ∧ x.trained = true ∧ x.hashAt ≠ tick + 1 then x.own.toList else []
    let hashOut : List (Nat × List Nat) := pre.map fun o => (5, block x.noncePeer x.txSeq 2 0 o.1 0 (beBytes 16 o.2))
    let seq := if pre = [] then x.txSeq else (x.txSeq + 1) % 2 ^ 32
    let sends (t : State) (typ flags n cychi : Nat) (body : List Nat) : Prop :=
      x.trained = true → t.sent = s.sent ++ hashOut ++ [(5, block x.noncePeer seq typ flags n cychi body)]
        ∧ t.pair.txSeq = (seq + 1) % 2 ^ 32
    let whole (n : Nat) : Prop := n ≤ 4032 ∧ n % 8 = 0
    let refMsg (seq typ src : Nat) (body : List Nat) : List Nat :=
      let h := [typ, src, body.length, 0] ++ leBytes 4 seq ++ body
      let g := h ++ beBytes 16 (tag16 x.keyR h)
      g ++ leBytes 4 (crc32c g)
    let bytes (l : List Nat) : List Byte := l.map (BitVec.ofNat 8)
    let newer (a b : Nat) : Prop := let d := (a + 2 ^ 32 - b) % 2 ^ 32; 1 ≤ d ∧ d < 2 ^ 31
    let active (t : State) (cyc : Nat) : Prop :=
      t.rd R.PAIR_STAT_STATE = 1 ∧ t.rd R.PAIR_STAT_INSTEP = 0 ∧ t.rd R.PAIR_STAT_LOCALIN = 0 ∧ t.rd R.TIER_DISC_STAT_FOLLOW = 0
      ∧ t.pair.items = [] ∧ t.pair.handAt = none ∧ kept t ∧ told t cyc 7 218
    -- the strap and the link
    (∀ k : Fin 4,
        (s.phase = .running → x.strapIn ≠ k.val → Answers (.strapChange k) s fun t =>
          t.rd R.PAIR_STAT_STRAP = strap ∧ t.pair = { x with strapIn := k.val } ∧ kept t ∧ told t s.cycle 7 217)
        ∧ (s.phase ≠ .running ∨ x.strapIn = k.val →
          exec (.strapChange k) s = .next { s with pair := { x with strapIn := k.val } }))
    ∧ (∀ (up : Bool) (mine peer : Nat), Answers (.rioftTraining up mine peer) s fun t =>
        t.pair.trained = up ∧ t.pair.broken = !up ∧ t.pair.nonceOwn = mine ∧ t.pair.noncePeer = peer ∧ t.pair.txSeq = 0
        ∧ t.pair.rxSeq = 0 ∧ kept t ∧ (up = true → t.regs = s.regs ∧ t.evIn = s.evIn)
        ∧ (up = false → t.rd R.PAIR_STAT_RLINK = 0 ∧ (on R.PAIR_STAT_RLINK → told t s.cycle 7 221)))
    ∧ (∀ (body : List Byte) (cychi : Nat) (last : Bool),
        let bs := body.map BitVec.toNat
        let cmd := Instr.rioftBlockSend (.snapshot body cychi last)
        let due := (x.sentAt = tick + 1 → x.sentHi ≠ 59999) ∧ whole bs.length ∧ s.blockDue bs.length cychi last = true
        let left := (sentItems (tick % 2 ^ 32) bs.length bs).bind (s.itemsLeft · cychi)
        (∀ rest, member → st = 1 → x.trained = true → due → left = some rest → Answers cmd s fun t =>
          sends t 1 (b2n last) tick cychi bs ∧ t.pair.taken = rest ∧ t.pair.sentAt = tick + 1 ∧ t.pair.sentHi = cychi
          ∧ t.regs = s.regs ∧ t.cycle = cychi ∧ kept t)
        ∧ (member → st = 1 → due → left = none → exec cmd s = .next (s.setCycle cychi))
        ∧ (¬member ∨ st ≠ 1 ∨ ¬due → exec cmd s = .next s))
    ∧ (pre ≠ [] → Answers (.rioftBlockSend .hash) s fun t =>
        t.sent = s.sent ++ hashOut ∧ t.pair.txSeq = seq ∧ t.pair.hashAt = tick + 1 ∧ t.regs = s.regs ∧ kept t)
    ∧ (pre = [] → exec (.rioftBlockSend .hash) s = .next s)
    ∧ (∀ (flags : Byte) (n arg : Word) (cychi : BitVec 16) (body : List Byte), x.trained = true → x.broken = false → x.rxSeq < 2 ^ 32 →
        whole body.length →
        let bs := body.map BitVec.toNat
        let arrives (typ : Nat) (data : List Nat) : Instr :=
          .rioftBlockReceive (bytes (block x.nonceOwn x.rxSeq typ flags.toNat n.toNat cychi.toNat data))
        let ctl (code : Nat) : List Nat := leBytes 4 code ++ leBytes 4 arg.toNat
        let counted (t : State) : Prop := t.pair.rxSeq = (x.rxSeq + 1) % 2 ^ 32 ∧ t.pair.broken = false ∧ t.cores = s.cores
        Answers (arrives 1 bs) s (fun t =>
          t.pair.items = x.items ++ snapItems n.toNat bs.length bs ∧ t.pair.hiTick = n.toNat + 1 ∧ t.pair.hiCyc = cychi.toNat
          ∧ t.pair.lastK = (if flags.getLsbD 0 then n.toNat else x.lastK) ∧ counted t ∧ t.regs = s.regs ∧ t.mem = s.mem)
        ∧ Answers (arrives 2 bs) s (fun t =>
          t.pair.hashes = ((n.toNat, leAt bs 0 16) :: x.hashes).take 4 ∧ counted t ∧ t.regs = s.regs ∧ t.mem = s.mem)
        ∧ (∀ a : DWord, st = 3 → body.length = 64 → Answers (arrives 3 (leBytes 8 a.toNat ++ bs)) s fun t =>
          memBytes t.mem a.toNat 64 = bs ∧ s.sameBut t a.toNat 64 ∧ counted t ∧ t.regs = s.regs)
        ∧ (st ≠ 3 → Answers (arrives 3 bs) s fun t => counted t ∧ t.regs = s.regs ∧ t.mem = s.mem)
        ∧ (let heard (t : State) : Prop :=
            t.pair.peer = arg.toNat ∧ t.rd R.PAIR_STAT_PEERACT = b2n (decide (arg.toNat % 8 = 1)) ∧ t.pair.stat1 = tick / 10 + 1
            ∧ counted t ∧ t.mem = s.mem
          let joined (j : Nat) : Prop := x.join = some j ∧ st = 1 ∧ j + 1 < tick
          (x.join = none ∨ st ≠ 1 → Answers (arrives 4 (ctl 1)) s fun t => heard t ∧ t.pair.join = x.join)
          ∧ (∀ j, joined j → arg.toNat % 8 = 2 → Answers (arrives 4 (ctl 1)) s fun t =>
            heard t ∧ t.pair.join = none ∧ t.rd R.PAIR_SYNC_PHASE = 3 ∧ told t s.cycle 7 223)
          ∧ (∀ j, joined j → arg.toNat % 8 = 3 → Answers (arrives 4 (ctl 1)) s fun t =>
            heard t ∧ t.pair.join = none ∧ t.pair.passDone = false ∧ t.rd R.PAIR_SYNC_PHASE = 1 ∧ told t s.cycle 7 223))
        ∧ Answers (arrives 4 (ctl 2)) s (fun t => t.pair.handAt = some arg.toNat ∧ counted t ∧ t.regs = s.regs ∧ t.mem = s.mem)
        ∧ Answers (arrives 4 (ctl 3)) s (fun t => t.pair.join = some arg.toNat ∧ counted t ∧ t.regs = s.regs ∧ t.mem = s.mem))
    ∧ (∀ msg : List Byte,
        (x.trained = true → x.broken = false → s.blockSound (msg.map BitVec.toNat) = false → Answers (.rioftBlockReceive msg) s fun t =>
          t.pair = { x with broken := true } ∧ up1 t 65535 R.PAIR_CNTB_LNKERR ∧ kept t)
        ∧ (x.trained = false ∨ x.broken = true → exec (.rioftBlockReceive msg) s = .next s))
    ∧ (member → x.statAt ≠ tick / 10 + 1 → Answers .statusBlockSend s fun t =>
        let h := s.healthWord
        t.rd R.PAIR_HEALTH_HEALTH = h % 2 ^ 32 ∧ t.pair.statAt = tick / 10 + 1 ∧ kept t
        ∧ (st ≠ 5 → sends t 4 0 tick 0 (leBytes 4 1 ++ leBytes 4 h)) ∧ (st = 5 → t.sent = s.sent))
    ∧ (¬member ∨ x.statAt = tick / 10 + 1 → exec .statusBlockSend s = .next s)
    -- the snapshot
    ∧ (∀ it : SnapItem, s.onSnapshot = true → (x.items.filter fun i => i.tick == tick % 2 ^ 32).head? = some it →
        let taken (t : State) : Prop := t.pair.items = x.items.erase it ∧ t.cycle = it.cyc ∧ kept t
        (∀ raw : BitVec 48, it.kind = 1 → s.rd R.DIOP_DIFILT_DIFILT ≤ 1 → Answers (.snapshotItemApply (.din raw)) s fun t =>
          taken t ∧ t.rd R.DIOP_DINLO_DIN = raw.toNat % 2 ^ 32 ∧ t.rd R.DIOP_DINHI_DIN = raw.toNat / 2 ^ 32)
        ∧ (∀ count freq : Word, it.kind = 2 → it.unit < 32 → Answers (.snapshotItemApply (.pulse count freq)) s fun t =>
          taken t ∧ t.rd (R.DIOP_PIp_CNT_CNT it.unit) = count.toNat ∧ t.rd (R.DIOP_PIp_FREQ_FREQ it.unit) = freq.toNat)
        ∧ (∀ count : Word, it.kind = 3 → it.unit < 4 → Answers (.snapshotItemApply (.encoder count)) s fun t =>
          taken t ∧ t.rd (R.AXIS_ENCe_POS_COUNT it.unit) = count.toNat)
        ∧ (∀ la : Byte, it.kind = 3 → Answers (.snapshotItemApply (.loadAngle la)) s fun t =>
          taken t ∧ NMap.get 0 t.pair.angles it.unit = la.toNat ∧ t.regs = s.regs)
        ∧ (∀ code : Fin 8, it.kind = 3 → it.unit < 8 → 1 ≤ code.val → code.val ≤ 5 → s.rd (R.AXIS_aSTAT_FAULT it.unit) = 0 →
          Answers (.snapshotItemApply (.chopper code)) s fun t =>
          taken t ∧ t.rd (R.AXIS_aSTAT_FAULT it.unit) = 1 ∧ t.rd (R.AXIS_aSTAT_FCODE it.unit) = code.val)
        ∧ (∀ (v : Word) (fault : Bool), it.kind = 4 → Answers (.snapshotItemApply (.modulator v fault)) s fun t =>
          taken t ∧ NMap.get 0 t.pair.mods it.unit = v.toNat ∧ (it.unit < 32 → t.inFault it.unit = fault))
        ∧ (∀ (ch : Fin 60) (v : Word) (code : BitVec 18) (listed : Bool), it.kind = 5 →
          Answers (.snapshotItemApply (.conversion ch v code listed)) s fun t =>
          taken t ∧ t.rd (R.ADCS_ACCn_COUNT ch.val)
            = if s.rd R.ADCS_STAT_RUN = 1 then (s.rd (R.ADCS_ACCn_COUNT ch.val) + 1) % 65536 else s.rd (R.ADCS_ACCn_COUNT ch.val))
        ∧ (∀ (o : Fin 3) (d : Fin 16), it.kind = 5 → Answers (.snapshotItemApply (.urgent o d)) s fun t =>
          taken t ∧ toldDuty t it.cyc d.val (if o.val = 0 then 171 else 170)
          ∧ (o.val = 1 → up1 t 65535 R.ADCS_URGST_DROP) ∧ (o.val = 2 → up1 t 255 R.ADCS_URGST_LATE))
        ∧ (∀ v : DWord, it.kind = 10 → Answers (.snapshotItemApply (.load v)) s fun t =>
          taken t ∧ NMap.get [] t.pair.loads it.unit = NMap.get [] x.loads it.unit ++ [v.toNat] ∧ t.regs = s.regs)
        ∧ (∀ d, it.kind ≠ snapKind d → exec (.snapshotItemApply d) s = .next s))
    ∧ (∀ d, s.isStandby = false ∨ (s.onSnapshot = true ∧ ∀ i ∈ x.items, i.tick ≠ tick % 2 ^ 32) →
        exec (.snapshotItemApply d) s = .next s)
    -- local inputs
    ∧ (∀ d (it : LocalIn), s.isStandby = true → s.onSnapshot = false →
        (x.locals.filter fun i => i.tag == tick).head? = some it →
        let taken (t : State) : Prop := t.pair.locals = x.locals.erase it ∧ t.cycle = it.cyc ∧ kept t
        (∀ raw : BitVec 48, it.data = .din raw → s.rd R.DIOP_DIFILT_DIFILT ≤ 1 → Answers (.snapshotItemApply d) s fun t =>
          taken t ∧ t.rd R.DIOP_DINLO_DIN = raw.toNat % 2 ^ 32 ∧ t.rd R.DIOP_DINHI_DIN = raw.toNat / 2 ^ 32)
        ∧ (∀ e : Fin 4, it.data = .encoder e .forward → Answers (.snapshotItemApply d) s fun t =>
          taken t ∧ t.rd (R.AXIS_ENCe_POS_COUNT e.val) = (s.rd (R.AXIS_ENCe_POS_COUNT e.val) + 1) % 2 ^ 32)
        ∧ (∀ (ch : Fin 60) (v : Word) (code : BitVec 18) (y : Option (Fin 16)), it.data = .conversion ch v code y →
          s.rd R.ADCS_STAT_RUN = 1 → Answers (.snapshotItemApply d) s fun t =>
          taken t ∧ t.rd (R.ADCS_ACCn_COUNT ch.val) = (s.rd (R.ADCS_ACCn_COUNT ch.val) + 1) % 65536
          ∧ ∀ z, y = some z → toldDuty t it.cyc z.val 171))
    ∧ (∀ d, s.onSnapshot = false → (∀ i ∈ x.locals, i.tag ≠ tick) → exec (.snapshotItemApply d) s = .next s)
    ∧ (∀ cyc : Nat,
        let fed := x.broken = false ∧ (tick % 2 ^ 32 + 1 < x.hiTick ∨ (x.hiTick = tick % 2 ^ 32 + 1 ∧ cyc ≤ x.hiCyc))
        let starves := s.onSnapshot = true ∧ ¬fed
        (starves → Answers (.starvation cyc) s fun t =>
          t.rd R.PAIR_STAT_LOCALIN = 1 ∧ t.rd R.PAIR_STAT_INSTEP = 0 ∧ up1 t 255 R.PAIR_CNTA_STARVE ∧ t.rd R.PAIR_STAT_STATE = 2
          ∧ t.pair = { x with localAt := tick, items := [], locals :=
              (x.locals.filter fun i => decide (tick < i.tag) || (i.tag == tick && decide (cyc ≤ i.cyc))) } ∧ kept t ∧ told t cyc 7 220)
        ∧ (¬starves → exec (.starvation cyc) s = .next s))
    ∧ (let due := st = 2 ∧ on R.PAIR_STAT_LOCALIN ∧ x.localAt + 10 * s.rd R.PAIR_CFG_LOCALMAX ≤ tick
      (due → Answers .localmaxExpiry s fun t =>
        t.rd R.PAIR_STAT_STATE = 4 ∧ t.rd R.PAIR_STAT_INSTEP = 0 ∧ t.rd R.PAIR_STAT_LOCALIN = 0 ∧ t.pair = x ∧ kept t)
      ∧ (¬due → exec .localmaxExpiry s = .next s))
    -- resynchronisation and the join
    ∧ (s.serves p = true →
        let result (code : Nat) (t : State) : Prop :=
          t.rd R.PAIR_STAT_CERR = code ∧ kept t ∧ toldDuty t p.cyc own 224 ∧ told t p.cyc 7 224
        let turned (code : Nat) (t : State) : Prop := result code t ∧ t.pair = x ∧ t.rd R.PAIR_STAT_STATE = st
        (st = 4 → Answers (.resync p) s fun t => result 0 t ∧ t.pair = { x with sync := true })
        ∧ (st ≠ 4 → Answers (.resync p) s (turned 4))
        -- handover and solo
        ∧ (let h := s.rd R.PAIR_HTICK_H
          let ahead := (h + 2 ^ 32 - tick % 2 ^ 32) % 2 ^ 32
          let good := (tick + ahead) % 1000 = 0 ∧ 1 ≤ ahead ∧ ahead < 2 ^ 31 ∧ tick % 1000 < 990
          (member → st = 1 → good → Answers (.handover p) s fun t =>
            t.pair = { x with handReq := some (tick + ahead, own) } ∧ t.rd R.PAIR_STAT_CERR = 0 ∧ t.evIn = [] ∧ kept t)
          ∧ (member → st = 1 → ¬good → Answers (.handover p) s (turned 2))
          ∧ (¬member ∨ st ≠ 1 → Answers (.handover p) s (turned 1)))
        ∧ (let other := on R.PAIR_STAT_REFPRES ∨ (on R.PAIR_STAT_RLINK ∧ on R.PAIR_STAT_PEERACT)
          (member → st = 0 → ¬other → Answers (.solo p) s fun t => result 0 t ∧ active t p.cyc)
          ∧ (member → st = 0 → other → Answers (.solo p) s (turned 5))
          ∧ (¬member ∨ st ≠ 0 → Answers (.solo p) s (turned 6)))
        ∧ (∀ relA relB : Bool, Answers (.fenceRelease p relA relB) s fun t =>
            t.rd R.PAIR_RSTAT_FENCEA = (if relA && decide (st = 7) then 0 else s.rd R.PAIR_RSTAT_FENCEA)
            ∧ t.rd R.PAIR_RSTAT_FENCEB = (if relB && decide (st = 7) then 0 else s.rd R.PAIR_RSTAT_FENCEB)
            ∧ t.rd R.PAIR_RSTAT_VIEW = s.rd R.PAIR_RSTAT_VIEW ∧ t.pair = x ∧ t.evIn = [] ∧ kept t)
        -- the seals
        ∧ (∀ r, s.phase = .running → Answers (.pairSeal p r) s fun t =>
            t.coll = s.coll ∧ t.pair = x ∧ kept t ∧ toldDuty t p.cyc own 227)
        ∧ (∀ w : Word, s.phase ≠ .running →
          (s.coll = [(R.PAIR_CFG, w)] →
            (s.pairCode = 0 → Answers (.pairSeal p false) s fun t =>
              t.rd R.PAIR_CFG_LOCALMAX = w.toNat / 2 ^ 13 % 256 ∧ t.rd R.PAIR_CFG_KSLOT = w.toNat % 64 ∧ t.rd R.PAIR_SEAL_ERR = 0
              ∧ t.coll = [] ∧ kept t ∧ t.pair = { x with sealedP := true, keyL := (s.keyTransfer (w.toNat % 64) 1).getD 0,
                                                         keyR := (s.keyTransfer (w.toNat / 64 % 64) 1).getD 0 })
            ∧ (s.pairCode ≠ 0 → Answers (.pairSeal p false) s fun t =>
              t.rd R.PAIR_CFG_LOCALMAX = s.rd R.PAIR_CFG_LOCALMAX ∧ t.rd R.PAIR_SEAL_ERR = s.pairCode ∧ t.coll = [] ∧ t.pair = x
              ∧ kept t ∧ toldDuty t p.cyc own 227))
          ∧ (s.coll = [(R.PAIR_RCFG, w)] → s.pairRCode = 0 → Answers (.pairSeal p true) s fun t =>
            t.rd R.PAIR_RCFG_MISSN = w.toNat % 16 ∧ t.rd R.PAIR_RCFG_HWFN = w.toNat / 16 % 16
            ∧ t.rd R.PAIR_RSEAL_ERR = 0 ∧ t.coll = [] ∧ t.pair = { x with sealedR := true } ∧ kept t)))
    ∧ (∀ (lines : List Byte) (done : Bool) (dirty : BitVec 21),
        let copies := member ∧ st = 1 ∧ x.peer % 8 = 3 ∧ s.rd R.PAIR_SYNC_PHASE ≠ 2 ∧ lines.length % 72 = 0 ∧ whole lines.length
        (copies → Answers (.resyncCopyPass lines done dirty) s fun t =>
          t.rd R.PAIR_SYNC_PHASE = 1 ∧ t.rd R.PAIR_SYNC_DIRTY = dirty.toNat ∧ sends t 3 0 tick 0 (lines.map BitVec.toNat) ∧ kept t
          ∧ (done = true → up1 t 255 R.PAIR_SYNC_PASSES ∧ t.pair.passDone = true)
          ∧ (s.rd R.PAIR_SYNC_PHASE ≠ 1 → told t s.cycle 7 223))
        ∧ (¬copies → exec (.resyncCopyPass lines done dirty) s = .next s))
    ∧ (∀ dirty mram : Nat,
        let joins := member ∧ st = 1 ∧ tick % 1000 = 0 ∧ s.rd R.PAIR_SYNC_PHASE = 1 ∧ x.passDone = true ∧ dirty ≤ 512 ∧ mram ≤ 64
        (joins → Answers (.freezeJoin dirty mram) s fun t =>
          t.rd R.PAIR_SYNC_PHASE = 2 ∧ t.rd R.PAIR_SYNC_DIRTY = dirty ∧ t.pair.join = some tick ∧ sends t 4 0 tick 0 (leBytes 4 3 ++ leBytes 4 tick) ∧ kept t
          ∧ told t 0 7 223)
        ∧ (¬joins → exec (.freezeJoin dirty mram) s = .next s))
    ∧ (∀ (ok : Bool) (y : Body) (j : Nat),
        (st = 3 → x.join = some j → ok = true → j = y.tick.toNat % 2 ^ 32 → y.evIn = [] → Answers (.joinApply ok y) s fun t =>
          t.rd R.PAIR_STAT_STATE = 2 ∧ t.rd R.PAIR_STAT_INSTEP = 1 ∧ t.rd R.PAIR_STAT_LOCALIN = 0 ∧ t.rd R.PAIR_SYNC_PHASE = 3
          ∧ t.rd R.TIER_DISC_STAT_FOLLOW = 1 ∧ t.tick = y.tick ∧ t.cores = y.cores ∧ t.tier = y.tier ∧ t.loops = y.loops
          ∧ t.can = y.can ∧ t.metr = { y.metr with ownFault := s.metr.ownFault, stream := s.metr.stream }
          ∧ t.adcs = { y.adcs with done := s.adcs.done, urg := s.adcs.urg, held := none } ∧ t.trst = s.trst ∧ t.rtcb = s.rtcb ∧ t.bnch = s.bnch
          ∧ t.pair.join = none ∧ t.cycle = 0
          ∧ (Memory.wf s.mem = true → ∀ a, memRead t.mem a 1 = if ownMram a then memRead s.mem a 1 else memRead y.mem a 1))
        ∧ (st = 3 → x.join = some j → (ok = false ∨ j ≠ y.tick.toNat % 2 ^ 32) → Answers (.joinApply ok y) s fun t =>
          up1 t 255 R.PAIR_CNTA_JOINAB ∧ t.rd R.PAIR_SYNC_PHASE = 1 ∧ t.rd R.PAIR_STAT_STATE = 3
          ∧ t.pair = { x with join := none, passDone := false } ∧ kept t ∧ told t s.cycle 7 223)
        ∧ (st ≠ 3 ∨ x.join = none → exec (.joinApply ok y) s = .next s))
    ∧ (∀ h d, x.handReq = some (h, d) →
        let fit := on R.PAIR_STAT_RLINK ∧ x.peer % 8 = 2 ∧ x.peer.testBit 6 = true ∧ x.peer.testBit 7 = false
        (h ≤ tick → st = 1 → fit → Answers .handoverAtH s fun t =>
          sends t 4 0 tick 0 (leBytes 4 2 ++ leBytes 4 h) ∧ t.rd R.PAIR_STAT_STATE = 3 ∧ t.rd R.PAIR_STAT_CERR = 0
          ∧ t.rd R.PAIR_SYNC_PHASE = 1 ∧ t.rd R.TIER_DISC_STAT_FOLLOW = 1 ∧ t.pair.handReq = none
          ∧ (∀ q, q < 16 → (t.core q).on = false) ∧ t.mem = s.mem ∧ toldDuty t 0 d 224 ∧ told t 0 7 223)
        ∧ (h ≤ tick → (st ≠ 1 ∨ ¬fit) → Answers .handoverAtH s fun t =>
          t.rd R.PAIR_STAT_CERR = 3 ∧ t.rd R.PAIR_STAT_STATE = st ∧ t.pair = { x with handReq := none } ∧ kept t ∧ toldDuty t 0 d 224)
        ∧ (tick < h → exec .handoverAtH s = .next s))
    ∧ (x.handReq = none → exec .handoverAtH s = .next s)
    ∧ (∀ h, x.handAt = some h →
        (st = 2 → h = tick % 2 ^ 32 → Answers .handoverReceive s fun t => active t 0)
        ∧ (st ≠ 2 ∨ h ≠ tick % 2 ^ 32 → exec .handoverReceive s = .next s))
    ∧ (let starts := strap = 1 ∧ s.phase = .running ∧ st = 0 ∧ ¬on R.PAIR_STAT_REFPRES ∧ on R.PAIR_STAT_RLINK
        ∧ ¬on R.PAIR_STAT_PEERACT ∧ x.noRef + 300 ≤ tick + 1
      (starts → Answers .refereeAbsentStart s fun t => active t s.cycle) ∧ (¬starts → exec .refereeAbsentStart s = .next s))
    ∧ (∀ b : Bool,
        let fences := b = true ∧ member ∧ s.phase = .running ∧ st ≠ 5
        (fences → Answers (.fenceInput b) s fun t =>
          t.rd R.PAIR_STAT_FENCEIN = 1 ∧ t.rd R.PAIR_STAT_STATE = 5 ∧ kept t ∧ ∀ d, toldDuty t s.cycle d 216)
        ∧ (¬fences → Answers (.fenceInput b) s fun t =>
          t.rd R.PAIR_STAT_FENCEIN = b2n b ∧ t.rd R.PAIR_STAT_STATE = st ∧ t.evIn = s.evIn ∧ t.pair = x ∧ kept t))
    -- the referee link at a member
    ∧ (∀ (seq : Word) (body : List Byte), body.length < 256 → member → x.sealedP = true → x.sealedR = true → s.phase ≠ .off →
        (newer seq.toNat x.refSeq ∨ x.refSeen = 0 ∨ x.refSeen + 30 ≤ tick + 1) →
        let heard (t : State) : Prop := t.pair.refSeq = seq.toNat ∧ t.pair.refSeen = tick + 1 ∧ kept t
        Answers (.heart (bytes (refMsg seq.toNat 1 0 (body.map BitVec.toNat)))) s (fun t =>
          let h := t.healthWord
          t.sent = s.sent ++ [(6, refMsg ((x.msgSeq + 1) % 2 ^ 32) 2 strap
            (leBytes 4 seq.toNat ++ leBytes 4 tick ++ leBytes 4 h ++ leBytes 4 (s.rd R.PAIR_KLAST_KLAST)))]
          ∧ t.pair.msgSeq = (x.msgSeq + 1) % 2 ^ 32 ∧ t.pair.heart = t.pair.msgSeq ∧ t.pair.pollAt = tick + 1
          ∧ t.rd R.PAIR_STAT_REFPRES = 1 ∧ t.rd R.PAIR_HEALTH_HEALTH = h % 2 ^ 32 ∧ heard t
          ∧ (¬on R.PAIR_STAT_REFPRES → told t s.cycle 7 222))
        ∧ (s.phase = .running → x.heart < 2 ^ 32 →
          let cmd (code : Nat) : List Byte := bytes (refMsg seq.toNat 3 0 ([code, strap, 0, 0] ++ leBytes 4 x.heart))
          let takes (code : Nat) (t : State) : Prop := t.pair.role = some code ∧ heard t ∧ t.regs = s.regs
          Answers (.assignActive (cmd 1)) s (takes 1) ∧ Answers (.assignStandby (cmd 2)) s (takes 2)
          ∧ (st = 2 → Answers (.takeover (cmd 3)) s (takes 3))
          ∧ (st ≠ 2 → Answers (.takeover (cmd 3)) s fun t =>
            t.pair.role = x.role ∧ up1 t 255 R.PAIR_CNTB_TKREF ∧ heard t ∧ told t s.cycle 7 224)))
    ∧ (∀ msg : List Byte, s.mayAnswer = false → exec (.heart msg) s = .next s ∧ exec (.assignActive msg) s = .next s
        ∧ exec (.assignStandby msg) s = .next s ∧ exec (.takeover msg) s = .next s)
    -- the referee
    ∧ (st = 7 → tick % 10 = 0 → x.pollAt ≠ tick + 1 → Answers .poll s fun t =>
        let n := (x.msgSeq + 1) % 2 ^ 32
        let m := refMsg n 1 0 ([s.rd R.PAIR_RSTAT_VIEW + 4 * s.rd R.PAIR_RSTAT_FENCEA + 8 * s.rd R.PAIR_RSTAT_FENCEB, 0, 0, 0]
          ++ leBytes 4 tick)
        t.sent = s.sent ++ [(6, m), (7, m)] ∧ t.pair.poll = n ∧ t.pair.msgSeq = n ∧ t.pair.pollAt = tick + 1 ∧ t.pair.memA = { x.memA with answered := false }
        ∧ t.pair.memB = { x.memB with answered := false } ∧ t.cycle = 1536 ∧ t.regs = s.regs ∧ kept t)
    ∧ (st ≠ 7 ∨ tick % 10 ≠ 0 ∨ x.pollAt = tick + 1 → exec .poll s = .next s)
    ∧ (∀ (b : Bool) (seq echo n health klast : Word),
        let m := if b then x.memB else x.memA
        st = 7 → (newer seq.toNat m.seq ∨ m.seen = 0 ∨ m.seen + 30 ≤ tick + 1) →
        Answers (.heartReceive b (bytes (refMsg seq.toNat 2 (b2n b + 1)
          (leBytes 4 echo.toNat ++ leBytes 4 n.toNat ++ leBytes 4 health.toNat ++ leBytes 4 klast.toNat)))) s fun t =>
        (if b then t.pair.memB else t.pair.memA)
          = { m with seq := seq.toNat, seen := tick + 1, health := health.toNat,
                     answered := m.answered || decide (echo.toNat = x.poll ∧ tick % 10 ≤ 3) }
        ∧ t.rd (if b then R.PAIR_RSTAT_STATEB else R.PAIR_RSTAT_STATEA) = health.toNat % 8
        ∧ (if b then t.pair.memA else t.pair.memB) = (if b then x.memA else x.memB) ∧ kept t)
    ∧ (∀ b msg, st ≠ 7 → exec (.heartReceive b msg) s = .next s)
    ∧ (∀ fbA fbB : Bool,
        let cmd := Instr.refereeEvaluation fbA fbB
        let view := s.rd R.PAIR_RSTAT_VIEW
        let mem (t : State) (k : Nat) : RefMember := if k = 0 then t.pair.memA else t.pair.memB
        let claims (k state : Nat) : Prop := (mem s k).answered = true ∧ (mem s k).health % 8 = state
        let order (n code k : Nat) : Nat × List Nat :=
          (6 + k, refMsg ((x.msgSeq + n) % 2 ^ 32) 3 0 ([code, k + 1, 0, 0] ++ leBytes 4 (mem s k).seq))
        st = 7 → tick % 10 = 5 → x.evalAt ≠ tick + 1 → 1 ≤ s.rd R.PAIR_RCFG_MISSN →
        -- the recorded active and a healthy standby answer
        (∀ r, r < 2 → view = r + 1 → claims r 1 → claims (1 - r) 2 → (mem s r).health.testBit 3 = false →
          (mem s (1 - r)).health.testBit 3 = false → Answers cmd s fun t =>
          t.rd R.PAIR_RSTAT_VIEW = view ∧ t.sent = s.sent ∧ t.rd R.PAIR_RSTAT_PRESA = 1 ∧ t.rd R.PAIR_RSTAT_PRESB = 1
          ∧ t.rd (fenceF 0) = s.rd (fenceF 0) ∧ t.rd (fenceF 1) = s.rd (fenceF 1) ∧ (mem t 0).missed = 0 ∧ (mem t 1).missed = 0
          ∧ t.cycle = 0 ∧ kept t)
        -- the recorded active has missed its polls and the standby answers
        ∧ (∀ r, r < 2 → view = r + 1 → (mem s r).answered = false → s.rd R.PAIR_RCFG_MISSN ≤ (mem s r).missed + 1 →
          (mem s r).health.testBit 13 = false → claims (1 - r) 2 → s.rd (fenceF r) = 0 → Answers cmd s fun t =>
          t.rd (fenceF r) = 1 ∧ up1 t 255 R.PAIR_RCNT_FENCES ∧ told t 0 7 225 ∧ kept t
          ∧ (if (if r = 0 then fbA else fbB) then
              t.sent = s.sent ++ [order 1 3 (1 - r)] ∧ t.rd R.PAIR_RSTAT_VIEW = 2 - r ∧ up1 t 255 R.PAIR_RCNT_FAILOVERS
            else t.sent = s.sent ∧ t.rd R.PAIR_RSTAT_VIEW = view ∧ t.rd R.PAIR_RCNT_FAILOVERS = s.rd R.PAIR_RCNT_FAILOVERS))
        -- both start
        ∧ (view = 0 → claims 0 0 → claims 1 0 → Answers cmd s fun t =>
          let f := s.rd R.PAIR_RCFG_PREF
          t.sent = s.sent ++ [order 1 1 f, order 2 2 (1 - f)] ∧ t.rd R.PAIR_RSTAT_VIEW = 0 ∧ told t 0 7 225 ∧ kept t))
    ∧ (∀ fbA fbB, st ≠ 7 ∨ tick % 10 ≠ 5 ∨ x.evalAt = tick + 1 → exec (.refereeEvaluation fbA fbB) s = .next s)

/-- The trust core's requests (R507 to R533): from the setup of a kick-off on, the request in front is carried out on its block and IN,
its answer kept with it and OUT written; a signed command is judged by its signature, its target and its sequence number; the end of a
request. The cryptographic functions are the model's own of the standards the rules name (notes/assumptions/44). -/
def Obligations.TrustRequests : Prop :=
  ∀ (s : State) (r : TrReq) (rest : List TrReq),
    let x := s.trst
    let told (t : State) (d e : Nat) : Prop :=
      d < 16 → s.isTarget d = true → ⟨60000 * s.tick.toNat + s.cycle + 2, d, e⟩ ∈ t.evIn
    let toldSup (t : State) (e : Nat) : Prop := ∀ d, d ∈ s.dutiesOf 7 → told t d e
    let up1 (t : State) (f : FieldRef) : Prop := t.rd f = min 255 (s.rd f + 1)
    -- the request in front: its block, its input, its room for output
    let field (o n : Nat) : Nat := memRead s.mem (r.addr + o) n
    let arg0 := field 4 4
    let arg1 := field 8 4
    let src := field 12 4
    let len := field 16 4
    let out := field 20 4
    let loadid := field 32 2
    let chk := field 34 1 = 1
    let runs := s.phase = .setup ∨ s.phase = .ready ∨ s.phase = .running
    let asks (code : Nat) : Prop :=
      runs ∧ x.queue = r :: rest ∧ r.code = code ∧ r.fin = none ∧ r.addr % 8 = 0 ∧ (∀ k, k < 8 → s.wordMark (r.addr / 8 + k) = .clean)
      ∧ (∀ k, 35 ≤ k → k < 64 → field k 1 = 0)
    let fair (code : Nat) : Prop := asks code ∧ field 34 1 ≤ 1
    let clean (a n : Nat) : Prop := ∀ w, a / 8 ≤ w → w < a / 8 + (n + 7) / 8 → s.wordMark w = .clean
    let given (bs : List Nat) : Prop :=
      src % 8 = 0 ∧ memBytes s.mem src len = bs ∧ (¬chk → clean src len ∧ src + len ≤ 0x800000)
      ∧ (chk → src + 8 * ((len + 7) / 8) + 8 ≤ 0x800000
        ∧ s.buffer true src ((List.range ((len + 7) / 8)).map fun j => memRead s.mem (src + 8 * j) 8))
    let span (n : Nat) : Nat := if chk then 8 * ((n + 7) / 8) + 8 else n
    let room (n : Nat) : Prop := out % 8 = 0 ∧ span n ≤ field 24 4 ∧ out + span n ≤ 0x800000 ∧ clean out n
    let ends (t : State) (status n : Nat) (lid : Option Nat) : Prop :=
      t.trst.queue = { r with fin := some (status, n, lid) } :: rest
    let quiet (t : State) (status : Nat) : Prop := ends t status 0 none ∧ t.mem = s.mem ∧ t.cores = s.cores
    let writes (t : State) (bs : List Nat) : Prop :=
      ends t 0 bs.length none ∧ memBytes t.mem out bs.length = bs ∧ s.sameBut t out (span bs.length) ∧ t.cores = s.cores
      ∧ (chk → memRead t.mem (out + 8 * ((bs.length + 7) / 8)) 8
          = carryWord ((List.range ((bs.length + 7) / 8)).map fun j => memRead t.mem (out + 8 * j) 8))
    let same (t : State) : Prop := t.trst = { x with queue := t.trst.queue }
    let empties (t : State) : Prop :=
      t.trst.work = none ∧ t.rd R.TRST_STAT_KVALID = 0 ∧ ∀ k, x.work = some k → told t k.duty 234
    -- requests that use no key
    ((fair 1 → room 133 →
        (s.rd R.TRST_STAT_ROOTOK = 1 → x.owner ≠ [] → Answers .ident s fun t => writes t s.identityPub ∧ same t)
        ∧ (s.rd R.TRST_STAT_ROOTOK = 0 → Answers .ident s fun t => quiet t 4 ∧ same t)
        ∧ (s.rd R.TRST_STAT_ROOTOK = 1 → x.owner = [] → Answers .ident s fun t => quiet t 12 ∧ same t))
      ∧ (∀ bs, fair 2 → given bs →
        let may := (arg0 = 1 ∧ s.phase ≠ .running) ∨ (3 ≤ arg0 ∧ arg0 ≤ 7)
        (may → Answers .measure s fun t =>
          t.mr arg0 = sha512 (beBytes 64 (s.mr arg0) ++ beBytes 64 (sha512 bs)) ∧ (∀ k, k ≠ arg0 → t.mr k = s.mr k) ∧ quiet t 0)
        ∧ (¬may → Answers .measure s fun t => quiet t 1 ∧ same t))
      ∧ (fair 3 → room 512 → Answers .readmr s fun t =>
        writes t ((List.range 8).flatMap fun k => beBytes 64 (s.mr k)) ∧ same t)
      ∧ (∀ bs, fair 5 → given bs → len = 64 → s.rd R.TRST_STAT_ROOTOK = 1 → x.owner ≠ [] → room 960 → Answers .attest s fun t =>
        writes t (s.statement bs ++ ecdsaSign s.identityKey (s.statement bs) ++ List.replicate 20 0) ∧ same t))
    -- the working key
    ∧ ((fair 6 → arg0 < 64 → s.rd R.TRST_STAT_ROOTOK = 1 → s.rd (R.TRST_SLOTs_STATE arg0) = 1 → Answers .keyload s fun t =>
        match s.openSlot arg0 with
        | some c => t.trst.work = some ⟨c.key, c.typ, arg0, c.use, r.ticket, r.duty⟩ ∧ ends t 0 0 (some r.ticket)
            ∧ t.rd R.TRST_STAT_KVALID = 1 ∧ t.rd R.TRST_STAT_KTYPE = c.typ % 4 ∧ t.mem = s.mem ∧ t.cores = s.cores
            ∧ ∀ k, x.work = some k → told t k.duty 234
        | none => quiet t 9 ∧ same t ∧ toldSup t 230)
      ∧ (fair 6 → s.rd R.TRST_STAT_ROOTOK = 1 → (64 ≤ arg0 ∨ s.rd (R.TRST_SLOTs_STATE arg0) = 0) →
        Answers .keyload s fun t => quiet t 8 ∧ same t)
      ∧ (∀ bs, fair 7 → given bs → 1 ≤ arg0 → arg0 ≤ 3 → arg1 ≤ 255 → s.rd R.TRST_STAT_ROOTOK = 1 →
        (1 ≤ len → len ≤ 256 → Answers .derive s fun t =>
          t.trst.work = some ⟨s.deriveKey arg0 arg1 bs, arg0, 255, 0xFF, r.ticket, r.duty⟩ ∧ ends t 0 0 (some r.ticket)
          ∧ t.rd R.TRST_STAT_KVALID = 1 ∧ t.rd R.TRST_STAT_KTYPE = arg0 ∧ t.mem = s.mem ∧ t.cores = s.cores
          ∧ ∀ k, x.work = some k → told t k.duty 234)
        ∧ (len = 0 ∨ 256 < len → Answers .derive s fun t => quiet t 17 ∧ same t))
      ∧ (fair 14 → Answers .clear s fun t => empties t ∧ quiet t 0)
      ∧ (∀ k bs, x.work = some k →
        let fits (typ bit : Nat) : Prop := k.typ = typ ∧ k.use.testBit bit = true ∧ k.loadid = loadid
        let text (nonce aad l : List Nat) : List Nat := nonce ++ leBytes 4 aad.length ++ aad ++ l
        (fair 8 → given bs → room 64 →
          (fits 2 3 → Answers .trustMac s fun t => writes t (beBytes 64 (hmac512 k.key bs)) ∧ same t)
          ∧ (k.typ ≠ 2 ∨ k.use.testBit 3 = false → Answers .trustMac s fun t => quiet t 10 ∧ same t)
          ∧ (k.typ = 2 → k.use.testBit 3 = true → k.loadid ≠ loadid → Answers .trustMac s fun t => quiet t 11 ∧ same t))
        ∧ (∀ nonce aad l, fair 9 → given (text nonce aad l) → nonce.length = 12 → fits 1 2 → room (l.length + 16) →
          Answers .seala s fun t =>
          let c := gcmCrypt k.key (beNat nonce) l
          writes t (c ++ beBytes 16 (gcmTag k.key (beNat nonce) aad c)) ∧ same t)
        ∧ (∀ nonce aad c tag, fair 10 → given (text nonce aad (c ++ tag)) → nonce.length = 12 → tag.length = 16 → fits 1 2 →
          c ≠ [] → room c.length → Answers .opena s fun t =>
          if gcmTag k.key (beNat nonce) aad c = beNat tag then writes t (gcmCrypt k.key (beNat nonce) c) ∧ same t
          else quiet t 13 ∧ same t ∧ up1 t R.TRST_CNT_GCMFAIL)
        ∧ (fair 11 → given bs → room 132 → fits 3 4 → Answers .sign s fun t => writes t (ecdsaSign k.key bs) ∧ same t)))
    -- slots
    ∧ (fair 13 →
        (arg0 < 64 → s.rd R.TRST_STAT_ROOTOK = 1 → s.slotGen arg0 < 0xFFFFFFFE → Answers (.destroy .done) s fun t =>
          t.rd (R.TRST_SLOTs_STATE arg0) = 0 ∧ t.slotCopy (4 * arg0 + 1 - s.writeTo arg0) = SlotCopy.zero
          ∧ t.slotCopy (s.writeTo arg0)
              = { SlotCopy.zero with gen := s.slotGen arg0 + 1, wrap := s.wrapKey arg0 0 }
          ∧ (∀ k, x.work = some k → if k.slot = arg0 then empties t else t.trst.work = x.work) ∧ quiet t 0)
        ∧ (64 ≤ arg0 → Answers (.destroy .done) s fun t => quiet t 8 ∧ same t)
        ∧ (arg0 < 64 → s.rd R.TRST_STAT_ROOTOK = 0 → Answers (.destroy .done) s fun t => quiet t 4 ∧ same t)
        ∧ (arg0 < 64 → s.rd R.TRST_STAT_ROOTOK = 1 → s.slotGen arg0 < 0xFFFFFFFE →
          Answers (.destroy .failed) s fun t => quiet t 15 ∧ same t))
    -- signed commands
    ∧ (∀ bs, given bs → envLaid bs = true → x.owner ≠ [] →
        let seq := beAt bs 8 8
        let target := beAt bs 16 32
        let p := slice bs 64 (beAt bs 4 4)
        let judged (t : State) (accepted : Prop) : Prop :=
          if ecdsaVerify x.owner (bs.take (bs.length - 132)) (bs.drop (bs.length - 132)) = false then
            quiet t 5 ∧ same t ∧ up1 t R.TRST_CNT_SIGFAIL ∧ toldSup t 231
          else if target ≠ 0 ∧ target ≠ s.identityHash then quiet t 7 ∧ same t
          else if seq ≤ x.cseq then quiet t 6 ∧ same t ∧ up1 t R.TRST_CNT_REPLAY ∧ toldSup t 231
          else t.trst.cseq = seq ∧ accepted
        s.rd R.TRST_STAT_ROOTOK = 1 →
        (fair 4 → room p.length → p ≠ [] → Answers (.trustVerify .done) s fun t => judged t (writes t p))
        ∧ (∀ gs, fair 15 → 8 ≤ p.length → codeSegs (beAt p 4 4) (p.drop 8) = some gs → x.svnMin ≤ beAt p 0 4 →
          (∀ g, gs = [g] → s.segOk g = true → Answers (.codeload .done) s fun t => judged t (
            t.mr 2 = sha512 (beBytes 64 (s.mr 2) ++ beBytes 64 (sha512 bs)) ∧ ends t 0 0 none ∧ t.mem = s.mem
            ∧ (∀ i, i < g.words.length → memRead (t.core (s.physOf g.core)).imem (4 * (g.start + i)) 4 = g.words.getD i 0)
            ∧ (∀ q, q ≠ s.physOf g.core → t.core q = s.core q)))
          ∧ (¬(∀ g ∈ gs, s.segOk g = true) → Answers (.codeload .done) s fun t => judged t (quiet t 18)))
        ∧ (target ≠ 0 →
          let typ := beAt p 133 1
          let klen := beAt p 134 1
          (fair 12 → arg0 < 64 → 1 ≤ typ → typ ≤ 3 → klen = (if typ = 1 then 32 else if typ = 2 then 64 else 66) →
            beAt p 136 1 < 32 → p.length = 153 + klen → s.slotGen arg0 < 0xFFFFFFFE → Answers (.importKey .done) s fun t =>
            judged t (match s.importedKey arg0 p klen with
              | none => quiet t 13 ∧ up1 t R.TRST_CNT_GCMFAIL
              | some key => t.slotCopy (s.writeTo arg0) = ⟨typ, klen, beAt p 135 1, beAt p 136 1, s.slotGen arg0 + 1, key,
                    s.wrapKey arg0 (beAt p 135 1), false⟩
                  ∧ t.rd (R.TRST_SLOTs_STATE arg0) = 1 ∧ t.rd (R.TRST_SLOTs_TYPE arg0) = typ
                  ∧ (∀ k, x.work = some k → if k.slot = arg0 then empties t else t.trst.work = x.work) ∧ quiet t 0))
          ∧ (fair 16 → p.length = 133 → p.head? = some 4 → Answers (.owner .done) s fun t =>
            judged t (t.trst.owner = p ∧ t.trst.ecnt = x.ecnt + 1 ∧ t.trst.enonce = sha512 (p ++ beBytes 4 (x.ecnt + 1))
              ∧ t.rd R.TRST_STAT_ENROL = 1 ∧ empties t ∧ toldSup t 233 ∧ quiet t 0))
          ∧ (fair 17 → Answers (.release .done) s fun t =>
            judged t (t.trst.owner = [] ∧ (∀ k, k < 64 → t.rd (R.TRST_SLOTs_STATE k) = 0) ∧ t.rd R.TRST_STAT_ENROL = 0
              ∧ empties t ∧ toldSup t 233 ∧ quiet t 0))))
    -- every request
    ∧ (∀ c code, (c, code) ∈ [(Instr.ident, 1), (.measure, 2), (.readmr, 3), (.trustVerify .done, 4), (.attest, 5), (.keyload, 6),
          (.derive, 7), (.trustMac, 8), (.seala, 9), (.opena, 10), (.sign, 11), (.importKey .done, 12), (.destroy .done, 13),
          (.clear, 14), (.codeload .done, 15), (.owner .done, 16), (.release .done, 17)] →
        (¬runs ∨ x.queue = [] ∨ (x.queue = r :: rest ∧ (r.code ≠ code ∨ r.fin ≠ none)) → exec c s = .next s)
        ∧ (asks code → 2 ≤ field 34 1 → Answers c s fun t => quiet t 1 ∧ same t))
    ∧ (∀ w, w = TrustWrite.cut1 ∨ w = TrustWrite.cut2 → ∀ c ∈ [Instr.trustVerify w, .importKey w, .destroy w, .codeload w, .owner w,
          .release w], Answers c s fun t => t.trst.queue = x.queue)
    -- the end of a request
    ∧ (∀ status n lid, runs → x.queue = r :: rest → r.fin = some (status, n, lid) → r.addr % 8 = 0 →
        (∀ k, k < 8 → s.wordMark (r.addr / 8 + k) = .clean) → Answers .trustRequestComplete s fun t =>
        memRead t.mem r.addr 4 = (status + 65536) % 2 ^ 32 ∧ memRead t.mem (r.addr + 28) 4 = n % 2 ^ 32
        ∧ memRead t.mem (r.addr + 32) 2 = lid.elim (memRead s.mem (r.addr + 32) 2) (· % 65536) ∧ s.sameBut t r.addr 64
        ∧ t.trst = { x with queue := rest } ∧ t.rd R.TRST_STAT_NREQ = rest.length % 16 ∧ told t r.duty 228
        ∧ (status ≠ 0 → told t r.duty 229 ∧ toldSup t 229) ∧ t.cores = s.cores)
    ∧ (¬runs ∨ x.queue = [] ∨ (x.queue = r :: rest ∧ r.fin = none ∧ 1 ≤ r.code ∧ r.code ≤ 17) → exec .trustRequestComplete s = .next s)

/-- The recorder, the monitors and the bench (R534 to R552): a record written to its slot with its five stores, or cut short by a
store that fails; program records, which follow those of automatic sources that entered in their cycle; samples and seals of a monitor;
measurements of wear, requests, what a pair tells each other, and the substitutions of the bench. -/
def Obligations.RecorderMonitorAndBenchCommands : Prop :=
  ∀ (s : State) (p : Port), s.evIn = [] →
    let kept (t : State) : Prop := t.mem = s.mem ∧ t.cores = s.cores
    let tick := s.tick.toNat
    let told (t : State) (cyc part e : Nat) : Prop :=
      ∀ y, y < 16 → y ∈ s.dutiesOf part → s.isTarget y = true → ⟨60000 * tick + cyc + 2, y, e⟩ ∈ t.evIn
    let own := s.dutyOf p.core.val
    let toldOwn (t : State) (e : Nat) : Prop :=
      own < 16 → s.isTarget own = true → ⟨60000 * tick + p.cyc + 2, own, e⟩ ∈ t.evIn
    let up1 (t : State) (top : Nat) (f : FieldRef) : Prop := t.rd f = min top (s.rd f + 1)
    let settled := ∀ w ∈ s.wrote, w.t ≠ 60000 * tick + p.cyc
    -- the recorder
    (∀ (x : Rec) (rest : List Rec), s.recd.queue = x :: rest →
        let seq := s.rd R.RECD_NEXT_NEXT
        let a := 0x20C00000 + 32 * (seq % 131072)
        let body := leBytes 2 x.code ++ leBytes 1 x.source ++ leBytes 1 x.cls ++ leBytes 4 seq ++ leBytes 8 x.time
          ++ leBytes 4 x.tick ++ leBytes 4 x.p0 ++ leBytes 4 x.p1
        (s.recd.lost = 0 → Answers (.recordWrite none) s fun t =>
          memBytes t.mem a 32 = body ++ leBytes 2 (crc32c body) ++ [seq / 2 ^ 17 % 256, 0xA5] ∧ s.sameBut t a 32
          ∧ t.rd R.RECD_NEXT_NEXT = (seq + 1) % 2 ^ 32 ∧ t.recd.queue = rest ∧ t.rd R.RECD_STAT_QLEN = rest.length % 128
          ∧ t.cores = s.cores)
        ∧ (s.recd.lost ≠ 0 → rest.length < 64 → Answers (.recordWrite none) s fun t =>
          (∃ y, t.recd.queue = rest ++ [y] ∧ y.code = 0xFFFF ∧ y.p0 = s.recd.lost) ∧ t.recd.lost = 0
          ∧ t.rd R.RECD_NEXT_NEXT = (seq + 1) % 2 ^ 32 ∧ t.cores = s.cores)
        ∧ (∀ k : Fin 5, Answers (.recordWrite (some k)) s fun t =>
          memRead t.mem (a + 24) 8 = 0 ∧ s.sameBut t a 32 ∧ up1 t 255 R.RECD_STAT_WFAIL
          ∧ t.rd R.RECD_NEXT_NEXT = (seq + 1) % 2 ^ 32 ∧ t.cores = s.cores ∧ told t s.cycle 7 237))
    ∧ (∀ k, s.recd.queue = [] → exec (.recordWrite k) s = .next s)
    ∧ (s.serves p = true → settled →
        let c := s.core p.core.val
        let code := c.wcode.toNat % 65536
        let en := s.rd R.RECD_CTRL_EN = 1 ∧ 0x100 ≤ code ∧ code ≤ 0xFEFF
        let made (y : Rec) : Prop := y.code = code ∧ y.source = 0x40 + own ∧ y.p0 = c.wp0.toNat ∧ y.p1 = c.wp1.toNat
          ∧ y.tick = tick % 2 ^ 32 ∧ y.cls % 8 = c.wcode.toNat / 65536 % 8
        let fresh := s.recd.since = 60000 * tick + p.cyc ∧ 0 < s.recd.fresh
        (en → ¬fresh → s.recd.queue.length < 64 → Answers (.programRecord p) s fun t =>
          (∃ y, t.recd.queue = s.recd.queue ++ [y] ∧ made y)
          ∧ t.rd R.RECD_STAT_QLEN = s.recd.queue.length + 1 ∧ t.evIn = [] ∧ kept t)
        ∧ (∀ old z, en → fresh → s.recd.fresh = 1 → s.recd.queue = old ++ [z] → old.length < 63 →
          Answers (.programRecord p) s fun t =>
          (∃ y, made y ∧ t.recd.queue = if z.code < 0x100 ∨ z.source ≤ 0x40 + own then old ++ [z, y] else old ++ [y, z])
          ∧ t.evIn = [] ∧ kept t)
        ∧ (en → 64 ≤ s.recd.queue.length → Answers (.programRecord p) s fun t =>
          t.recd.lost ≥ s.recd.lost + 1 ∧ t.recd.queue = s.recd.queue ∧ kept t ∧ toldOwn t 236 ∧ told t p.cyc 7 236)
        ∧ (s.rd R.RECD_CTRL_EN = 1 → code < 0x100 ∨ 0xFEFF < code → Answers (.programRecord p) s fun t =>
          up1 t 255 R.RECD_STAT_BADCODE ∧ t.recd = s.recd ∧ t.evIn = [] ∧ kept t)
        ∧ (s.rd R.RECD_CTRL_EN = 0 → exec (.programRecord p) s = .next (s.setCycle p.cyc)))
    -- monitors
    ∧ (∀ (m : Fin 64) (v : Word), s.serves p = true → settled →
        let k := m.val
        let taken := s.rd (R.MONI_mCTRL_EN k) = 1 ∧ s.rd (R.MONI_mCFG_KIND k) = 5
        let u : Int := (v.toInt - s.rdI (R.MONI_mLO_LO k)) / 2 ^ s.rd (R.MONI_mCFG_SH k)
        let bin : Nat := if s.rd (R.MONI_mCFG_LOG k) = 1 then if u ≤ 0 then 0 else min 31 (1 + u.toNat.log2)
          else (max 0 (min 31 u)).toNat
        let count (x : State) : Nat := x.rd (R.MONI_mCNTLO_COUNT k) + 2 ^ 32 * x.rd (R.MONI_mCNTHI_COUNT k)
        let alarm : FieldRef := ⟨if k < 32 then R.MONI_ALMLOw 0 else R.MONI_ALMLOw 1, k % 32, k % 32⟩
        let beyond := v.toInt < s.rdI (R.MONI_mALO_ALO k) ∨ s.rdI (R.MONI_mAHI_AHI k) < v.toInt
        (taken → Answers (.monitorPut p m v) s fun t =>
          count t = (count s + 1) % 2 ^ 64 ∧ t.rdI (R.MONI_mMIN_MIN k) = min (s.rdI (R.MONI_mMIN_MIN k)) v.toInt
          ∧ t.rdI (R.MONI_mMAX_MAX k) = max (s.rdI (R.MONI_mMAX_MAX k)) v.toInt
          ∧ NMap.get 0 t.moniBins (32 * k + bin) = min (2 ^ 32 - 1) (NMap.get 0 s.moniBins (32 * k + bin) + 1)
          ∧ (∀ b, b ≠ 32 * k + bin → NMap.get 0 t.moniBins b = NMap.get 0 s.moniBins b) ∧ kept t
          ∧ (beyond → t.rd alarm = 1 ∧ (s.rd alarm = 0 → told t p.cyc 7 240))
          ∧ (¬beyond → t.rd alarm = s.rd alarm ∧ t.evIn = []))
        ∧ (¬taken → Answers (.monitorPut p m v) s fun t =>
          (∀ b, b ≠ R.MONI_mPUT k → t.word b = s.word b) ∧ t.moniBins = s.moniBins ∧ t.evIn = [] ∧ kept t)
        ∧ (s.rd (R.MONI_mCTRL_EN k) = 1 → Answers (.monitorSeal p m) s fun t => t.coll = s.coll ∧ kept t ∧ toldOwn t 238)
        ∧ (s.rd (R.MONI_mCTRL_EN k) = 0 → s.coll = [(R.MONI_mLO k, v)] →
          (s.monitorCode k = 0 → Answers (.monitorSeal p m) s fun t =>
            t.rd (R.MONI_mLO_LO k) = v.toNat ∧ t.rd (R.MONI_mSEAL_ERR k) = 0 ∧ t.coll = [] ∧ t.evIn = [] ∧ kept t)
          ∧ (s.monitorCode k ≠ 0 → Answers (.monitorSeal p m) s fun t =>
            t.rd (R.MONI_mLO_LO k) = s.rd (R.MONI_mLO_LO k) ∧ t.rd (R.MONI_mSEAL_ERR k) = s.monitorCode k ∧ t.coll = [] ∧ kept t
            ∧ toldOwn t 238)))
    -- wear, requests and the peer's blocks
    ∧ (let planned (t : State) (cyc kind unit round mode : Nat) : Prop :=
        t.bnch.subs = insertSub ⟨kind, unit, 1000 * freeRound s.bnch.subs round, mode⟩ s.bnch.subs
        ∧ t.rd R.BNCH_STAT_PEND = 1 ∧ told t cyc 7 245
      let known (kind unit : Nat) : Nat := if kind = 1 then s.dutyOf unit else unit
      let standby := s.benchPaired = true ∧ s.rd R.PAIR_STAT_STATE = 2
      let named (t : State) (cyc kind unit mode : Nat) : Prop :=
        planned t cyc kind unit (tick / 1000 + 2) mode
        ∧ t.sent = (s.sendSubst kind unit (freeRound s.bnch.subs (tick / 1000 + 2))).sent
      (∀ (kind : Fin 8) (unit : BitVec 16) (v errs : Nat) (hard : Bool),
        let k := kind.val
        let u := unit.toNat
        let cmd := Instr.wearDecision kind unit v errs hard
        let measured := u < benchUnits k ∧ s.inUse k u = true
        let worn := s.wearMet k v errs (hard && s.hardError k u) = true ∧ s.wornOf k u ≠ 1
        let reached (t : State) : Prop := t.wornOf k u = 1 ∧ kept t ∧ told t s.cycle 7 244
        (measured → worn → s.benchCfg R.BNCH_CFG_AUTO = 0 → Answers cmd s fun t => reached t ∧ t.bnch.subs = s.bnch.subs)
        ∧ (measured → worn → s.benchCfg R.BNCH_CFG_AUTO = 1 → s.benchPaired = false →
          (s.hasSpare k u = true → Answers cmd s fun t => reached t ∧ planned t s.cycle k (known k u) (tick / 1000 + 1) 1)
          ∧ (s.hasSpare k u = false → Answers cmd s fun t => reached t ∧ t.bnch.subs = s.bnch.subs ∧ told t s.cycle 7 247))
        ∧ (measured → worn → s.benchCfg R.BNCH_CFG_AUTO = 1 → s.hasSpare k u = true →
          (s.benchPaired = true → ¬standby → Answers cmd s fun t => reached t ∧ named t s.cycle k (known k u) 1)
          ∧ (standby → Answers cmd s fun t =>
            reached t ∧ t.bnch.subs = s.bnch.subs ∧ t.sent = (s.sendSubst k (known k u) 0).sent))
        ∧ (measured → ¬worn → Answers cmd s fun t =>
          t.bnch = s.bnch ∧ t.evIn = s.evIn ∧ kept t ∧ (k = 1 → t.rd (R.BNCH_COREc_DRIFT u) = v % 65536))
        ∧ (¬measured → exec cmd s = .next s))
      ∧ (∀ (kind : BitVec 4) (unit : BitVec 16), s.serves p = true →
        let k := kind.toNat
        let u := unit.toNat
        (s.benchReqCode k u = 0 → s.benchPaired = false → Answers (.bnchReq p kind unit) s fun t =>
          planned t p.cyc k (known k u) (tick / 1000 + 1) 1 ∧ t.wornOf k u = 1 ∧ t.rd R.BNCH_STAT_ERR = 0 ∧ kept t)
        ∧ (s.benchReqCode k u = 0 → s.benchPaired = true → ¬standby → Answers (.bnchReq p kind unit) s fun t =>
          named t p.cyc k (known k u) 1 ∧ t.wornOf k u = 1 ∧ t.rd R.BNCH_STAT_ERR = 0 ∧ kept t)
        ∧ (s.benchReqCode k u = 0 → standby → Answers (.bnchReq p kind unit) s fun t =>
          t.bnch.subs = s.bnch.subs ∧ t.sent = (s.sendSubst k (known k u) 0).sent ∧ t.rd R.BNCH_STAT_ERR = 0 ∧ kept t)
        ∧ (s.benchReqCode k u ≠ 0 → Answers (.bnchReq p kind unit) s fun t =>
          t.rd R.BNCH_STAT_ERR = s.benchReqCode k u ∧ t.bnch = s.bnch ∧ kept t ∧ toldOwn t 247 ∧ told t p.cyc 7 247))
      ∧ (∀ arg : Word,
        let k := arg.toNat % 16
        let u := arg.toNat / 16 % 65536
        let low := arg.toNat / 2 ^ 20
        (s.benchPaired = true → u < benchUnits k → s.rd R.PAIR_STAT_STATE = 1 → Answers (.subst arg) s fun t =>
          named t s.cycle k u (s.benchMode k u) ∧ kept t)
        ∧ (∀ r, s.benchPaired = true → u < benchUnits k → s.rd R.PAIR_STAT_STATE ≠ 1 → tick / 1000 < r → r ≤ tick / 1000 + 4096 →
          r % 4096 = low → tick / 1000 < 2 ^ 20 → Answers (.subst arg) s fun t => planned t s.cycle k u r (s.benchMode k u) ∧ kept t)
        ∧ (s.benchPaired = false ∨ benchUnits k ≤ u → exec (.subst arg) s = .next s)))
    -- substitutions
    ∧ (∀ (b : BnchSub) (rest : List BnchSub), s.bnch.subs = b :: rest →
        let u := b.unit
        let made (t : State) : Prop := t.bnch.subs = rest ∧ (rest = [] → t.rd R.BNCH_STAT_PEND = 0)
        let local' (t : State) : Prop := made t ∧ t.wornOf b.kind u = 2 ∧ kept t ∧ told t s.cycle 7 246
        let cmd := Instr.benchSubstitution
        (tick < b.tick → exec cmd s = .next s)
        ∧ (b.tick ≤ tick → b.mode = 0 → Answers cmd s fun t => made t ∧ t.bnch.worn = s.bnch.worn ∧ t.evIn = s.evIn ∧ kept t)
        ∧ (b.tick ≤ tick → b.mode = 2 → Answers cmd s fun t =>
          made t ∧ t.bnch.pauseCore = s.physOf u + 1 ∧ t.bnch.pauseUntil = 2600 ∧ t.rd R.BNCH_STAT_NOSPARE = 1 ∧ kept t
          ∧ told t s.cycle 7 246)
        ∧ (b.tick ≤ tick → b.mode = 1 →
          (∀ q, b.kind = 1 → u < 16 → s.dutyOf (s.physOf u) = u → s.stoppedForGood (s.physOf u) = false →
            s.spareCore (s.physOf u) = some q → q ≠ s.physOf u → Answers cmd s fun t =>
            made t ∧ t.physOf u = q ∧ t.core q = s.core (s.physOf u) ∧ t.core (s.physOf u) = CoreS.off
            ∧ (∀ k, k ≠ q → k ≠ s.physOf u → t.core k = s.core k) ∧ t.inService q = true ∧ t.inService (s.physOf u) = false
            ∧ t.rd (R.BNCH_COREc_RETIRED (s.physOf u)) = 1 ∧ t.bnch.pauseCore = q + 1 ∧ t.bnch.pauseUntil = 2600 ∧ t.mem = s.mem)
          ∧ (b.kind = 1 → u < 16 → s.stoppedForGood (s.physOf u) = true → Answers cmd s fun t =>
            made t ∧ t.bnch.moveAtRestart = s.bnch.moveAtRestart ||| 2 ^ u ∧ t.bnch.worn = s.bnch.worn ∧ kept t)
          ∧ (∀ q, b.kind = 2 → s.spareLane = some q → Answers cmd s fun t => local' t ∧ t.rd R.BNCH_SPARE_LANE = 0)
          ∧ (b.kind = 3 → Answers cmd s local')
          ∧ (b.kind = 4 → 1 ≤ s.rd R.BNCH_SPARE_SROWS → Answers cmd s fun t =>
            local' t ∧ t.rd R.BNCH_SPARE_SROWS = s.rd R.BNCH_SPARE_SROWS - 1)
          ∧ (b.kind = 5 → 1 ≤ s.rd R.BNCH_SPARE_SECT → Answers cmd s fun t =>
            local' t ∧ t.rd R.BNCH_SPARE_SECT = s.rd R.BNCH_SPARE_SECT - 1)
          ∧ (b.kind = 6 → s.rd R.BNCH_SPARE_PLL = 1 → Answers cmd s fun t => local' t ∧ t.rd R.BNCH_SPARE_PLL = 0)
          ∧ (b.kind = 7 → s.rd (R.BNCH_DRVo_ACT u) = 0 → Answers cmd s fun t => local' t ∧ t.rd (R.BNCH_DRVo_ACT u) = 1)
          ∧ (4 ≤ b.kind → s.hasSpare b.kind u = false → Answers cmd s fun t =>
            made t ∧ t.bnch.worn = s.bnch.worn ∧ kept t ∧ told t s.cycle 7 247)))
    ∧ (s.bnch.subs = [] → exec .benchSubstitution s = .next s)

/-! ## What commands of a block leave alone -/

/-- With no event on its way and no register written in its cycle, a command of a block changes no register outside the block's windows
but the counts of the event block and of the recorder, and it changes no memory, core, shadow bank, tick, scoreboard or waiting
command: commands of the analogue inputs, the safety channel, Ethernet, network time (with the anchor it moves in the TIER window), the
backup clock, the pair (with the forcing it shows in the DIOP window), the recorder, the monitors and the bench. -/
def Obligations.CommandsKeepToTheirBlocks : Prop :=
  ∀ (s t : State) (p : Port) (b : Bool) (k cyc n : Nat) (c8 : Fin 8) (c4 : Fin 4) (c3 : Fin 3) (c5 : Fin 5) (c2 : Fin 2) (m : Fin 64)
    (ch : BitVec 6) (r1 : BitVec 1) (n5 : BitVec 5) (h : BitVec 16) (k4 : BitVec 4) (v : Word) (w48 : BitVec 48) (c : Instr)
    (windows : List Nat),
    (c, windows) ∈ [(.urgentRequest p ch c2, [9]), (.trackerReset p b v, [9]), (.calCaptureZero p ch r1 n5, [9]),
      (.calCaptureFullScale p ch r1 n5, [9]), (.calCommit p ch, [9]), (.calLoad p, [9]), (.clockMonitorFault b, [10]),
      (.supplyWindowFault b, [10]), (.graceExpiry, [10]), (.safetyTrip p, [10]), (.armSequence p h, [10]), (.darkTest c8 b, [10]),
      (.bextisTimeout c8, [10]), (.linkChange c5 b c3 b, [11]), (.transmitKick p c3, [11]), (.prpLanSilent c2 b, [11]),
      (.networkTimeWrap cyc, [0, 12]), (.ptptStep p v, [0, 12]), (.rtcbSet p w48, [13]), (.dst p, [13]),
      (.rtcSecondBoundary n, [13]), (.backupSupplySwitch n k, [13]), (.backupDomainReset, [13]), (.strapChange c4, [14]),
      (.resync p, [14]), (.handover p, [14]), (.fenceRelease p b b, [14]), (.starvation cyc, [14]), (.statusBlockSend, [14]),
      (.localmaxExpiry, [14, 18]), (.programRecord p, [16]), (.monitorPut p m v, [17]), (.bnchReq p k4 h, [21]),
      (.wearDecision c8 h n k b, [21]), (.subst v, [21])] →
    s.evIn = [] → (∀ w ∈ s.wrote, w.t ≠ 60000 * s.tick.toNat + cyc) → exec c s = .next t →
      (∀ a, (a - 0x40000000) / 0x10000 ∉ windows → a ≠ R.EVNT_STAT → a ≠ R.RECD_STAT → t.word a = s.word a)
      ∧ t.mem = s.mem ∧ t.cores = s.cores ∧ t.shadow = s.shadow ∧ t.coll = s.coll ∧ t.tick = s.tick ∧ t.tier = s.tier
      ∧ t.began = s.began ∧ t.pending = s.pending
end

