-- ==== Sys2Proof/Laws/NMap.lean ====
section
/-! SUPPORT. The laws of finite maps and of byte memory: a read after a write, writes to other places, and the canonical
form, which every operation keeps. -/

namespace Sys2Proof.Machine

variable {α : Type}

/-! ## Read after write -/

theorem NMap.at?_put_same (m : NMap α) (k : Nat) (v : α) : (NMap.put m k v).at? k = some v := by
  induction m with
  | nil => simp [NMap.put, NMap.at?]
  | cons e r ih =>
    obtain ⟨j, w⟩ := e
    simp only [NMap.put]
    split
    · simp [NMap.at?]
    · split
      · simp [NMap.at?]
      · rename_i h1 h2
        simp only [NMap.at?, if_neg (Ne.symm h2), ih]

theorem NMap.at?_put_other (m : NMap α) {k k' : Nat} (v : α) (h : k' ≠ k) : (NMap.put m k v).at? k' = m.at? k' := by
  induction m with
  | nil => simp [NMap.put, NMap.at?, Ne.symm h]
  | cons e r ih =>
    obtain ⟨j, w⟩ := e
    simp only [NMap.put]
    split
    · simp [NMap.at?, Ne.symm h]
    · split
      · rename_i h2
        subst h2
        simp [NMap.at?, Ne.symm h]
      · simp only [NMap.at?, ih]

theorem NMap.at?_del_same (m : NMap α) (k : Nat) : (NMap.del m k).at? k = none := by
  induction m with
  | nil => rfl
  | cons e r ih =>
    obtain ⟨j, w⟩ := e
    simp only [NMap.del]
    split
    · exact ih
    · rename_i h
      simp only [NMap.at?, if_neg h, ih]

theorem NMap.at?_del_other (m : NMap α) {k k' : Nat} (h : k' ≠ k) : (NMap.del m k).at? k' = m.at? k' := by
  induction m with
  | nil => rfl
  | cons e r ih =>
    obtain ⟨j, w⟩ := e
    simp only [NMap.del]
    split
    · rename_i h2
      subst h2
      simp [NMap.at?, Ne.symm h, ih]
    · simp only [NMap.at?, ih]

@[simp] theorem NMap.get_set_same [DecidableEq α] (d : α) (m : NMap α) (k : Nat) (v : α) :
    NMap.get d (NMap.set d m k v) k = v := by
  unfold NMap.get NMap.set
  split
  · rename_i h
    simp [NMap.at?_del_same, h]
  · simp [NMap.at?_put_same]

theorem NMap.get_set_other [DecidableEq α] (d d' : α) (m : NMap α) {k k' : Nat} (v : α) (h : k' ≠ k) :
    NMap.get d' (NMap.set d m k v) k' = NMap.get d' m k' := by
  unfold NMap.get NMap.set
  split
  · rw [NMap.at?_del_other m h]
  · rw [NMap.at?_put_other m v h]

@[simp] theorem NMap.get_nil (d : α) (k : Nat) : NMap.get d [] k = d := rfl

/-! ## The canonical form -/

theorem NMap.wfFrom_weaken [DecidableEq α] (d : Nat → α) {b b' : Nat} (h : b' ≤ b) (m : NMap α)
    (w : NMap.wfFrom d b m = true) : NMap.wfFrom d b' m = true := by
  cases m with
  | nil => rfl
  | cons e r =>
    obtain ⟨j, v⟩ := e
    simp only [NMap.wfFrom, Bool.and_eq_true, decide_eq_true_eq] at w ⊢
    exact ⟨⟨Nat.le_trans h w.1.1, w.1.2⟩, w.2⟩

theorem NMap.wfFrom_put [DecidableEq α] (d : Nat → α) (k : Nat) (v : α) (hv : v ≠ d k) :
    ∀ (b : Nat) (m : NMap α), b ≤ k → NMap.wfFrom d b m = true → NMap.wfFrom d b (NMap.put m k v) = true := by
  intro b m
  induction m generalizing b with
  | nil =>
    intro hb _
    simp [NMap.put, NMap.wfFrom, hb, hv]
  | cons e r ih =>
    obtain ⟨j, w⟩ := e
    intro hb hm
    simp only [NMap.wfFrom, Bool.and_eq_true, decide_eq_true_eq] at hm
    simp only [NMap.put]
    split
    · rename_i h1
      simp only [NMap.wfFrom, Bool.and_eq_true, decide_eq_true_eq]
      exact ⟨⟨hb, hv⟩, ⟨Nat.succ_le_of_lt h1, hm.1.2⟩, hm.2⟩
    · split
      · rename_i h1 h2
        subst h2
        simp only [NMap.wfFrom, Bool.and_eq_true, decide_eq_true_eq]
        exact ⟨⟨hb, hv⟩, hm.2⟩
      · rename_i h1 h2
        simp only [NMap.wfFrom, Bool.and_eq_true, decide_eq_true_eq]
        exact ⟨hm.1, ih (j + 1) (by omega) hm.2⟩

theorem NMap.wfFrom_del [DecidableEq α] (d : Nat → α) (k : Nat) :
    ∀ (b : Nat) (m : NMap α), NMap.wfFrom d b m = true → NMap.wfFrom d b (NMap.del m k) = true := by
  intro b m
  induction m generalizing b with
  | nil => intro _; rfl
  | cons e r ih =>
    obtain ⟨j, w⟩ := e
    intro hm
    simp only [NMap.wfFrom, Bool.and_eq_true, decide_eq_true_eq] at hm
    simp only [NMap.del]
    split
    · exact NMap.wfFrom_weaken d (by omega : b ≤ j + 1) _ (ih (j + 1) hm.2)
    · simp only [NMap.wfFrom, Bool.and_eq_true, decide_eq_true_eq]
      exact ⟨hm.1, ih (j + 1) hm.2⟩

/-- A write keeps the canonical form. -/
theorem NMap.wf_set [DecidableEq α] (d : Nat → α) (m : NMap α) (k : Nat) (v : α) (h : NMap.wf d m = true) :
    NMap.wf d (NMap.set (d k) m k v) = true := by
  unfold NMap.set
  split
  · exact NMap.wfFrom_del d k 0 m h
  · rename_i hv
    exact NMap.wfFrom_put d k v hv 0 m (Nat.zero_le k) h

/-! ## Byte memory -/

/-- A store keeps the canonical form of memory. -/
theorem memWrite_wf (m : NMap Byte) (a n v : Nat) (h : Memory.wf m = true) : Memory.wf (memWrite m a n v) = true := by
  induction n generalizing m a v with
  | zero => exact h
  | succ n ih => exact ih _ _ _ (NMap.wf_set (fun _ => 0) m a _ h)

/-- Writing a list of bytes keeps the canonical form of memory. -/
theorem memPutBytes_wf (m : NMap Byte) (a : Nat) (bs : List Nat) (h : Memory.wf m = true) :
    Memory.wf (memPutBytes m a bs) = true := by
  induction bs generalizing m a with
  | nil => exact h
  | cons b r ih => exact ih _ _ (NMap.wf_set (fun _ => 0) m a _ h)

/-- A store leaves every byte outside it. -/
theorem memWrite_other (m : NMap Byte) (a n v b : Nat) (h : b < a ∨ a + n ≤ b) :
    NMap.get 0 (memWrite m a n v) b = NMap.get 0 m b := by
  induction n generalizing m a v with
  | zero => rfl
  | succ n ih =>
    simp only [memWrite]
    rw [ih _ _ _ (by omega), NMap.get_set_other 0 0 m _ (by omega)]

/-- A store puts each byte of its value where it belongs. -/
theorem memWrite_at (m : NMap Byte) (a n v j : Nat) (h : j < n) :
    NMap.get 0 (memWrite m a n v) (a + j) = BitVec.ofNat 8 (v / 256 ^ j) := by
  induction n generalizing m a v j with
  | zero => omega
  | succ n ih =>
    simp only [memWrite]
    cases j with
    | zero =>
      rw [memWrite_other _ _ _ _ _ (by omega)]
      simp
    | succ j =>
      have := ih (NMap.set 0 m a (BitVec.ofNat 8 v)) (a + 1) (v / 256) j (by omega)
      rw [show a + (j + 1) = a + 1 + j by omega, this, Nat.div_div_eq_div_mul, Nat.pow_succ, Nat.mul_comm]

/-- A load depends on the bytes it reads alone. -/
theorem memRead_congr (m m' : NMap Byte) (a n : Nat) (h : ∀ j, j < n → NMap.get 0 m (a + j) = NMap.get 0 m' (a + j)) :
    memRead m a n = memRead m' a n := by
  induction n generalizing a with
  | zero => rfl
  | succ n ih =>
    simp only [memRead]
    have h0 := h 0 (Nat.succ_pos n)
    simp only [Nat.add_zero] at h0
    rw [h0, ih (a + 1) (fun j hj => by have := h (j + 1) (by omega); rwa [show a + 1 + j = a + (j + 1) by omega])]

/-- A load of what a store of the same bytes wrote. -/
theorem memRead_memWrite_same (m : NMap Byte) (a n v : Nat) : memRead (memWrite m a n v) a n = v % 256 ^ n := by
  induction n generalizing m a v with
  | zero => simp [memRead, Nat.mod_one]
  | succ n ih =>
    simp only [memRead, memWrite]
    rw [ih, memWrite_other _ _ _ _ _ (by omega), NMap.get_set_same, BitVec.toNat_ofNat]
    rw [Nat.pow_succ 256 n, Nat.mul_comm (256 ^ n) 256, Nat.mod_mul]

/-- A load of bytes a store did not touch. -/
theorem memRead_memWrite_other (m : NMap Byte) (a n v b k : Nat) (h : b + k ≤ a ∨ a + n ≤ b) :
    memRead (memWrite m a n v) b k = memRead m b k :=
  memRead_congr _ _ _ _ (fun j hj => memWrite_other _ _ _ _ _ (by omega))

end Sys2Proof.Machine
end

