-- ==== Sys2Proof/Laws/Plane.lean ====
section
/-! SUPPORT. The laws of block registers: what a field reads after a word or a field has been written. -/

namespace Sys2Proof.Machine

/-! ## Bit fields of numbers -/

theorem putBits_eq (v hi lo x : Nat) (h : lo ≤ hi + 1) :
    putBits v hi lo x = 2 ^ lo * (2 ^ (hi + 1 - lo) * (v / 2 ^ (hi + 1)) + x % 2 ^ (hi + 1 - lo)) + v % 2 ^ lo := by
  unfold putBits
  simp only [Nat.shiftRight_eq_div_pow, Nat.shiftLeft_eq]
  have e : 2 ^ (hi + 1) = 2 ^ lo * 2 ^ (hi + 1 - lo) := by rw [← Nat.pow_add]; congr 1; omega
  rw [Nat.mul_add, ← Nat.mul_assoc, ← e, Nat.mul_comm (2 ^ (hi + 1)), Nat.mul_comm (2 ^ lo)]

/-- Each bit of a number with a field replaced. -/
theorem testBit_putBits (v hi lo x j : Nat) (h : lo ≤ hi + 1) :
    (putBits v hi lo x).testBit j = if lo ≤ j ∧ j ≤ hi then x.testBit (j - lo) else v.testBit j := by
  rw [putBits_eq v hi lo x h, Nat.testBit_two_pow_mul_add _ (Nat.mod_lt _ (Nat.two_pow_pos lo)),
    Nat.testBit_two_pow_mul_add _ (Nat.mod_lt _ (Nat.two_pow_pos _))]
  by_cases h1 : j < lo
  · rw [if_pos h1, if_neg (by omega), Nat.testBit_mod_two_pow, decide_eq_true h1, Bool.true_and]
  · by_cases h2 : j ≤ hi
    · rw [if_neg h1, if_pos (by omega), if_pos ⟨by omega, h2⟩, Nat.testBit_mod_two_pow,
        decide_eq_true (by omega : j - lo < hi + 1 - lo), Bool.true_and]
    · rw [if_neg h1, if_neg (by omega), if_neg (by omega), Nat.testBit_div_two_pow]
      congr 1
      omega

theorem testBit_bitsOf (v hi lo j : Nat) : (bitsOf v hi lo).testBit j = (decide (j < hi + 1 - lo) && v.testBit (lo + j)) := by
  unfold bitsOf
  rw [Nat.testBit_mod_two_pow, Nat.testBit_shiftRight]

/-- A field reads what was put into it, cut to its width. -/
theorem bitsOf_putBits_same (v hi lo x : Nat) (h : lo ≤ hi + 1) :
    bitsOf (putBits v hi lo x) hi lo = x % 2 ^ (hi + 1 - lo) := by
  apply Nat.eq_of_testBit_eq
  intro j
  rw [testBit_bitsOf, testBit_putBits _ _ _ _ _ h, Nat.testBit_mod_two_pow]
  by_cases hj : j < hi + 1 - lo
  · simp only [decide_eq_true hj, Bool.true_and]
    rw [if_pos (by omega)]
    congr 1
    omega
  · simp only [decide_eq_false hj, Bool.false_and]

/-- A field beside the one put reads as before. -/
theorem bitsOf_putBits_other (v hi lo x hi' lo' : Nat) (h : lo ≤ hi + 1) (hd : hi' < lo ∨ hi < lo') :
    bitsOf (putBits v hi lo x) hi' lo' = bitsOf v hi' lo' := by
  apply Nat.eq_of_testBit_eq
  intro j
  rw [testBit_bitsOf, testBit_bitsOf, testBit_putBits _ _ _ _ _ h]
  by_cases hj : j < hi' + 1 - lo'
  · simp only [decide_eq_true hj, Bool.true_and]
    rw [if_neg (by omega)]
  · simp only [decide_eq_false hj, Bool.false_and]

theorem bitsOf_mod (v n hi lo : Nat) (h : hi < n) : bitsOf (v % 2 ^ n) hi lo = bitsOf v hi lo := by
  apply Nat.eq_of_testBit_eq
  intro j
  rw [testBit_bitsOf, testBit_bitsOf, Nat.testBit_mod_two_pow]
  by_cases hj : j < hi + 1 - lo
  · simp only [decide_eq_true hj, Bool.true_and, decide_eq_true (by omega : lo + j < n)]
  · simp only [decide_eq_false hj, Bool.false_and]

/-! ## Words -/

@[simp] theorem planeGet_planeSet_same (m : NMap Word) (a : Nat) (v : Word) : planeGet (planeSet m a v) a = v :=
  NMap.get_set_same (coldWord a) m a v

theorem planeGet_planeSet_other (m : NMap Word) {a b : Nat} (v : Word) (h : b ≠ a) :
    planeGet (planeSet m a v) b = planeGet m b :=
  NMap.get_set_other (coldWord a) (coldWord b) m v h

/-- The canonical form of a register plane, in which an unlisted word reads as its cold value. -/
theorem planeSet_wf (m : NMap Word) (a : Nat) (v : Word) (h : NMap.wf coldWord m = true) :
    NMap.wf coldWord (planeSet m a v) = true :=
  NMap.wf_set coldWord m a v h

/-! ## Fields -/

/-- A field lies in its register: the low bit does not lie above the high one. -/
def FieldRef.ok (f : FieldRef) : Bool := decide (f.lo ≤ f.hi) && decide (f.hi < 64)

/-- Two fields share no bit: they lie in words apart, or beside each other from one address. -/
def FieldRef.apart (f g : FieldRef) : Bool :=
  (f.addr == g.addr && (decide (f.hi < g.lo) || decide (g.hi < f.lo)))
    || (f.addr != g.addr && (f.addr != g.addr + 4 || decide (g.hi < 32)) && (g.addr != f.addr + 4 || decide (f.hi < 32)))

theorem planeWide_lo (m : NMap Word) (f : FieldRef) (h : f.hi < 32) : planeWide m f = (planeGet m f.addr).toNat := by
  unfold planeWide
  rw [if_neg (by omega), Nat.add_zero]

/-- A field reads what was written to it, cut to its width. -/
theorem planeRd_planeWr_same (m : NMap Word) (f : FieldRef) (x : Nat) (h : f.ok = true) :
    planeRd (planeWr m f x) f = x % 2 ^ (f.hi + 1 - f.lo) := by
  simp only [FieldRef.ok, Bool.and_eq_true, decide_eq_true_eq] at h
  unfold planeRd planeWr
  by_cases h32 : 32 ≤ f.hi
  · simp only [h32, if_true]
    have hw : planeWide (planeSet (planeSet m f.addr (BitVec.ofNat 32 (putBits (planeWide m f) f.hi f.lo x))) (f.addr + 4)
        (BitVec.ofNat 32 (putBits (planeWide m f) f.hi f.lo x / 2 ^ 32))) f
        = putBits (planeWide m f) f.hi f.lo x % 2 ^ 64 := by
      unfold planeWide
      simp only [h32, if_true]
      rw [planeGet_planeSet_other _ _ (by omega), planeGet_planeSet_same, planeGet_planeSet_same, BitVec.toNat_ofNat,
        BitVec.toNat_ofNat]
      generalize putBits _ _ _ _ = y
      omega
    rw [hw, bitsOf_mod _ _ _ _ (by omega), bitsOf_putBits_same _ _ _ _ (by omega)]
  · simp only [h32, if_false]
    rw [planeWide_lo _ _ (by omega), planeGet_planeSet_same, BitVec.toNat_ofNat, bitsOf_mod _ _ _ _ (by omega),
      bitsOf_putBits_same _ _ _ _ (by omega)]

/-- What a plane holds at a word after a field has been written. -/
theorem planeGet_planeWr (m : NMap Word) (f : FieldRef) (x a : Nat) :
    planeGet (planeWr m f x) a =
      if 32 ≤ f.hi ∧ a = f.addr + 4 then BitVec.ofNat 32 (putBits (planeWide m f) f.hi f.lo x / 2 ^ 32)
      else if a = f.addr then BitVec.ofNat 32 (putBits (planeWide m f) f.hi f.lo x)
      else planeGet m a := by
  unfold planeWr
  by_cases h32 : 32 ≤ f.hi
  · simp only [h32, if_true, true_and]
    by_cases h1 : a = f.addr + 4
    · subst h1
      simp
    · rw [planeGet_planeSet_other _ _ h1, if_neg h1]
      by_cases h2 : a = f.addr
      · subst h2
        simp
      · rw [planeGet_planeSet_other _ _ h2, if_neg h2]
  · simp only [h32, if_false, false_and]
    by_cases h2 : a = f.addr
    · subst h2
      simp
    · rw [planeGet_planeSet_other _ _ h2, if_neg h2]

/-- Each bit of a field's neighbourhood. -/
theorem testBit_planeWide (m : NMap Word) (f : FieldRef) (j : Nat) (h : f.hi < 64) (hj : j ≤ f.hi) :
    (planeWide m f).testBit j =
      if j < 32 then (planeGet m f.addr).getLsbD j else (planeGet m (f.addr + 4)).getLsbD (j - 32) := by
  unfold planeWide
  by_cases h32 : 32 ≤ f.hi
  · rw [if_pos h32, Nat.add_comm, Nat.testBit_two_pow_mul_add _ (planeGet m f.addr).isLt]
    rfl
  · rw [if_neg h32, Nat.add_zero, if_pos (by omega)]
    rfl

/-- Each bit of a word after a field has been written. -/
theorem getLsbD_planeWr (m : NMap Word) (f : FieldRef) (x a k : Nat) (hf : f.ok = true) (hk : k < 32) :
    (planeGet (planeWr m f x) a).getLsbD k =
      if a = f.addr ∧ f.lo ≤ k ∧ k ≤ f.hi then x.testBit (k - f.lo)
      else if a = f.addr + 4 ∧ f.lo ≤ k + 32 ∧ k + 32 ≤ f.hi then x.testBit (k + 32 - f.lo)
      else (planeGet m a).getLsbD k := by
  simp only [FieldRef.ok, Bool.and_eq_true, decide_eq_true_eq] at hf
  rw [planeGet_planeWr]
  by_cases h4 : 32 ≤ f.hi ∧ a = f.addr + 4
  · rw [if_pos h4, if_neg (by omega), BitVec.getLsbD_ofNat, decide_eq_true hk, Bool.true_and, Nat.testBit_div_two_pow,
      testBit_putBits _ _ _ _ _ (by omega)]
    by_cases hb : f.lo ≤ k + 32 ∧ k + 32 ≤ f.hi
    · rw [if_pos hb, if_pos ⟨h4.2, hb⟩]
    · rw [if_neg hb, if_neg (by omega)]
      by_cases hj : k + 32 ≤ f.hi
      · rw [testBit_planeWide m f (k + 32) hf.2 hj, if_neg (by omega), h4.2, Nat.add_sub_cancel]
      · rw [planeWide, if_pos h4.1, Nat.add_comm, Nat.testBit_two_pow_mul_add _ (planeGet m f.addr).isLt,
          if_neg (by omega), h4.2, Nat.add_sub_cancel]
        rfl
  · rw [if_neg h4]
    by_cases ha : a = f.addr
    · rw [if_pos ha, BitVec.getLsbD_ofNat, decide_eq_true hk, Bool.true_and, testBit_putBits _ _ _ _ _ (by omega)]
      by_cases hb : f.lo ≤ k ∧ k ≤ f.hi
      · rw [if_pos hb, if_pos ⟨ha, hb⟩]
      · rw [if_neg hb, if_neg (by omega), if_neg (by omega), ha]
        unfold planeWide
        split
        · rw [Nat.add_comm, Nat.testBit_two_pow_mul_add _ (planeGet m f.addr).isLt, if_pos hk]
          rfl
        · rw [Nat.add_zero]
          rfl
    · rw [if_neg ha, if_neg (by omega), if_neg (by omega)]

/-- A field apart from the one written reads as before. -/
theorem planeRd_planeWr_other (m : NMap Word) (f g : FieldRef) (x : Nat) (hf : f.ok = true) (hg : g.ok = true)
    (h : f.apart g = true) : planeRd (planeWr m f x) g = planeRd m g := by
  have hf' := hf
  simp only [FieldRef.ok, Bool.and_eq_true, decide_eq_true_eq] at hf hg
  simp only [FieldRef.apart, Bool.or_eq_true, Bool.and_eq_true, beq_iff_eq, bne_iff_ne, ne_eq, decide_eq_true_eq] at h
  unfold planeRd
  apply Nat.eq_of_testBit_eq
  intro j
  rw [testBit_bitsOf, testBit_bitsOf]
  by_cases hj : j < g.hi + 1 - g.lo
  · rw [decide_eq_true hj, Bool.true_and, Bool.true_and, testBit_planeWide _ g _ hg.2 (by omega),
      testBit_planeWide _ g _ hg.2 (by omega)]
    by_cases hb : g.lo + j < 32
    · rw [if_pos hb, if_pos hb, getLsbD_planeWr _ _ _ _ _ hf' hb, if_neg (by omega), if_neg (by omega)]
    · rw [if_neg hb, if_neg hb, getLsbD_planeWr _ _ _ _ _ hf' (by omega), if_neg (by omega), if_neg (by omega)]
  · rw [decide_eq_false hj, Bool.false_and, Bool.false_and]

/-! ## Fields of the state -/

theorem State.rd_wr_same (s : State) (f : FieldRef) (x : Nat) (h : f.ok = true) :
    (s.wr f x).rd f = x % 2 ^ (f.hi + 1 - f.lo) := planeRd_planeWr_same s.regs f x h

theorem State.rd_wr_other (s : State) (f g : FieldRef) (x : Nat) (hf : f.ok = true) (hg : g.ok = true)
    (h : f.apart g = true) : (s.wr f x).rd g = s.rd g := planeRd_planeWr_other s.regs f g x hf hg h

@[simp] theorem State.word_setWord_same (s : State) (a : Nat) (v : Word) : (s.setWord a v).word a = v :=
  planeGet_planeSet_same s.regs a v

theorem State.word_setWord_other (s : State) {a b : Nat} (v : Word) (h : b ≠ a) : (s.setWord a v).word b = s.word b :=
  planeGet_planeSet_other s.regs v h

/-- A word that a field does not lie in keeps its value. -/
theorem State.word_wr_other (s : State) (f : FieldRef) (x a : Nat) (h : a ≠ f.addr) (h4 : 32 ≤ f.hi → a ≠ f.addr + 4) :
    (s.wr f x).word a = s.word a := by
  show planeGet (planeWr s.regs f x) a = planeGet s.regs a
  rw [planeGet_planeWr, if_neg (fun c => h4 c.1 c.2), if_neg h]

end Sys2Proof.Machine
end

