-- ==== Sys2Proof/Laws/State.lean ====
section
/-! SUPPORT. What each named update of the state leaves as it was, one lemma per update: every field it does not write reads as
before. Every part is true by the definition of the update. -/

namespace Sys2Proof.Machine

@[simp] theorem State.setWord_frame (s : State) (a : Nat) (v : Word) :
    (s.setWord a v).phase = s.phase ∧ (s.setWord a v).tick = s.tick ∧ (s.setWord a v).cycle = s.cycle ∧
    (s.setWord a v).free = s.free ∧ (s.setWord a v).readData = s.readData ∧ (s.setWord a v).shadow = s.shadow ∧
    (s.setWord a v).coll = s.coll ∧ (s.setWord a v).sealing = s.sealing ∧ (s.setWord a v).wrote = s.wrote ∧
    (s.setWord a v).hw = s.hw ∧ (s.setWord a v).mem = s.mem ∧ (s.setWord a v).cores = s.cores ∧
    (s.setWord a v).evIn = s.evIn ∧ (s.setWord a v).evAt = s.evAt ∧ (s.setWord a v).began = s.began ∧
    (s.setWord a v).tier = s.tier ∧ (s.setWord a v).cmns = s.cmns ∧ (s.setWord a v).recd = s.recd ∧
    (s.setWord a v).moniBins = s.moniBins ∧ (s.setWord a v).bnch = s.bnch ∧ (s.setWord a v).ptpt = s.ptpt ∧
    (s.setWord a v).rtcb = s.rtcb ∧ (s.setWord a v).safe = s.safe ∧ (s.setWord a v).qm = s.qm ∧
    (s.setWord a v).fusa = s.fusa ∧ (s.setWord a v).solv = s.solv ∧ (s.setWord a v).diop = s.diop ∧
    (s.setWord a v).feed = s.feed ∧ (s.setWord a v).loops = s.loops ∧ (s.setWord a v).axes = s.axes ∧
    (s.setWord a v).rst = s.rst ∧ (s.setWord a v).can = s.can ∧ (s.setWord a v).metr = s.metr ∧
    (s.setWord a v).adcs = s.adcs ∧ (s.setWord a v).trst = s.trst ∧ (s.setWord a v).sent = s.sent ∧
    (s.setWord a v).eth = s.eth ∧ (s.setWord a v).outs = s.outs ∧ (s.setWord a v).pair = s.pair ∧
    (s.setWord a v).pending = s.pending :=
  ⟨rfl, rfl, rfl, rfl, rfl, rfl, rfl, rfl, rfl, rfl, rfl, rfl, rfl, rfl, rfl, rfl, rfl, rfl, rfl, rfl,
    rfl, rfl, rfl, rfl, rfl, rfl, rfl, rfl, rfl, rfl, rfl, rfl, rfl, rfl, rfl, rfl, rfl, rfl, rfl, rfl⟩

@[simp] theorem State.wr_frame (s : State) (f : FieldRef) (x : Nat) :
    (s.wr f x).phase = s.phase ∧ (s.wr f x).tick = s.tick ∧ (s.wr f x).cycle = s.cycle ∧ (s.wr f x).free = s.free ∧
    (s.wr f x).readData = s.readData ∧ (s.wr f x).shadow = s.shadow ∧ (s.wr f x).coll = s.coll ∧
    (s.wr f x).sealing = s.sealing ∧ (s.wr f x).wrote = s.wrote ∧ (s.wr f x).hw = s.hw ∧ (s.wr f x).mem = s.mem ∧
    (s.wr f x).cores = s.cores ∧ (s.wr f x).evIn = s.evIn ∧ (s.wr f x).evAt = s.evAt ∧ (s.wr f x).began = s.began ∧
    (s.wr f x).tier = s.tier ∧ (s.wr f x).cmns = s.cmns ∧ (s.wr f x).recd = s.recd ∧
    (s.wr f x).moniBins = s.moniBins ∧ (s.wr f x).bnch = s.bnch ∧ (s.wr f x).ptpt = s.ptpt ∧
    (s.wr f x).rtcb = s.rtcb ∧ (s.wr f x).safe = s.safe ∧ (s.wr f x).qm = s.qm ∧ (s.wr f x).fusa = s.fusa ∧
    (s.wr f x).solv = s.solv ∧ (s.wr f x).diop = s.diop ∧ (s.wr f x).feed = s.feed ∧ (s.wr f x).loops = s.loops ∧
    (s.wr f x).axes = s.axes ∧ (s.wr f x).rst = s.rst ∧ (s.wr f x).can = s.can ∧ (s.wr f x).metr = s.metr ∧
    (s.wr f x).adcs = s.adcs ∧ (s.wr f x).trst = s.trst ∧ (s.wr f x).sent = s.sent ∧ (s.wr f x).eth = s.eth ∧
    (s.wr f x).outs = s.outs ∧ (s.wr f x).pair = s.pair ∧ (s.wr f x).pending = s.pending :=
  ⟨rfl, rfl, rfl, rfl, rfl, rfl, rfl, rfl, rfl, rfl, rfl, rfl, rfl, rfl, rfl, rfl, rfl, rfl, rfl, rfl,
    rfl, rfl, rfl, rfl, rfl, rfl, rfl, rfl, rfl, rfl, rfl, rfl, rfl, rfl, rfl, rfl, rfl, rfl, rfl, rfl⟩

@[simp] theorem State.wrShadow_frame (s : State) (f : FieldRef) (x : Nat) :
    (s.wrShadow f x).phase = s.phase ∧ (s.wrShadow f x).tick = s.tick ∧ (s.wrShadow f x).cycle = s.cycle ∧
    (s.wrShadow f x).free = s.free ∧ (s.wrShadow f x).readData = s.readData ∧ (s.wrShadow f x).regs = s.regs ∧
    (s.wrShadow f x).coll = s.coll ∧ (s.wrShadow f x).sealing = s.sealing ∧ (s.wrShadow f x).wrote = s.wrote ∧
    (s.wrShadow f x).hw = s.hw ∧ (s.wrShadow f x).mem = s.mem ∧ (s.wrShadow f x).cores = s.cores ∧
    (s.wrShadow f x).evIn = s.evIn ∧ (s.wrShadow f x).evAt = s.evAt ∧ (s.wrShadow f x).began = s.began ∧
    (s.wrShadow f x).tier = s.tier ∧ (s.wrShadow f x).cmns = s.cmns ∧ (s.wrShadow f x).recd = s.recd ∧
    (s.wrShadow f x).moniBins = s.moniBins ∧ (s.wrShadow f x).bnch = s.bnch ∧ (s.wrShadow f x).ptpt = s.ptpt ∧
    (s.wrShadow f x).rtcb = s.rtcb ∧ (s.wrShadow f x).safe = s.safe ∧ (s.wrShadow f x).qm = s.qm ∧
    (s.wrShadow f x).fusa = s.fusa ∧ (s.wrShadow f x).solv = s.solv ∧ (s.wrShadow f x).diop = s.diop ∧
    (s.wrShadow f x).feed = s.feed ∧ (s.wrShadow f x).loops = s.loops ∧ (s.wrShadow f x).axes = s.axes ∧
    (s.wrShadow f x).rst = s.rst ∧ (s.wrShadow f x).can = s.can ∧ (s.wrShadow f x).metr = s.metr ∧
    (s.wrShadow f x).adcs = s.adcs ∧ (s.wrShadow f x).trst = s.trst ∧ (s.wrShadow f x).sent = s.sent ∧
    (s.wrShadow f x).eth = s.eth ∧ (s.wrShadow f x).outs = s.outs ∧ (s.wrShadow f x).pair = s.pair ∧
    (s.wrShadow f x).pending = s.pending :=
  ⟨rfl, rfl, rfl, rfl, rfl, rfl, rfl, rfl, rfl, rfl, rfl, rfl, rfl, rfl, rfl, rfl, rfl, rfl, rfl, rfl,
    rfl, rfl, rfl, rfl, rfl, rfl, rfl, rfl, rfl, rfl, rfl, rfl, rfl, rfl, rfl, rfl, rfl, rfl, rfl, rfl⟩

@[simp] theorem State.swapField_frame (s : State) (f : FieldRef) :
    (s.swapField f).phase = s.phase ∧ (s.swapField f).tick = s.tick ∧ (s.swapField f).cycle = s.cycle ∧
    (s.swapField f).free = s.free ∧ (s.swapField f).readData = s.readData ∧ (s.swapField f).shadow = s.shadow ∧
    (s.swapField f).coll = s.coll ∧ (s.swapField f).sealing = s.sealing ∧ (s.swapField f).wrote = s.wrote ∧
    (s.swapField f).hw = s.hw ∧ (s.swapField f).mem = s.mem ∧ (s.swapField f).cores = s.cores ∧
    (s.swapField f).evIn = s.evIn ∧ (s.swapField f).evAt = s.evAt ∧ (s.swapField f).began = s.began ∧
    (s.swapField f).tier = s.tier ∧ (s.swapField f).cmns = s.cmns ∧ (s.swapField f).recd = s.recd ∧
    (s.swapField f).moniBins = s.moniBins ∧ (s.swapField f).bnch = s.bnch ∧ (s.swapField f).ptpt = s.ptpt ∧
    (s.swapField f).rtcb = s.rtcb ∧ (s.swapField f).safe = s.safe ∧ (s.swapField f).qm = s.qm ∧
    (s.swapField f).fusa = s.fusa ∧ (s.swapField f).solv = s.solv ∧ (s.swapField f).diop = s.diop ∧
    (s.swapField f).feed = s.feed ∧ (s.swapField f).loops = s.loops ∧ (s.swapField f).axes = s.axes ∧
    (s.swapField f).rst = s.rst ∧ (s.swapField f).can = s.can ∧ (s.swapField f).metr = s.metr ∧
    (s.swapField f).adcs = s.adcs ∧ (s.swapField f).trst = s.trst ∧ (s.swapField f).sent = s.sent ∧
    (s.swapField f).eth = s.eth ∧ (s.swapField f).outs = s.outs ∧ (s.swapField f).pair = s.pair ∧
    (s.swapField f).pending = s.pending :=
  ⟨rfl, rfl, rfl, rfl, rfl, rfl, rfl, rfl, rfl, rfl, rfl, rfl, rfl, rfl, rfl, rfl, rfl, rfl, rfl, rfl,
    rfl, rfl, rfl, rfl, rfl, rfl, rfl, rfl, rfl, rfl, rfl, rfl, rfl, rfl, rfl, rfl, rfl, rfl, rfl, rfl⟩

@[simp] theorem State.discardColl_frame (s : State) (win : Nat) (g : Grp) (n : Option Nat) :
    (s.discardColl win g n).phase = s.phase ∧ (s.discardColl win g n).tick = s.tick ∧
    (s.discardColl win g n).cycle = s.cycle ∧ (s.discardColl win g n).free = s.free ∧
    (s.discardColl win g n).readData = s.readData ∧ (s.discardColl win g n).regs = s.regs ∧
    (s.discardColl win g n).shadow = s.shadow ∧ (s.discardColl win g n).sealing = s.sealing ∧
    (s.discardColl win g n).wrote = s.wrote ∧ (s.discardColl win g n).hw = s.hw ∧
    (s.discardColl win g n).mem = s.mem ∧ (s.discardColl win g n).cores = s.cores ∧
    (s.discardColl win g n).evIn = s.evIn ∧ (s.discardColl win g n).evAt = s.evAt ∧
    (s.discardColl win g n).began = s.began ∧ (s.discardColl win g n).tier = s.tier ∧
    (s.discardColl win g n).cmns = s.cmns ∧ (s.discardColl win g n).recd = s.recd ∧
    (s.discardColl win g n).moniBins = s.moniBins ∧ (s.discardColl win g n).bnch = s.bnch ∧
    (s.discardColl win g n).ptpt = s.ptpt ∧ (s.discardColl win g n).rtcb = s.rtcb ∧
    (s.discardColl win g n).safe = s.safe ∧ (s.discardColl win g n).qm = s.qm ∧
    (s.discardColl win g n).fusa = s.fusa ∧ (s.discardColl win g n).solv = s.solv ∧
    (s.discardColl win g n).diop = s.diop ∧ (s.discardColl win g n).feed = s.feed ∧
    (s.discardColl win g n).loops = s.loops ∧ (s.discardColl win g n).axes = s.axes ∧
    (s.discardColl win g n).rst = s.rst ∧ (s.discardColl win g n).can = s.can ∧
    (s.discardColl win g n).metr = s.metr ∧ (s.discardColl win g n).adcs = s.adcs ∧
    (s.discardColl win g n).trst = s.trst ∧ (s.discardColl win g n).sent = s.sent ∧
    (s.discardColl win g n).eth = s.eth ∧ (s.discardColl win g n).outs = s.outs ∧
    (s.discardColl win g n).pair = s.pair ∧ (s.discardColl win g n).pending = s.pending :=
  ⟨rfl, rfl, rfl, rfl, rfl, rfl, rfl, rfl, rfl, rfl, rfl, rfl, rfl, rfl, rfl, rfl, rfl, rfl, rfl, rfl,
    rfl, rfl, rfl, rfl, rfl, rfl, rfl, rfl, rfl, rfl, rfl, rfl, rfl, rfl, rfl, rfl, rfl, rfl, rfl, rfl⟩

@[simp] theorem State.noteHw_frame (s : State) (t : Nat) (f : FieldRef) (d : Nat) (peak : Bool) :
    (s.noteHw t f d peak).phase = s.phase ∧ (s.noteHw t f d peak).tick = s.tick ∧
    (s.noteHw t f d peak).cycle = s.cycle ∧ (s.noteHw t f d peak).free = s.free ∧
    (s.noteHw t f d peak).readData = s.readData ∧ (s.noteHw t f d peak).regs = s.regs ∧
    (s.noteHw t f d peak).shadow = s.shadow ∧ (s.noteHw t f d peak).coll = s.coll ∧
    (s.noteHw t f d peak).sealing = s.sealing ∧ (s.noteHw t f d peak).wrote = s.wrote ∧
    (s.noteHw t f d peak).mem = s.mem ∧ (s.noteHw t f d peak).cores = s.cores ∧ (s.noteHw t f d peak).evIn = s.evIn ∧
    (s.noteHw t f d peak).evAt = s.evAt ∧ (s.noteHw t f d peak).began = s.began ∧
    (s.noteHw t f d peak).tier = s.tier ∧ (s.noteHw t f d peak).cmns = s.cmns ∧ (s.noteHw t f d peak).recd = s.recd ∧
    (s.noteHw t f d peak).moniBins = s.moniBins ∧ (s.noteHw t f d peak).bnch = s.bnch ∧
    (s.noteHw t f d peak).ptpt = s.ptpt ∧ (s.noteHw t f d peak).rtcb = s.rtcb ∧ (s.noteHw t f d peak).safe = s.safe ∧
    (s.noteHw t f d peak).qm = s.qm ∧ (s.noteHw t f d peak).fusa = s.fusa ∧ (s.noteHw t f d peak).solv = s.solv ∧
    (s.noteHw t f d peak).diop = s.diop ∧ (s.noteHw t f d peak).feed = s.feed ∧
    (s.noteHw t f d peak).loops = s.loops ∧ (s.noteHw t f d peak).axes = s.axes ∧ (s.noteHw t f d peak).rst = s.rst ∧
    (s.noteHw t f d peak).can = s.can ∧ (s.noteHw t f d peak).metr = s.metr ∧ (s.noteHw t f d peak).adcs = s.adcs ∧
    (s.noteHw t f d peak).trst = s.trst ∧ (s.noteHw t f d peak).sent = s.sent ∧ (s.noteHw t f d peak).eth = s.eth ∧
    (s.noteHw t f d peak).outs = s.outs ∧ (s.noteHw t f d peak).pair = s.pair ∧
    (s.noteHw t f d peak).pending = s.pending :=
  ⟨rfl, rfl, rfl, rfl, rfl, rfl, rfl, rfl, rfl, rfl, rfl, rfl, rfl, rfl, rfl, rfl, rfl, rfl, rfl, rfl,
    rfl, rfl, rfl, rfl, rfl, rfl, rfl, rfl, rfl, rfl, rfl, rfl, rfl, rfl, rfl, rfl, rfl, rfl, rfl, rfl⟩

@[simp] theorem State.noteWrote_frame (s : State) (a : Nat) (live bank val : Word) :
    (s.noteWrote a live bank val).phase = s.phase ∧ (s.noteWrote a live bank val).tick = s.tick ∧
    (s.noteWrote a live bank val).cycle = s.cycle ∧ (s.noteWrote a live bank val).free = s.free ∧
    (s.noteWrote a live bank val).readData = s.readData ∧ (s.noteWrote a live bank val).regs = s.regs ∧
    (s.noteWrote a live bank val).shadow = s.shadow ∧ (s.noteWrote a live bank val).coll = s.coll ∧
    (s.noteWrote a live bank val).sealing = s.sealing ∧ (s.noteWrote a live bank val).hw = s.hw ∧
    (s.noteWrote a live bank val).mem = s.mem ∧ (s.noteWrote a live bank val).cores = s.cores ∧
    (s.noteWrote a live bank val).evIn = s.evIn ∧ (s.noteWrote a live bank val).evAt = s.evAt ∧
    (s.noteWrote a live bank val).began = s.began ∧ (s.noteWrote a live bank val).tier = s.tier ∧
    (s.noteWrote a live bank val).cmns = s.cmns ∧ (s.noteWrote a live bank val).recd = s.recd ∧
    (s.noteWrote a live bank val).moniBins = s.moniBins ∧ (s.noteWrote a live bank val).bnch = s.bnch ∧
    (s.noteWrote a live bank val).ptpt = s.ptpt ∧ (s.noteWrote a live bank val).rtcb = s.rtcb ∧
    (s.noteWrote a live bank val).safe = s.safe ∧ (s.noteWrote a live bank val).qm = s.qm ∧
    (s.noteWrote a live bank val).fusa = s.fusa ∧ (s.noteWrote a live bank val).solv = s.solv ∧
    (s.noteWrote a live bank val).diop = s.diop ∧ (s.noteWrote a live bank val).feed = s.feed ∧
    (s.noteWrote a live bank val).loops = s.loops ∧ (s.noteWrote a live bank val).axes = s.axes ∧
    (s.noteWrote a live bank val).rst = s.rst ∧ (s.noteWrote a live bank val).can = s.can ∧
    (s.noteWrote a live bank val).metr = s.metr ∧ (s.noteWrote a live bank val).adcs = s.adcs ∧
    (s.noteWrote a live bank val).trst = s.trst ∧ (s.noteWrote a live bank val).sent = s.sent ∧
    (s.noteWrote a live bank val).eth = s.eth ∧ (s.noteWrote a live bank val).outs = s.outs ∧
    (s.noteWrote a live bank val).pair = s.pair ∧ (s.noteWrote a live bank val).pending = s.pending :=
  ⟨rfl, rfl, rfl, rfl, rfl, rfl, rfl, rfl, rfl, rfl, rfl, rfl, rfl, rfl, rfl, rfl, rfl, rfl, rfl, rfl,
    rfl, rfl, rfl, rfl, rfl, rfl, rfl, rfl, rfl, rfl, rfl, rfl, rfl, rfl, rfl, rfl, rfl, rfl, rfl, rfl⟩

@[simp] theorem State.setCycle_frame (s : State) (c : Nat) :
    (s.setCycle c).phase = s.phase ∧ (s.setCycle c).tick = s.tick ∧ (s.setCycle c).free = s.free ∧
    (s.setCycle c).readData = s.readData ∧ (s.setCycle c).regs = s.regs ∧ (s.setCycle c).shadow = s.shadow ∧
    (s.setCycle c).coll = s.coll ∧ (s.setCycle c).sealing = s.sealing ∧ (s.setCycle c).wrote = s.wrote ∧
    (s.setCycle c).hw = s.hw ∧ (s.setCycle c).mem = s.mem ∧ (s.setCycle c).cores = s.cores ∧
    (s.setCycle c).evIn = s.evIn ∧ (s.setCycle c).evAt = s.evAt ∧ (s.setCycle c).began = s.began ∧
    (s.setCycle c).tier = s.tier ∧ (s.setCycle c).cmns = s.cmns ∧ (s.setCycle c).recd = s.recd ∧
    (s.setCycle c).moniBins = s.moniBins ∧ (s.setCycle c).bnch = s.bnch ∧ (s.setCycle c).ptpt = s.ptpt ∧
    (s.setCycle c).rtcb = s.rtcb ∧ (s.setCycle c).safe = s.safe ∧ (s.setCycle c).qm = s.qm ∧
    (s.setCycle c).fusa = s.fusa ∧ (s.setCycle c).solv = s.solv ∧ (s.setCycle c).diop = s.diop ∧
    (s.setCycle c).feed = s.feed ∧ (s.setCycle c).loops = s.loops ∧ (s.setCycle c).axes = s.axes ∧
    (s.setCycle c).rst = s.rst ∧ (s.setCycle c).can = s.can ∧ (s.setCycle c).metr = s.metr ∧
    (s.setCycle c).adcs = s.adcs ∧ (s.setCycle c).trst = s.trst ∧ (s.setCycle c).sent = s.sent ∧
    (s.setCycle c).eth = s.eth ∧ (s.setCycle c).outs = s.outs ∧ (s.setCycle c).pair = s.pair ∧
    (s.setCycle c).pending = s.pending :=
  ⟨rfl, rfl, rfl, rfl, rfl, rfl, rfl, rfl, rfl, rfl, rfl, rfl, rfl, rfl, rfl, rfl, rfl, rfl, rfl, rfl,
    rfl, rfl, rfl, rfl, rfl, rfl, rfl, rfl, rfl, rfl, rfl, rfl, rfl, rfl, rfl, rfl, rfl, rfl, rfl, rfl⟩

@[simp] theorem State.setCycle_cycle (s : State) (c : Nat) : (s.setCycle c).cycle = c := rfl

@[simp] theorem State.setCore_frame (s : State) (p : Nat) (c : CoreS) :
    (s.setCore p c).phase = s.phase ∧ (s.setCore p c).tick = s.tick ∧ (s.setCore p c).cycle = s.cycle ∧
    (s.setCore p c).free = s.free ∧ (s.setCore p c).readData = s.readData ∧ (s.setCore p c).regs = s.regs ∧
    (s.setCore p c).shadow = s.shadow ∧ (s.setCore p c).coll = s.coll ∧ (s.setCore p c).sealing = s.sealing ∧
    (s.setCore p c).wrote = s.wrote ∧ (s.setCore p c).hw = s.hw ∧ (s.setCore p c).mem = s.mem ∧
    (s.setCore p c).evIn = s.evIn ∧ (s.setCore p c).evAt = s.evAt ∧ (s.setCore p c).began = s.began ∧
    (s.setCore p c).tier = s.tier ∧ (s.setCore p c).cmns = s.cmns ∧ (s.setCore p c).recd = s.recd ∧
    (s.setCore p c).moniBins = s.moniBins ∧ (s.setCore p c).bnch = s.bnch ∧ (s.setCore p c).ptpt = s.ptpt ∧
    (s.setCore p c).rtcb = s.rtcb ∧ (s.setCore p c).safe = s.safe ∧ (s.setCore p c).qm = s.qm ∧
    (s.setCore p c).fusa = s.fusa ∧ (s.setCore p c).solv = s.solv ∧ (s.setCore p c).diop = s.diop ∧
    (s.setCore p c).feed = s.feed ∧ (s.setCore p c).loops = s.loops ∧ (s.setCore p c).axes = s.axes ∧
    (s.setCore p c).rst = s.rst ∧ (s.setCore p c).can = s.can ∧ (s.setCore p c).metr = s.metr ∧
    (s.setCore p c).adcs = s.adcs ∧ (s.setCore p c).trst = s.trst ∧ (s.setCore p c).sent = s.sent ∧
    (s.setCore p c).eth = s.eth ∧ (s.setCore p c).outs = s.outs ∧ (s.setCore p c).pair = s.pair ∧
    (s.setCore p c).pending = s.pending :=
  ⟨rfl, rfl, rfl, rfl, rfl, rfl, rfl, rfl, rfl, rfl, rfl, rfl, rfl, rfl, rfl, rfl, rfl, rfl, rfl, rfl,
    rfl, rfl, rfl, rfl, rfl, rfl, rfl, rfl, rfl, rfl, rfl, rfl, rfl, rfl, rfl, rfl, rfl, rfl, rfl, rfl⟩

@[simp] theorem State.setCmns_frame (s : State) (c : CmnsS) :
    (s.setCmns c).phase = s.phase ∧ (s.setCmns c).tick = s.tick ∧ (s.setCmns c).cycle = s.cycle ∧
    (s.setCmns c).free = s.free ∧ (s.setCmns c).readData = s.readData ∧ (s.setCmns c).regs = s.regs ∧
    (s.setCmns c).shadow = s.shadow ∧ (s.setCmns c).coll = s.coll ∧ (s.setCmns c).sealing = s.sealing ∧
    (s.setCmns c).wrote = s.wrote ∧ (s.setCmns c).hw = s.hw ∧ (s.setCmns c).mem = s.mem ∧
    (s.setCmns c).cores = s.cores ∧ (s.setCmns c).evIn = s.evIn ∧ (s.setCmns c).evAt = s.evAt ∧
    (s.setCmns c).began = s.began ∧ (s.setCmns c).tier = s.tier ∧ (s.setCmns c).recd = s.recd ∧
    (s.setCmns c).moniBins = s.moniBins ∧ (s.setCmns c).bnch = s.bnch ∧ (s.setCmns c).ptpt = s.ptpt ∧
    (s.setCmns c).rtcb = s.rtcb ∧ (s.setCmns c).safe = s.safe ∧ (s.setCmns c).qm = s.qm ∧
    (s.setCmns c).fusa = s.fusa ∧ (s.setCmns c).solv = s.solv ∧ (s.setCmns c).diop = s.diop ∧
    (s.setCmns c).feed = s.feed ∧ (s.setCmns c).loops = s.loops ∧ (s.setCmns c).axes = s.axes ∧
    (s.setCmns c).rst = s.rst ∧ (s.setCmns c).can = s.can ∧ (s.setCmns c).metr = s.metr ∧
    (s.setCmns c).adcs = s.adcs ∧ (s.setCmns c).trst = s.trst ∧ (s.setCmns c).sent = s.sent ∧
    (s.setCmns c).eth = s.eth ∧ (s.setCmns c).outs = s.outs ∧ (s.setCmns c).pair = s.pair ∧
    (s.setCmns c).pending = s.pending :=
  ⟨rfl, rfl, rfl, rfl, rfl, rfl, rfl, rfl, rfl, rfl, rfl, rfl, rfl, rfl, rfl, rfl, rfl, rfl, rfl, rfl,
    rfl, rfl, rfl, rfl, rfl, rfl, rfl, rfl, rfl, rfl, rfl, rfl, rfl, rfl, rfl, rfl, rfl, rfl, rfl, rfl⟩

@[simp] theorem State.setCmns_cmns (s : State) (c : CmnsS) : (s.setCmns c).cmns = c := rfl

@[simp] theorem State.setMark_frame (s : State) (w : Nat) (m : ErrMark) :
    (s.setMark w m).phase = s.phase ∧ (s.setMark w m).tick = s.tick ∧ (s.setMark w m).cycle = s.cycle ∧
    (s.setMark w m).free = s.free ∧ (s.setMark w m).readData = s.readData ∧ (s.setMark w m).regs = s.regs ∧
    (s.setMark w m).shadow = s.shadow ∧ (s.setMark w m).coll = s.coll ∧ (s.setMark w m).sealing = s.sealing ∧
    (s.setMark w m).wrote = s.wrote ∧ (s.setMark w m).hw = s.hw ∧ (s.setMark w m).mem = s.mem ∧
    (s.setMark w m).cores = s.cores ∧ (s.setMark w m).evIn = s.evIn ∧ (s.setMark w m).evAt = s.evAt ∧
    (s.setMark w m).began = s.began ∧ (s.setMark w m).tier = s.tier ∧ (s.setMark w m).recd = s.recd ∧
    (s.setMark w m).moniBins = s.moniBins ∧ (s.setMark w m).bnch = s.bnch ∧ (s.setMark w m).ptpt = s.ptpt ∧
    (s.setMark w m).rtcb = s.rtcb ∧ (s.setMark w m).safe = s.safe ∧ (s.setMark w m).qm = s.qm ∧
    (s.setMark w m).fusa = s.fusa ∧ (s.setMark w m).solv = s.solv ∧ (s.setMark w m).diop = s.diop ∧
    (s.setMark w m).feed = s.feed ∧ (s.setMark w m).loops = s.loops ∧ (s.setMark w m).axes = s.axes ∧
    (s.setMark w m).rst = s.rst ∧ (s.setMark w m).can = s.can ∧ (s.setMark w m).metr = s.metr ∧
    (s.setMark w m).adcs = s.adcs ∧ (s.setMark w m).trst = s.trst ∧ (s.setMark w m).sent = s.sent ∧
    (s.setMark w m).eth = s.eth ∧ (s.setMark w m).outs = s.outs ∧ (s.setMark w m).pair = s.pair ∧
    (s.setMark w m).pending = s.pending :=
  ⟨rfl, rfl, rfl, rfl, rfl, rfl, rfl, rfl, rfl, rfl, rfl, rfl, rfl, rfl, rfl, rfl, rfl, rfl, rfl, rfl,
    rfl, rfl, rfl, rfl, rfl, rfl, rfl, rfl, rfl, rfl, rfl, rfl, rfl, rfl, rfl, rfl, rfl, rfl, rfl, rfl⟩

@[simp] theorem State.setTier_frame (s : State) (t : TierS) :
    (s.setTier t).phase = s.phase ∧ (s.setTier t).tick = s.tick ∧ (s.setTier t).cycle = s.cycle ∧
    (s.setTier t).free = s.free ∧ (s.setTier t).readData = s.readData ∧ (s.setTier t).regs = s.regs ∧
    (s.setTier t).shadow = s.shadow ∧ (s.setTier t).coll = s.coll ∧ (s.setTier t).sealing = s.sealing ∧
    (s.setTier t).wrote = s.wrote ∧ (s.setTier t).hw = s.hw ∧ (s.setTier t).mem = s.mem ∧
    (s.setTier t).cores = s.cores ∧ (s.setTier t).evIn = s.evIn ∧ (s.setTier t).evAt = s.evAt ∧
    (s.setTier t).began = s.began ∧ (s.setTier t).cmns = s.cmns ∧ (s.setTier t).recd = s.recd ∧
    (s.setTier t).moniBins = s.moniBins ∧ (s.setTier t).bnch = s.bnch ∧ (s.setTier t).ptpt = s.ptpt ∧
    (s.setTier t).rtcb = s.rtcb ∧ (s.setTier t).safe = s.safe ∧ (s.setTier t).qm = s.qm ∧
    (s.setTier t).fusa = s.fusa ∧ (s.setTier t).solv = s.solv ∧ (s.setTier t).diop = s.diop ∧
    (s.setTier t).feed = s.feed ∧ (s.setTier t).loops = s.loops ∧ (s.setTier t).axes = s.axes ∧
    (s.setTier t).rst = s.rst ∧ (s.setTier t).can = s.can ∧ (s.setTier t).metr = s.metr ∧
    (s.setTier t).adcs = s.adcs ∧ (s.setTier t).trst = s.trst ∧ (s.setTier t).sent = s.sent ∧
    (s.setTier t).eth = s.eth ∧ (s.setTier t).outs = s.outs ∧ (s.setTier t).pair = s.pair ∧
    (s.setTier t).pending = s.pending :=
  ⟨rfl, rfl, rfl, rfl, rfl, rfl, rfl, rfl, rfl, rfl, rfl, rfl, rfl, rfl, rfl, rfl, rfl, rfl, rfl, rfl,
    rfl, rfl, rfl, rfl, rfl, rfl, rfl, rfl, rfl, rfl, rfl, rfl, rfl, rfl, rfl, rfl, rfl, rfl, rfl, rfl⟩

@[simp] theorem State.setTier_tier (s : State) (t : TierS) : (s.setTier t).tier = t := rfl

@[simp] theorem State.setJob_frame (s : State) (n : Nat) (j : JobS) :
    (s.setJob n j).phase = s.phase ∧ (s.setJob n j).tick = s.tick ∧ (s.setJob n j).cycle = s.cycle ∧
    (s.setJob n j).free = s.free ∧ (s.setJob n j).readData = s.readData ∧ (s.setJob n j).regs = s.regs ∧
    (s.setJob n j).shadow = s.shadow ∧ (s.setJob n j).coll = s.coll ∧ (s.setJob n j).sealing = s.sealing ∧
    (s.setJob n j).wrote = s.wrote ∧ (s.setJob n j).hw = s.hw ∧ (s.setJob n j).mem = s.mem ∧
    (s.setJob n j).cores = s.cores ∧ (s.setJob n j).evIn = s.evIn ∧ (s.setJob n j).evAt = s.evAt ∧
    (s.setJob n j).began = s.began ∧ (s.setJob n j).cmns = s.cmns ∧ (s.setJob n j).recd = s.recd ∧
    (s.setJob n j).moniBins = s.moniBins ∧ (s.setJob n j).bnch = s.bnch ∧ (s.setJob n j).ptpt = s.ptpt ∧
    (s.setJob n j).rtcb = s.rtcb ∧ (s.setJob n j).safe = s.safe ∧ (s.setJob n j).qm = s.qm ∧
    (s.setJob n j).fusa = s.fusa ∧ (s.setJob n j).solv = s.solv ∧ (s.setJob n j).diop = s.diop ∧
    (s.setJob n j).feed = s.feed ∧ (s.setJob n j).loops = s.loops ∧ (s.setJob n j).axes = s.axes ∧
    (s.setJob n j).rst = s.rst ∧ (s.setJob n j).can = s.can ∧ (s.setJob n j).metr = s.metr ∧
    (s.setJob n j).adcs = s.adcs ∧ (s.setJob n j).trst = s.trst ∧ (s.setJob n j).sent = s.sent ∧
    (s.setJob n j).eth = s.eth ∧ (s.setJob n j).outs = s.outs ∧ (s.setJob n j).pair = s.pair ∧
    (s.setJob n j).pending = s.pending :=
  ⟨rfl, rfl, rfl, rfl, rfl, rfl, rfl, rfl, rfl, rfl, rfl, rfl, rfl, rfl, rfl, rfl, rfl, rfl, rfl, rfl,
    rfl, rfl, rfl, rfl, rfl, rfl, rfl, rfl, rfl, rfl, rfl, rfl, rfl, rfl, rfl, rfl, rfl, rfl, rfl, rfl⟩

@[simp] theorem State.setDiop_frame (s : State) (d : DiopS) :
    (s.setDiop d).phase = s.phase ∧ (s.setDiop d).tick = s.tick ∧ (s.setDiop d).cycle = s.cycle ∧
    (s.setDiop d).free = s.free ∧ (s.setDiop d).readData = s.readData ∧ (s.setDiop d).regs = s.regs ∧
    (s.setDiop d).shadow = s.shadow ∧ (s.setDiop d).coll = s.coll ∧ (s.setDiop d).sealing = s.sealing ∧
    (s.setDiop d).wrote = s.wrote ∧ (s.setDiop d).hw = s.hw ∧ (s.setDiop d).mem = s.mem ∧
    (s.setDiop d).cores = s.cores ∧ (s.setDiop d).evIn = s.evIn ∧ (s.setDiop d).evAt = s.evAt ∧
    (s.setDiop d).began = s.began ∧ (s.setDiop d).tier = s.tier ∧ (s.setDiop d).cmns = s.cmns ∧
    (s.setDiop d).recd = s.recd ∧ (s.setDiop d).moniBins = s.moniBins ∧ (s.setDiop d).bnch = s.bnch ∧
    (s.setDiop d).ptpt = s.ptpt ∧ (s.setDiop d).rtcb = s.rtcb ∧ (s.setDiop d).safe = s.safe ∧
    (s.setDiop d).qm = s.qm ∧ (s.setDiop d).fusa = s.fusa ∧ (s.setDiop d).solv = s.solv ∧
    (s.setDiop d).feed = s.feed ∧ (s.setDiop d).loops = s.loops ∧ (s.setDiop d).axes = s.axes ∧
    (s.setDiop d).rst = s.rst ∧ (s.setDiop d).can = s.can ∧ (s.setDiop d).metr = s.metr ∧
    (s.setDiop d).adcs = s.adcs ∧ (s.setDiop d).trst = s.trst ∧ (s.setDiop d).sent = s.sent ∧
    (s.setDiop d).eth = s.eth ∧ (s.setDiop d).outs = s.outs ∧ (s.setDiop d).pair = s.pair ∧
    (s.setDiop d).pending = s.pending :=
  ⟨rfl, rfl, rfl, rfl, rfl, rfl, rfl, rfl, rfl, rfl, rfl, rfl, rfl, rfl, rfl, rfl, rfl, rfl, rfl, rfl,
    rfl, rfl, rfl, rfl, rfl, rfl, rfl, rfl, rfl, rfl, rfl, rfl, rfl, rfl, rfl, rfl, rfl, rfl, rfl, rfl⟩

@[simp] theorem State.setDiop_diop (s : State) (d : DiopS) : (s.setDiop d).diop = d := rfl

@[simp] theorem State.setLoops_frame (s : State) (l : LoopsS) :
    (s.setLoops l).phase = s.phase ∧ (s.setLoops l).tick = s.tick ∧ (s.setLoops l).cycle = s.cycle ∧
    (s.setLoops l).free = s.free ∧ (s.setLoops l).readData = s.readData ∧ (s.setLoops l).regs = s.regs ∧
    (s.setLoops l).shadow = s.shadow ∧ (s.setLoops l).coll = s.coll ∧ (s.setLoops l).sealing = s.sealing ∧
    (s.setLoops l).wrote = s.wrote ∧ (s.setLoops l).hw = s.hw ∧ (s.setLoops l).mem = s.mem ∧
    (s.setLoops l).cores = s.cores ∧ (s.setLoops l).evIn = s.evIn ∧ (s.setLoops l).evAt = s.evAt ∧
    (s.setLoops l).began = s.began ∧ (s.setLoops l).tier = s.tier ∧ (s.setLoops l).cmns = s.cmns ∧
    (s.setLoops l).recd = s.recd ∧ (s.setLoops l).moniBins = s.moniBins ∧ (s.setLoops l).bnch = s.bnch ∧
    (s.setLoops l).ptpt = s.ptpt ∧ (s.setLoops l).rtcb = s.rtcb ∧ (s.setLoops l).safe = s.safe ∧
    (s.setLoops l).qm = s.qm ∧ (s.setLoops l).fusa = s.fusa ∧ (s.setLoops l).solv = s.solv ∧
    (s.setLoops l).diop = s.diop ∧ (s.setLoops l).feed = s.feed ∧ (s.setLoops l).axes = s.axes ∧
    (s.setLoops l).rst = s.rst ∧ (s.setLoops l).can = s.can ∧ (s.setLoops l).metr = s.metr ∧
    (s.setLoops l).adcs = s.adcs ∧ (s.setLoops l).trst = s.trst ∧ (s.setLoops l).sent = s.sent ∧
    (s.setLoops l).eth = s.eth ∧ (s.setLoops l).outs = s.outs ∧ (s.setLoops l).pair = s.pair ∧
    (s.setLoops l).pending = s.pending :=
  ⟨rfl, rfl, rfl, rfl, rfl, rfl, rfl, rfl, rfl, rfl, rfl, rfl, rfl, rfl, rfl, rfl, rfl, rfl, rfl, rfl,
    rfl, rfl, rfl, rfl, rfl, rfl, rfl, rfl, rfl, rfl, rfl, rfl, rfl, rfl, rfl, rfl, rfl, rfl, rfl, rfl⟩

@[simp] theorem State.setLoops_loops (s : State) (l : LoopsS) : (s.setLoops l).loops = l := rfl

@[simp] theorem State.setLoop_frame (s : State) (n : Nat) (l : LoopS) :
    (s.setLoop n l).phase = s.phase ∧ (s.setLoop n l).tick = s.tick ∧ (s.setLoop n l).cycle = s.cycle ∧
    (s.setLoop n l).free = s.free ∧ (s.setLoop n l).readData = s.readData ∧ (s.setLoop n l).regs = s.regs ∧
    (s.setLoop n l).shadow = s.shadow ∧ (s.setLoop n l).coll = s.coll ∧ (s.setLoop n l).sealing = s.sealing ∧
    (s.setLoop n l).wrote = s.wrote ∧ (s.setLoop n l).hw = s.hw ∧ (s.setLoop n l).mem = s.mem ∧
    (s.setLoop n l).cores = s.cores ∧ (s.setLoop n l).evIn = s.evIn ∧ (s.setLoop n l).evAt = s.evAt ∧
    (s.setLoop n l).began = s.began ∧ (s.setLoop n l).tier = s.tier ∧ (s.setLoop n l).cmns = s.cmns ∧
    (s.setLoop n l).recd = s.recd ∧ (s.setLoop n l).moniBins = s.moniBins ∧ (s.setLoop n l).bnch = s.bnch ∧
    (s.setLoop n l).ptpt = s.ptpt ∧ (s.setLoop n l).rtcb = s.rtcb ∧ (s.setLoop n l).safe = s.safe ∧
    (s.setLoop n l).qm = s.qm ∧ (s.setLoop n l).fusa = s.fusa ∧ (s.setLoop n l).solv = s.solv ∧
    (s.setLoop n l).diop = s.diop ∧ (s.setLoop n l).feed = s.feed ∧ (s.setLoop n l).axes = s.axes ∧
    (s.setLoop n l).rst = s.rst ∧ (s.setLoop n l).can = s.can ∧ (s.setLoop n l).metr = s.metr ∧
    (s.setLoop n l).adcs = s.adcs ∧ (s.setLoop n l).trst = s.trst ∧ (s.setLoop n l).sent = s.sent ∧
    (s.setLoop n l).eth = s.eth ∧ (s.setLoop n l).outs = s.outs ∧ (s.setLoop n l).pair = s.pair ∧
    (s.setLoop n l).pending = s.pending :=
  ⟨rfl, rfl, rfl, rfl, rfl, rfl, rfl, rfl, rfl, rfl, rfl, rfl, rfl, rfl, rfl, rfl, rfl, rfl, rfl, rfl,
    rfl, rfl, rfl, rfl, rfl, rfl, rfl, rfl, rfl, rfl, rfl, rfl, rfl, rfl, rfl, rfl, rfl, rfl, rfl, rfl⟩

@[simp] theorem State.setQm_frame (s : State) (q : QmS) :
    (s.setQm q).phase = s.phase ∧ (s.setQm q).tick = s.tick ∧ (s.setQm q).cycle = s.cycle ∧
    (s.setQm q).free = s.free ∧ (s.setQm q).readData = s.readData ∧ (s.setQm q).regs = s.regs ∧
    (s.setQm q).shadow = s.shadow ∧ (s.setQm q).coll = s.coll ∧ (s.setQm q).sealing = s.sealing ∧
    (s.setQm q).wrote = s.wrote ∧ (s.setQm q).hw = s.hw ∧ (s.setQm q).mem = s.mem ∧ (s.setQm q).cores = s.cores ∧
    (s.setQm q).evIn = s.evIn ∧ (s.setQm q).evAt = s.evAt ∧ (s.setQm q).began = s.began ∧ (s.setQm q).tier = s.tier ∧
    (s.setQm q).cmns = s.cmns ∧ (s.setQm q).recd = s.recd ∧ (s.setQm q).moniBins = s.moniBins ∧
    (s.setQm q).bnch = s.bnch ∧ (s.setQm q).ptpt = s.ptpt ∧ (s.setQm q).rtcb = s.rtcb ∧ (s.setQm q).safe = s.safe ∧
    (s.setQm q).fusa = s.fusa ∧ (s.setQm q).solv = s.solv ∧ (s.setQm q).diop = s.diop ∧ (s.setQm q).feed = s.feed ∧
    (s.setQm q).loops = s.loops ∧ (s.setQm q).axes = s.axes ∧ (s.setQm q).rst = s.rst ∧ (s.setQm q).can = s.can ∧
    (s.setQm q).metr = s.metr ∧ (s.setQm q).adcs = s.adcs ∧ (s.setQm q).trst = s.trst ∧ (s.setQm q).sent = s.sent ∧
    (s.setQm q).eth = s.eth ∧ (s.setQm q).outs = s.outs ∧ (s.setQm q).pair = s.pair ∧
    (s.setQm q).pending = s.pending :=
  ⟨rfl, rfl, rfl, rfl, rfl, rfl, rfl, rfl, rfl, rfl, rfl, rfl, rfl, rfl, rfl, rfl, rfl, rfl, rfl, rfl,
    rfl, rfl, rfl, rfl, rfl, rfl, rfl, rfl, rfl, rfl, rfl, rfl, rfl, rfl, rfl, rfl, rfl, rfl, rfl, rfl⟩

@[simp] theorem State.setQm_qm (s : State) (q : QmS) : (s.setQm q).qm = q := rfl

@[simp] theorem State.setFusa_frame (s : State) (f : FusaS) :
    (s.setFusa f).phase = s.phase ∧ (s.setFusa f).tick = s.tick ∧ (s.setFusa f).cycle = s.cycle ∧
    (s.setFusa f).free = s.free ∧ (s.setFusa f).readData = s.readData ∧ (s.setFusa f).regs = s.regs ∧
    (s.setFusa f).shadow = s.shadow ∧ (s.setFusa f).coll = s.coll ∧ (s.setFusa f).sealing = s.sealing ∧
    (s.setFusa f).wrote = s.wrote ∧ (s.setFusa f).hw = s.hw ∧ (s.setFusa f).mem = s.mem ∧
    (s.setFusa f).cores = s.cores ∧ (s.setFusa f).evIn = s.evIn ∧ (s.setFusa f).evAt = s.evAt ∧
    (s.setFusa f).began = s.began ∧ (s.setFusa f).tier = s.tier ∧ (s.setFusa f).cmns = s.cmns ∧
    (s.setFusa f).recd = s.recd ∧ (s.setFusa f).moniBins = s.moniBins ∧ (s.setFusa f).bnch = s.bnch ∧
    (s.setFusa f).ptpt = s.ptpt ∧ (s.setFusa f).rtcb = s.rtcb ∧ (s.setFusa f).safe = s.safe ∧
    (s.setFusa f).qm = s.qm ∧ (s.setFusa f).solv = s.solv ∧ (s.setFusa f).diop = s.diop ∧
    (s.setFusa f).feed = s.feed ∧ (s.setFusa f).loops = s.loops ∧ (s.setFusa f).axes = s.axes ∧
    (s.setFusa f).rst = s.rst ∧ (s.setFusa f).can = s.can ∧ (s.setFusa f).metr = s.metr ∧
    (s.setFusa f).adcs = s.adcs ∧ (s.setFusa f).trst = s.trst ∧ (s.setFusa f).sent = s.sent ∧
    (s.setFusa f).eth = s.eth ∧ (s.setFusa f).outs = s.outs ∧ (s.setFusa f).pair = s.pair ∧
    (s.setFusa f).pending = s.pending :=
  ⟨rfl, rfl, rfl, rfl, rfl, rfl, rfl, rfl, rfl, rfl, rfl, rfl, rfl, rfl, rfl, rfl, rfl, rfl, rfl, rfl,
    rfl, rfl, rfl, rfl, rfl, rfl, rfl, rfl, rfl, rfl, rfl, rfl, rfl, rfl, rfl, rfl, rfl, rfl, rfl, rfl⟩

@[simp] theorem State.setFusa_fusa (s : State) (f : FusaS) : (s.setFusa f).fusa = f := rfl

@[simp] theorem State.setSolv_frame (s : State) (x : SolvS) :
    (s.setSolv x).phase = s.phase ∧ (s.setSolv x).tick = s.tick ∧ (s.setSolv x).cycle = s.cycle ∧
    (s.setSolv x).free = s.free ∧ (s.setSolv x).readData = s.readData ∧ (s.setSolv x).regs = s.regs ∧
    (s.setSolv x).shadow = s.shadow ∧ (s.setSolv x).coll = s.coll ∧ (s.setSolv x).sealing = s.sealing ∧
    (s.setSolv x).wrote = s.wrote ∧ (s.setSolv x).hw = s.hw ∧ (s.setSolv x).mem = s.mem ∧
    (s.setSolv x).cores = s.cores ∧ (s.setSolv x).evIn = s.evIn ∧ (s.setSolv x).evAt = s.evAt ∧
    (s.setSolv x).began = s.began ∧ (s.setSolv x).tier = s.tier ∧ (s.setSolv x).cmns = s.cmns ∧
    (s.setSolv x).recd = s.recd ∧ (s.setSolv x).moniBins = s.moniBins ∧ (s.setSolv x).bnch = s.bnch ∧
    (s.setSolv x).ptpt = s.ptpt ∧ (s.setSolv x).rtcb = s.rtcb ∧ (s.setSolv x).safe = s.safe ∧
    (s.setSolv x).qm = s.qm ∧ (s.setSolv x).fusa = s.fusa ∧ (s.setSolv x).diop = s.diop ∧
    (s.setSolv x).feed = s.feed ∧ (s.setSolv x).loops = s.loops ∧ (s.setSolv x).axes = s.axes ∧
    (s.setSolv x).rst = s.rst ∧ (s.setSolv x).can = s.can ∧ (s.setSolv x).metr = s.metr ∧
    (s.setSolv x).adcs = s.adcs ∧ (s.setSolv x).trst = s.trst ∧ (s.setSolv x).sent = s.sent ∧
    (s.setSolv x).eth = s.eth ∧ (s.setSolv x).outs = s.outs ∧ (s.setSolv x).pair = s.pair ∧
    (s.setSolv x).pending = s.pending :=
  ⟨rfl, rfl, rfl, rfl, rfl, rfl, rfl, rfl, rfl, rfl, rfl, rfl, rfl, rfl, rfl, rfl, rfl, rfl, rfl, rfl,
    rfl, rfl, rfl, rfl, rfl, rfl, rfl, rfl, rfl, rfl, rfl, rfl, rfl, rfl, rfl, rfl, rfl, rfl, rfl, rfl⟩

@[simp] theorem State.setSolv_solv (s : State) (x : SolvS) : (s.setSolv x).solv = x := rfl

@[simp] theorem State.setFeed_frame (s : State) (f : FeedS) :
    (s.setFeed f).phase = s.phase ∧ (s.setFeed f).tick = s.tick ∧ (s.setFeed f).cycle = s.cycle ∧
    (s.setFeed f).free = s.free ∧ (s.setFeed f).readData = s.readData ∧ (s.setFeed f).regs = s.regs ∧
    (s.setFeed f).shadow = s.shadow ∧ (s.setFeed f).coll = s.coll ∧ (s.setFeed f).sealing = s.sealing ∧
    (s.setFeed f).wrote = s.wrote ∧ (s.setFeed f).hw = s.hw ∧ (s.setFeed f).mem = s.mem ∧
    (s.setFeed f).cores = s.cores ∧ (s.setFeed f).evIn = s.evIn ∧ (s.setFeed f).evAt = s.evAt ∧
    (s.setFeed f).began = s.began ∧ (s.setFeed f).tier = s.tier ∧ (s.setFeed f).cmns = s.cmns ∧
    (s.setFeed f).recd = s.recd ∧ (s.setFeed f).moniBins = s.moniBins ∧ (s.setFeed f).bnch = s.bnch ∧
    (s.setFeed f).ptpt = s.ptpt ∧ (s.setFeed f).rtcb = s.rtcb ∧ (s.setFeed f).safe = s.safe ∧
    (s.setFeed f).qm = s.qm ∧ (s.setFeed f).fusa = s.fusa ∧ (s.setFeed f).solv = s.solv ∧
    (s.setFeed f).diop = s.diop ∧ (s.setFeed f).loops = s.loops ∧ (s.setFeed f).axes = s.axes ∧
    (s.setFeed f).rst = s.rst ∧ (s.setFeed f).can = s.can ∧ (s.setFeed f).metr = s.metr ∧
    (s.setFeed f).adcs = s.adcs ∧ (s.setFeed f).trst = s.trst ∧ (s.setFeed f).sent = s.sent ∧
    (s.setFeed f).eth = s.eth ∧ (s.setFeed f).outs = s.outs ∧ (s.setFeed f).pair = s.pair ∧
    (s.setFeed f).pending = s.pending :=
  ⟨rfl, rfl, rfl, rfl, rfl, rfl, rfl, rfl, rfl, rfl, rfl, rfl, rfl, rfl, rfl, rfl, rfl, rfl, rfl, rfl,
    rfl, rfl, rfl, rfl, rfl, rfl, rfl, rfl, rfl, rfl, rfl, rfl, rfl, rfl, rfl, rfl, rfl, rfl, rfl, rfl⟩

@[simp] theorem State.setFeed_feed (s : State) (f : FeedS) : (s.setFeed f).feed = f := rfl

@[simp] theorem State.setRst_frame (s : State) (r : RstS) :
    (s.setRst r).phase = s.phase ∧ (s.setRst r).tick = s.tick ∧ (s.setRst r).cycle = s.cycle ∧
    (s.setRst r).free = s.free ∧ (s.setRst r).readData = s.readData ∧ (s.setRst r).regs = s.regs ∧
    (s.setRst r).shadow = s.shadow ∧ (s.setRst r).coll = s.coll ∧ (s.setRst r).sealing = s.sealing ∧
    (s.setRst r).wrote = s.wrote ∧ (s.setRst r).hw = s.hw ∧ (s.setRst r).mem = s.mem ∧ (s.setRst r).cores = s.cores ∧
    (s.setRst r).evIn = s.evIn ∧ (s.setRst r).evAt = s.evAt ∧ (s.setRst r).began = s.began ∧
    (s.setRst r).tier = s.tier ∧ (s.setRst r).cmns = s.cmns ∧ (s.setRst r).recd = s.recd ∧
    (s.setRst r).moniBins = s.moniBins ∧ (s.setRst r).bnch = s.bnch ∧ (s.setRst r).ptpt = s.ptpt ∧
    (s.setRst r).rtcb = s.rtcb ∧ (s.setRst r).safe = s.safe ∧ (s.setRst r).qm = s.qm ∧ (s.setRst r).fusa = s.fusa ∧
    (s.setRst r).solv = s.solv ∧ (s.setRst r).diop = s.diop ∧ (s.setRst r).feed = s.feed ∧
    (s.setRst r).loops = s.loops ∧ (s.setRst r).axes = s.axes ∧ (s.setRst r).can = s.can ∧
    (s.setRst r).metr = s.metr ∧ (s.setRst r).adcs = s.adcs ∧ (s.setRst r).trst = s.trst ∧
    (s.setRst r).sent = s.sent ∧ (s.setRst r).eth = s.eth ∧ (s.setRst r).outs = s.outs ∧ (s.setRst r).pair = s.pair ∧
    (s.setRst r).pending = s.pending :=
  ⟨rfl, rfl, rfl, rfl, rfl, rfl, rfl, rfl, rfl, rfl, rfl, rfl, rfl, rfl, rfl, rfl, rfl, rfl, rfl, rfl,
    rfl, rfl, rfl, rfl, rfl, rfl, rfl, rfl, rfl, rfl, rfl, rfl, rfl, rfl, rfl, rfl, rfl, rfl, rfl, rfl⟩

@[simp] theorem State.setRst_rst (s : State) (r : RstS) : (s.setRst r).rst = r := rfl

@[simp] theorem State.setCan_frame (s : State) (c : CanS) :
    (s.setCan c).phase = s.phase ∧ (s.setCan c).tick = s.tick ∧ (s.setCan c).cycle = s.cycle ∧
    (s.setCan c).free = s.free ∧ (s.setCan c).readData = s.readData ∧ (s.setCan c).regs = s.regs ∧
    (s.setCan c).shadow = s.shadow ∧ (s.setCan c).coll = s.coll ∧ (s.setCan c).sealing = s.sealing ∧
    (s.setCan c).wrote = s.wrote ∧ (s.setCan c).hw = s.hw ∧ (s.setCan c).mem = s.mem ∧ (s.setCan c).cores = s.cores ∧
    (s.setCan c).evIn = s.evIn ∧ (s.setCan c).evAt = s.evAt ∧ (s.setCan c).began = s.began ∧
    (s.setCan c).tier = s.tier ∧ (s.setCan c).cmns = s.cmns ∧ (s.setCan c).recd = s.recd ∧
    (s.setCan c).moniBins = s.moniBins ∧ (s.setCan c).bnch = s.bnch ∧ (s.setCan c).ptpt = s.ptpt ∧
    (s.setCan c).rtcb = s.rtcb ∧ (s.setCan c).safe = s.safe ∧ (s.setCan c).qm = s.qm ∧ (s.setCan c).fusa = s.fusa ∧
    (s.setCan c).solv = s.solv ∧ (s.setCan c).diop = s.diop ∧ (s.setCan c).feed = s.feed ∧
    (s.setCan c).loops = s.loops ∧ (s.setCan c).axes = s.axes ∧ (s.setCan c).rst = s.rst ∧
    (s.setCan c).metr = s.metr ∧ (s.setCan c).adcs = s.adcs ∧ (s.setCan c).trst = s.trst ∧
    (s.setCan c).sent = s.sent ∧ (s.setCan c).eth = s.eth ∧ (s.setCan c).outs = s.outs ∧ (s.setCan c).pair = s.pair ∧
    (s.setCan c).pending = s.pending :=
  ⟨rfl, rfl, rfl, rfl, rfl, rfl, rfl, rfl, rfl, rfl, rfl, rfl, rfl, rfl, rfl, rfl, rfl, rfl, rfl, rfl,
    rfl, rfl, rfl, rfl, rfl, rfl, rfl, rfl, rfl, rfl, rfl, rfl, rfl, rfl, rfl, rfl, rfl, rfl, rfl, rfl⟩

@[simp] theorem State.setCan_can (s : State) (c : CanS) : (s.setCan c).can = c := rfl

@[simp] theorem State.setCh_frame (s : State) (c : Nat) (x : CanCh) :
    (s.setCh c x).phase = s.phase ∧ (s.setCh c x).tick = s.tick ∧ (s.setCh c x).cycle = s.cycle ∧
    (s.setCh c x).free = s.free ∧ (s.setCh c x).readData = s.readData ∧ (s.setCh c x).regs = s.regs ∧
    (s.setCh c x).shadow = s.shadow ∧ (s.setCh c x).coll = s.coll ∧ (s.setCh c x).sealing = s.sealing ∧
    (s.setCh c x).wrote = s.wrote ∧ (s.setCh c x).hw = s.hw ∧ (s.setCh c x).mem = s.mem ∧
    (s.setCh c x).cores = s.cores ∧ (s.setCh c x).evIn = s.evIn ∧ (s.setCh c x).evAt = s.evAt ∧
    (s.setCh c x).began = s.began ∧ (s.setCh c x).tier = s.tier ∧ (s.setCh c x).cmns = s.cmns ∧
    (s.setCh c x).recd = s.recd ∧ (s.setCh c x).moniBins = s.moniBins ∧ (s.setCh c x).bnch = s.bnch ∧
    (s.setCh c x).ptpt = s.ptpt ∧ (s.setCh c x).rtcb = s.rtcb ∧ (s.setCh c x).safe = s.safe ∧
    (s.setCh c x).qm = s.qm ∧ (s.setCh c x).fusa = s.fusa ∧ (s.setCh c x).solv = s.solv ∧
    (s.setCh c x).diop = s.diop ∧ (s.setCh c x).feed = s.feed ∧ (s.setCh c x).loops = s.loops ∧
    (s.setCh c x).axes = s.axes ∧ (s.setCh c x).rst = s.rst ∧ (s.setCh c x).metr = s.metr ∧
    (s.setCh c x).adcs = s.adcs ∧ (s.setCh c x).trst = s.trst ∧ (s.setCh c x).sent = s.sent ∧
    (s.setCh c x).eth = s.eth ∧ (s.setCh c x).outs = s.outs ∧ (s.setCh c x).pair = s.pair ∧
    (s.setCh c x).pending = s.pending :=
  ⟨rfl, rfl, rfl, rfl, rfl, rfl, rfl, rfl, rfl, rfl, rfl, rfl, rfl, rfl, rfl, rfl, rfl, rfl, rfl, rfl,
    rfl, rfl, rfl, rfl, rfl, rfl, rfl, rfl, rfl, rfl, rfl, rfl, rfl, rfl, rfl, rfl, rfl, rfl, rfl, rfl⟩

@[simp] theorem State.setObj_frame (s : State) (j : Nat) (o : ObjS) :
    (s.setObj j o).phase = s.phase ∧ (s.setObj j o).tick = s.tick ∧ (s.setObj j o).cycle = s.cycle ∧
    (s.setObj j o).free = s.free ∧ (s.setObj j o).readData = s.readData ∧ (s.setObj j o).regs = s.regs ∧
    (s.setObj j o).shadow = s.shadow ∧ (s.setObj j o).coll = s.coll ∧ (s.setObj j o).sealing = s.sealing ∧
    (s.setObj j o).wrote = s.wrote ∧ (s.setObj j o).hw = s.hw ∧ (s.setObj j o).mem = s.mem ∧
    (s.setObj j o).cores = s.cores ∧ (s.setObj j o).evIn = s.evIn ∧ (s.setObj j o).evAt = s.evAt ∧
    (s.setObj j o).began = s.began ∧ (s.setObj j o).tier = s.tier ∧ (s.setObj j o).cmns = s.cmns ∧
    (s.setObj j o).recd = s.recd ∧ (s.setObj j o).moniBins = s.moniBins ∧ (s.setObj j o).bnch = s.bnch ∧
    (s.setObj j o).ptpt = s.ptpt ∧ (s.setObj j o).rtcb = s.rtcb ∧ (s.setObj j o).safe = s.safe ∧
    (s.setObj j o).qm = s.qm ∧ (s.setObj j o).fusa = s.fusa ∧ (s.setObj j o).solv = s.solv ∧
    (s.setObj j o).diop = s.diop ∧ (s.setObj j o).feed = s.feed ∧ (s.setObj j o).loops = s.loops ∧
    (s.setObj j o).axes = s.axes ∧ (s.setObj j o).rst = s.rst ∧ (s.setObj j o).metr = s.metr ∧
    (s.setObj j o).adcs = s.adcs ∧ (s.setObj j o).trst = s.trst ∧ (s.setObj j o).sent = s.sent ∧
    (s.setObj j o).eth = s.eth ∧ (s.setObj j o).outs = s.outs ∧ (s.setObj j o).pair = s.pair ∧
    (s.setObj j o).pending = s.pending :=
  ⟨rfl, rfl, rfl, rfl, rfl, rfl, rfl, rfl, rfl, rfl, rfl, rfl, rfl, rfl, rfl, rfl, rfl, rfl, rfl, rfl,
    rfl, rfl, rfl, rfl, rfl, rfl, rfl, rfl, rfl, rfl, rfl, rfl, rfl, rfl, rfl, rfl, rfl, rfl, rfl, rfl⟩

@[simp] theorem State.setMetr_frame (s : State) (m : MetrS) :
    (s.setMetr m).phase = s.phase ∧ (s.setMetr m).tick = s.tick ∧ (s.setMetr m).cycle = s.cycle ∧
    (s.setMetr m).free = s.free ∧ (s.setMetr m).readData = s.readData ∧ (s.setMetr m).regs = s.regs ∧
    (s.setMetr m).shadow = s.shadow ∧ (s.setMetr m).coll = s.coll ∧ (s.setMetr m).sealing = s.sealing ∧
    (s.setMetr m).wrote = s.wrote ∧ (s.setMetr m).hw = s.hw ∧ (s.setMetr m).mem = s.mem ∧
    (s.setMetr m).cores = s.cores ∧ (s.setMetr m).evIn = s.evIn ∧ (s.setMetr m).evAt = s.evAt ∧
    (s.setMetr m).began = s.began ∧ (s.setMetr m).tier = s.tier ∧ (s.setMetr m).cmns = s.cmns ∧
    (s.setMetr m).recd = s.recd ∧ (s.setMetr m).moniBins = s.moniBins ∧ (s.setMetr m).bnch = s.bnch ∧
    (s.setMetr m).ptpt = s.ptpt ∧ (s.setMetr m).rtcb = s.rtcb ∧ (s.setMetr m).safe = s.safe ∧
    (s.setMetr m).qm = s.qm ∧ (s.setMetr m).fusa = s.fusa ∧ (s.setMetr m).solv = s.solv ∧
    (s.setMetr m).diop = s.diop ∧ (s.setMetr m).feed = s.feed ∧ (s.setMetr m).loops = s.loops ∧
    (s.setMetr m).axes = s.axes ∧ (s.setMetr m).rst = s.rst ∧ (s.setMetr m).can = s.can ∧
    (s.setMetr m).adcs = s.adcs ∧ (s.setMetr m).trst = s.trst ∧ (s.setMetr m).sent = s.sent ∧
    (s.setMetr m).eth = s.eth ∧ (s.setMetr m).outs = s.outs ∧ (s.setMetr m).pair = s.pair ∧
    (s.setMetr m).pending = s.pending :=
  ⟨rfl, rfl, rfl, rfl, rfl, rfl, rfl, rfl, rfl, rfl, rfl, rfl, rfl, rfl, rfl, rfl, rfl, rfl, rfl, rfl,
    rfl, rfl, rfl, rfl, rfl, rfl, rfl, rfl, rfl, rfl, rfl, rfl, rfl, rfl, rfl, rfl, rfl, rfl, rfl, rfl⟩

@[simp] theorem State.setMetr_metr (s : State) (m : MetrS) : (s.setMetr m).metr = m := rfl

@[simp] theorem State.setGrp_frame (s : State) (g : Nat) (x : GrpS) :
    (s.setGrp g x).phase = s.phase ∧ (s.setGrp g x).tick = s.tick ∧ (s.setGrp g x).cycle = s.cycle ∧
    (s.setGrp g x).free = s.free ∧ (s.setGrp g x).readData = s.readData ∧ (s.setGrp g x).regs = s.regs ∧
    (s.setGrp g x).shadow = s.shadow ∧ (s.setGrp g x).coll = s.coll ∧ (s.setGrp g x).sealing = s.sealing ∧
    (s.setGrp g x).wrote = s.wrote ∧ (s.setGrp g x).hw = s.hw ∧ (s.setGrp g x).mem = s.mem ∧
    (s.setGrp g x).cores = s.cores ∧ (s.setGrp g x).evIn = s.evIn ∧ (s.setGrp g x).evAt = s.evAt ∧
    (s.setGrp g x).began = s.began ∧ (s.setGrp g x).tier = s.tier ∧ (s.setGrp g x).cmns = s.cmns ∧
    (s.setGrp g x).recd = s.recd ∧ (s.setGrp g x).moniBins = s.moniBins ∧ (s.setGrp g x).bnch = s.bnch ∧
    (s.setGrp g x).ptpt = s.ptpt ∧ (s.setGrp g x).rtcb = s.rtcb ∧ (s.setGrp g x).safe = s.safe ∧
    (s.setGrp g x).qm = s.qm ∧ (s.setGrp g x).fusa = s.fusa ∧ (s.setGrp g x).solv = s.solv ∧
    (s.setGrp g x).diop = s.diop ∧ (s.setGrp g x).feed = s.feed ∧ (s.setGrp g x).loops = s.loops ∧
    (s.setGrp g x).axes = s.axes ∧ (s.setGrp g x).rst = s.rst ∧ (s.setGrp g x).can = s.can ∧
    (s.setGrp g x).adcs = s.adcs ∧ (s.setGrp g x).trst = s.trst ∧ (s.setGrp g x).sent = s.sent ∧
    (s.setGrp g x).eth = s.eth ∧ (s.setGrp g x).outs = s.outs ∧ (s.setGrp g x).pair = s.pair ∧
    (s.setGrp g x).pending = s.pending :=
  ⟨rfl, rfl, rfl, rfl, rfl, rfl, rfl, rfl, rfl, rfl, rfl, rfl, rfl, rfl, rfl, rfl, rfl, rfl, rfl, rfl,
    rfl, rfl, rfl, rfl, rfl, rfl, rfl, rfl, rfl, rfl, rfl, rfl, rfl, rfl, rfl, rfl, rfl, rfl, rfl, rfl⟩

@[simp] theorem State.setTc_frame (s : State) (c : Nat) (x : TcS) :
    (s.setTc c x).phase = s.phase ∧ (s.setTc c x).tick = s.tick ∧ (s.setTc c x).cycle = s.cycle ∧
    (s.setTc c x).free = s.free ∧ (s.setTc c x).readData = s.readData ∧ (s.setTc c x).regs = s.regs ∧
    (s.setTc c x).shadow = s.shadow ∧ (s.setTc c x).coll = s.coll ∧ (s.setTc c x).sealing = s.sealing ∧
    (s.setTc c x).wrote = s.wrote ∧ (s.setTc c x).hw = s.hw ∧ (s.setTc c x).mem = s.mem ∧
    (s.setTc c x).cores = s.cores ∧ (s.setTc c x).evIn = s.evIn ∧ (s.setTc c x).evAt = s.evAt ∧
    (s.setTc c x).began = s.began ∧ (s.setTc c x).tier = s.tier ∧ (s.setTc c x).cmns = s.cmns ∧
    (s.setTc c x).recd = s.recd ∧ (s.setTc c x).moniBins = s.moniBins ∧ (s.setTc c x).bnch = s.bnch ∧
    (s.setTc c x).ptpt = s.ptpt ∧ (s.setTc c x).rtcb = s.rtcb ∧ (s.setTc c x).safe = s.safe ∧
    (s.setTc c x).qm = s.qm ∧ (s.setTc c x).fusa = s.fusa ∧ (s.setTc c x).solv = s.solv ∧
    (s.setTc c x).diop = s.diop ∧ (s.setTc c x).feed = s.feed ∧ (s.setTc c x).loops = s.loops ∧
    (s.setTc c x).axes = s.axes ∧ (s.setTc c x).rst = s.rst ∧ (s.setTc c x).can = s.can ∧
    (s.setTc c x).adcs = s.adcs ∧ (s.setTc c x).trst = s.trst ∧ (s.setTc c x).sent = s.sent ∧
    (s.setTc c x).eth = s.eth ∧ (s.setTc c x).outs = s.outs ∧ (s.setTc c x).pair = s.pair ∧
    (s.setTc c x).pending = s.pending :=
  ⟨rfl, rfl, rfl, rfl, rfl, rfl, rfl, rfl, rfl, rfl, rfl, rfl, rfl, rfl, rfl, rfl, rfl, rfl, rfl, rfl,
    rfl, rfl, rfl, rfl, rfl, rfl, rfl, rfl, rfl, rfl, rfl, rfl, rfl, rfl, rfl, rfl, rfl, rfl, rfl, rfl⟩

@[simp] theorem State.setPo_frame (s : State) (o : Nat) (x : PoS) :
    (s.setPo o x).phase = s.phase ∧ (s.setPo o x).tick = s.tick ∧ (s.setPo o x).cycle = s.cycle ∧
    (s.setPo o x).free = s.free ∧ (s.setPo o x).readData = s.readData ∧ (s.setPo o x).regs = s.regs ∧
    (s.setPo o x).shadow = s.shadow ∧ (s.setPo o x).coll = s.coll ∧ (s.setPo o x).sealing = s.sealing ∧
    (s.setPo o x).wrote = s.wrote ∧ (s.setPo o x).hw = s.hw ∧ (s.setPo o x).mem = s.mem ∧
    (s.setPo o x).cores = s.cores ∧ (s.setPo o x).evIn = s.evIn ∧ (s.setPo o x).evAt = s.evAt ∧
    (s.setPo o x).began = s.began ∧ (s.setPo o x).tier = s.tier ∧ (s.setPo o x).cmns = s.cmns ∧
    (s.setPo o x).recd = s.recd ∧ (s.setPo o x).moniBins = s.moniBins ∧ (s.setPo o x).bnch = s.bnch ∧
    (s.setPo o x).ptpt = s.ptpt ∧ (s.setPo o x).rtcb = s.rtcb ∧ (s.setPo o x).safe = s.safe ∧
    (s.setPo o x).qm = s.qm ∧ (s.setPo o x).fusa = s.fusa ∧ (s.setPo o x).solv = s.solv ∧
    (s.setPo o x).diop = s.diop ∧ (s.setPo o x).feed = s.feed ∧ (s.setPo o x).loops = s.loops ∧
    (s.setPo o x).axes = s.axes ∧ (s.setPo o x).rst = s.rst ∧ (s.setPo o x).can = s.can ∧
    (s.setPo o x).adcs = s.adcs ∧ (s.setPo o x).trst = s.trst ∧ (s.setPo o x).sent = s.sent ∧
    (s.setPo o x).eth = s.eth ∧ (s.setPo o x).outs = s.outs ∧ (s.setPo o x).pair = s.pair ∧
    (s.setPo o x).pending = s.pending :=
  ⟨rfl, rfl, rfl, rfl, rfl, rfl, rfl, rfl, rfl, rfl, rfl, rfl, rfl, rfl, rfl, rfl, rfl, rfl, rfl, rfl,
    rfl, rfl, rfl, rfl, rfl, rfl, rfl, rfl, rfl, rfl, rfl, rfl, rfl, rfl, rfl, rfl, rfl, rfl, rfl, rfl⟩

@[simp] theorem State.setAdcs_frame (s : State) (a : AdcsS) :
    (s.setAdcs a).phase = s.phase ∧ (s.setAdcs a).tick = s.tick ∧ (s.setAdcs a).cycle = s.cycle ∧
    (s.setAdcs a).free = s.free ∧ (s.setAdcs a).readData = s.readData ∧ (s.setAdcs a).regs = s.regs ∧
    (s.setAdcs a).shadow = s.shadow ∧ (s.setAdcs a).coll = s.coll ∧ (s.setAdcs a).sealing = s.sealing ∧
    (s.setAdcs a).wrote = s.wrote ∧ (s.setAdcs a).hw = s.hw ∧ (s.setAdcs a).mem = s.mem ∧
    (s.setAdcs a).cores = s.cores ∧ (s.setAdcs a).evIn = s.evIn ∧ (s.setAdcs a).evAt = s.evAt ∧
    (s.setAdcs a).began = s.began ∧ (s.setAdcs a).tier = s.tier ∧ (s.setAdcs a).cmns = s.cmns ∧
    (s.setAdcs a).recd = s.recd ∧ (s.setAdcs a).moniBins = s.moniBins ∧ (s.setAdcs a).bnch = s.bnch ∧
    (s.setAdcs a).ptpt = s.ptpt ∧ (s.setAdcs a).rtcb = s.rtcb ∧ (s.setAdcs a).safe = s.safe ∧
    (s.setAdcs a).qm = s.qm ∧ (s.setAdcs a).fusa = s.fusa ∧ (s.setAdcs a).solv = s.solv ∧
    (s.setAdcs a).diop = s.diop ∧ (s.setAdcs a).feed = s.feed ∧ (s.setAdcs a).loops = s.loops ∧
    (s.setAdcs a).axes = s.axes ∧ (s.setAdcs a).rst = s.rst ∧ (s.setAdcs a).can = s.can ∧
    (s.setAdcs a).metr = s.metr ∧ (s.setAdcs a).trst = s.trst ∧ (s.setAdcs a).sent = s.sent ∧
    (s.setAdcs a).eth = s.eth ∧ (s.setAdcs a).outs = s.outs ∧ (s.setAdcs a).pair = s.pair ∧
    (s.setAdcs a).pending = s.pending :=
  ⟨rfl, rfl, rfl, rfl, rfl, rfl, rfl, rfl, rfl, rfl, rfl, rfl, rfl, rfl, rfl, rfl, rfl, rfl, rfl, rfl,
    rfl, rfl, rfl, rfl, rfl, rfl, rfl, rfl, rfl, rfl, rfl, rfl, rfl, rfl, rfl, rfl, rfl, rfl, rfl, rfl⟩

@[simp] theorem State.setAdcs_adcs (s : State) (a : AdcsS) : (s.setAdcs a).adcs = a := rfl

@[simp] theorem State.setSafe_frame (s : State) (x : SafeS) :
    (s.setSafe x).phase = s.phase ∧ (s.setSafe x).tick = s.tick ∧ (s.setSafe x).cycle = s.cycle ∧
    (s.setSafe x).free = s.free ∧ (s.setSafe x).readData = s.readData ∧ (s.setSafe x).regs = s.regs ∧
    (s.setSafe x).shadow = s.shadow ∧ (s.setSafe x).coll = s.coll ∧ (s.setSafe x).sealing = s.sealing ∧
    (s.setSafe x).wrote = s.wrote ∧ (s.setSafe x).hw = s.hw ∧ (s.setSafe x).mem = s.mem ∧
    (s.setSafe x).cores = s.cores ∧ (s.setSafe x).evIn = s.evIn ∧ (s.setSafe x).evAt = s.evAt ∧
    (s.setSafe x).began = s.began ∧ (s.setSafe x).tier = s.tier ∧ (s.setSafe x).cmns = s.cmns ∧
    (s.setSafe x).recd = s.recd ∧ (s.setSafe x).moniBins = s.moniBins ∧ (s.setSafe x).bnch = s.bnch ∧
    (s.setSafe x).ptpt = s.ptpt ∧ (s.setSafe x).rtcb = s.rtcb ∧ (s.setSafe x).qm = s.qm ∧
    (s.setSafe x).fusa = s.fusa ∧ (s.setSafe x).solv = s.solv ∧ (s.setSafe x).diop = s.diop ∧
    (s.setSafe x).feed = s.feed ∧ (s.setSafe x).loops = s.loops ∧ (s.setSafe x).axes = s.axes ∧
    (s.setSafe x).rst = s.rst ∧ (s.setSafe x).can = s.can ∧ (s.setSafe x).metr = s.metr ∧
    (s.setSafe x).adcs = s.adcs ∧ (s.setSafe x).trst = s.trst ∧ (s.setSafe x).sent = s.sent ∧
    (s.setSafe x).eth = s.eth ∧ (s.setSafe x).outs = s.outs ∧ (s.setSafe x).pair = s.pair ∧
    (s.setSafe x).pending = s.pending :=
  ⟨rfl, rfl, rfl, rfl, rfl, rfl, rfl, rfl, rfl, rfl, rfl, rfl, rfl, rfl, rfl, rfl, rfl, rfl, rfl, rfl,
    rfl, rfl, rfl, rfl, rfl, rfl, rfl, rfl, rfl, rfl, rfl, rfl, rfl, rfl, rfl, rfl, rfl, rfl, rfl, rfl⟩

@[simp] theorem State.setSafe_safe (s : State) (x : SafeS) : (s.setSafe x).safe = x := rfl

@[simp] theorem State.setCon_frame (s : State) (c : Nat) (x : ConS) :
    (s.setCon c x).phase = s.phase ∧ (s.setCon c x).tick = s.tick ∧ (s.setCon c x).cycle = s.cycle ∧
    (s.setCon c x).free = s.free ∧ (s.setCon c x).readData = s.readData ∧ (s.setCon c x).regs = s.regs ∧
    (s.setCon c x).shadow = s.shadow ∧ (s.setCon c x).coll = s.coll ∧ (s.setCon c x).sealing = s.sealing ∧
    (s.setCon c x).wrote = s.wrote ∧ (s.setCon c x).hw = s.hw ∧ (s.setCon c x).mem = s.mem ∧
    (s.setCon c x).cores = s.cores ∧ (s.setCon c x).evIn = s.evIn ∧ (s.setCon c x).evAt = s.evAt ∧
    (s.setCon c x).began = s.began ∧ (s.setCon c x).tier = s.tier ∧ (s.setCon c x).cmns = s.cmns ∧
    (s.setCon c x).recd = s.recd ∧ (s.setCon c x).moniBins = s.moniBins ∧ (s.setCon c x).bnch = s.bnch ∧
    (s.setCon c x).ptpt = s.ptpt ∧ (s.setCon c x).rtcb = s.rtcb ∧ (s.setCon c x).qm = s.qm ∧
    (s.setCon c x).fusa = s.fusa ∧ (s.setCon c x).solv = s.solv ∧ (s.setCon c x).diop = s.diop ∧
    (s.setCon c x).feed = s.feed ∧ (s.setCon c x).loops = s.loops ∧ (s.setCon c x).axes = s.axes ∧
    (s.setCon c x).rst = s.rst ∧ (s.setCon c x).can = s.can ∧ (s.setCon c x).metr = s.metr ∧
    (s.setCon c x).adcs = s.adcs ∧ (s.setCon c x).trst = s.trst ∧ (s.setCon c x).sent = s.sent ∧
    (s.setCon c x).eth = s.eth ∧ (s.setCon c x).outs = s.outs ∧ (s.setCon c x).pair = s.pair ∧
    (s.setCon c x).pending = s.pending :=
  ⟨rfl, rfl, rfl, rfl, rfl, rfl, rfl, rfl, rfl, rfl, rfl, rfl, rfl, rfl, rfl, rfl, rfl, rfl, rfl, rfl,
    rfl, rfl, rfl, rfl, rfl, rfl, rfl, rfl, rfl, rfl, rfl, rfl, rfl, rfl, rfl, rfl, rfl, rfl, rfl, rfl⟩

@[simp] theorem State.setEth_frame (s : State) (i : Nat) (e : EthS) :
    (s.setEth i e).phase = s.phase ∧ (s.setEth i e).tick = s.tick ∧ (s.setEth i e).cycle = s.cycle ∧
    (s.setEth i e).free = s.free ∧ (s.setEth i e).readData = s.readData ∧ (s.setEth i e).regs = s.regs ∧
    (s.setEth i e).shadow = s.shadow ∧ (s.setEth i e).coll = s.coll ∧ (s.setEth i e).sealing = s.sealing ∧
    (s.setEth i e).wrote = s.wrote ∧ (s.setEth i e).hw = s.hw ∧ (s.setEth i e).mem = s.mem ∧
    (s.setEth i e).cores = s.cores ∧ (s.setEth i e).evIn = s.evIn ∧ (s.setEth i e).evAt = s.evAt ∧
    (s.setEth i e).began = s.began ∧ (s.setEth i e).tier = s.tier ∧ (s.setEth i e).cmns = s.cmns ∧
    (s.setEth i e).recd = s.recd ∧ (s.setEth i e).moniBins = s.moniBins ∧ (s.setEth i e).bnch = s.bnch ∧
    (s.setEth i e).ptpt = s.ptpt ∧ (s.setEth i e).rtcb = s.rtcb ∧ (s.setEth i e).safe = s.safe ∧
    (s.setEth i e).qm = s.qm ∧ (s.setEth i e).fusa = s.fusa ∧ (s.setEth i e).solv = s.solv ∧
    (s.setEth i e).diop = s.diop ∧ (s.setEth i e).feed = s.feed ∧ (s.setEth i e).loops = s.loops ∧
    (s.setEth i e).axes = s.axes ∧ (s.setEth i e).rst = s.rst ∧ (s.setEth i e).can = s.can ∧
    (s.setEth i e).metr = s.metr ∧ (s.setEth i e).adcs = s.adcs ∧ (s.setEth i e).trst = s.trst ∧
    (s.setEth i e).sent = s.sent ∧ (s.setEth i e).outs = s.outs ∧ (s.setEth i e).pair = s.pair ∧
    (s.setEth i e).pending = s.pending :=
  ⟨rfl, rfl, rfl, rfl, rfl, rfl, rfl, rfl, rfl, rfl, rfl, rfl, rfl, rfl, rfl, rfl, rfl, rfl, rfl, rfl,
    rfl, rfl, rfl, rfl, rfl, rfl, rfl, rfl, rfl, rfl, rfl, rfl, rfl, rfl, rfl, rfl, rfl, rfl, rfl, rfl⟩

@[simp] theorem State.setPtpt_frame (s : State) (x : PtptS) :
    (s.setPtpt x).phase = s.phase ∧ (s.setPtpt x).tick = s.tick ∧ (s.setPtpt x).cycle = s.cycle ∧
    (s.setPtpt x).free = s.free ∧ (s.setPtpt x).readData = s.readData ∧ (s.setPtpt x).regs = s.regs ∧
    (s.setPtpt x).shadow = s.shadow ∧ (s.setPtpt x).coll = s.coll ∧ (s.setPtpt x).sealing = s.sealing ∧
    (s.setPtpt x).wrote = s.wrote ∧ (s.setPtpt x).hw = s.hw ∧ (s.setPtpt x).mem = s.mem ∧
    (s.setPtpt x).cores = s.cores ∧ (s.setPtpt x).evIn = s.evIn ∧ (s.setPtpt x).evAt = s.evAt ∧
    (s.setPtpt x).began = s.began ∧ (s.setPtpt x).tier = s.tier ∧ (s.setPtpt x).cmns = s.cmns ∧
    (s.setPtpt x).recd = s.recd ∧ (s.setPtpt x).moniBins = s.moniBins ∧ (s.setPtpt x).bnch = s.bnch ∧
    (s.setPtpt x).rtcb = s.rtcb ∧ (s.setPtpt x).safe = s.safe ∧ (s.setPtpt x).qm = s.qm ∧
    (s.setPtpt x).fusa = s.fusa ∧ (s.setPtpt x).solv = s.solv ∧ (s.setPtpt x).diop = s.diop ∧
    (s.setPtpt x).feed = s.feed ∧ (s.setPtpt x).loops = s.loops ∧ (s.setPtpt x).axes = s.axes ∧
    (s.setPtpt x).rst = s.rst ∧ (s.setPtpt x).can = s.can ∧ (s.setPtpt x).metr = s.metr ∧
    (s.setPtpt x).adcs = s.adcs ∧ (s.setPtpt x).trst = s.trst ∧ (s.setPtpt x).sent = s.sent ∧
    (s.setPtpt x).eth = s.eth ∧ (s.setPtpt x).outs = s.outs ∧ (s.setPtpt x).pair = s.pair ∧
    (s.setPtpt x).pending = s.pending :=
  ⟨rfl, rfl, rfl, rfl, rfl, rfl, rfl, rfl, rfl, rfl, rfl, rfl, rfl, rfl, rfl, rfl, rfl, rfl, rfl, rfl,
    rfl, rfl, rfl, rfl, rfl, rfl, rfl, rfl, rfl, rfl, rfl, rfl, rfl, rfl, rfl, rfl, rfl, rfl, rfl, rfl⟩

@[simp] theorem State.setPtpt_ptpt (s : State) (x : PtptS) : (s.setPtpt x).ptpt = x := rfl

@[simp] theorem State.setRtcb_frame (s : State) (x : RtcbS) :
    (s.setRtcb x).phase = s.phase ∧ (s.setRtcb x).tick = s.tick ∧ (s.setRtcb x).cycle = s.cycle ∧
    (s.setRtcb x).free = s.free ∧ (s.setRtcb x).readData = s.readData ∧ (s.setRtcb x).regs = s.regs ∧
    (s.setRtcb x).shadow = s.shadow ∧ (s.setRtcb x).coll = s.coll ∧ (s.setRtcb x).sealing = s.sealing ∧
    (s.setRtcb x).wrote = s.wrote ∧ (s.setRtcb x).hw = s.hw ∧ (s.setRtcb x).mem = s.mem ∧
    (s.setRtcb x).cores = s.cores ∧ (s.setRtcb x).evIn = s.evIn ∧ (s.setRtcb x).evAt = s.evAt ∧
    (s.setRtcb x).began = s.began ∧ (s.setRtcb x).tier = s.tier ∧ (s.setRtcb x).cmns = s.cmns ∧
    (s.setRtcb x).recd = s.recd ∧ (s.setRtcb x).moniBins = s.moniBins ∧ (s.setRtcb x).bnch = s.bnch ∧
    (s.setRtcb x).ptpt = s.ptpt ∧ (s.setRtcb x).safe = s.safe ∧ (s.setRtcb x).qm = s.qm ∧
    (s.setRtcb x).fusa = s.fusa ∧ (s.setRtcb x).solv = s.solv ∧ (s.setRtcb x).diop = s.diop ∧
    (s.setRtcb x).feed = s.feed ∧ (s.setRtcb x).loops = s.loops ∧ (s.setRtcb x).axes = s.axes ∧
    (s.setRtcb x).rst = s.rst ∧ (s.setRtcb x).can = s.can ∧ (s.setRtcb x).metr = s.metr ∧
    (s.setRtcb x).adcs = s.adcs ∧ (s.setRtcb x).trst = s.trst ∧ (s.setRtcb x).sent = s.sent ∧
    (s.setRtcb x).eth = s.eth ∧ (s.setRtcb x).outs = s.outs ∧ (s.setRtcb x).pair = s.pair ∧
    (s.setRtcb x).pending = s.pending :=
  ⟨rfl, rfl, rfl, rfl, rfl, rfl, rfl, rfl, rfl, rfl, rfl, rfl, rfl, rfl, rfl, rfl, rfl, rfl, rfl, rfl,
    rfl, rfl, rfl, rfl, rfl, rfl, rfl, rfl, rfl, rfl, rfl, rfl, rfl, rfl, rfl, rfl, rfl, rfl, rfl, rfl⟩

@[simp] theorem State.setRtcb_rtcb (s : State) (x : RtcbS) : (s.setRtcb x).rtcb = x := rfl

@[simp] theorem State.setPair_frame (s : State) (x : PairS) :
    (s.setPair x).phase = s.phase ∧ (s.setPair x).tick = s.tick ∧ (s.setPair x).cycle = s.cycle ∧
    (s.setPair x).free = s.free ∧ (s.setPair x).readData = s.readData ∧ (s.setPair x).regs = s.regs ∧
    (s.setPair x).shadow = s.shadow ∧ (s.setPair x).coll = s.coll ∧ (s.setPair x).sealing = s.sealing ∧
    (s.setPair x).wrote = s.wrote ∧ (s.setPair x).hw = s.hw ∧ (s.setPair x).mem = s.mem ∧
    (s.setPair x).cores = s.cores ∧ (s.setPair x).evIn = s.evIn ∧ (s.setPair x).evAt = s.evAt ∧
    (s.setPair x).began = s.began ∧ (s.setPair x).tier = s.tier ∧ (s.setPair x).cmns = s.cmns ∧
    (s.setPair x).recd = s.recd ∧ (s.setPair x).moniBins = s.moniBins ∧ (s.setPair x).bnch = s.bnch ∧
    (s.setPair x).ptpt = s.ptpt ∧ (s.setPair x).rtcb = s.rtcb ∧ (s.setPair x).safe = s.safe ∧
    (s.setPair x).qm = s.qm ∧ (s.setPair x).fusa = s.fusa ∧ (s.setPair x).solv = s.solv ∧
    (s.setPair x).diop = s.diop ∧ (s.setPair x).feed = s.feed ∧ (s.setPair x).loops = s.loops ∧
    (s.setPair x).axes = s.axes ∧ (s.setPair x).rst = s.rst ∧ (s.setPair x).can = s.can ∧
    (s.setPair x).metr = s.metr ∧ (s.setPair x).adcs = s.adcs ∧ (s.setPair x).trst = s.trst ∧
    (s.setPair x).sent = s.sent ∧ (s.setPair x).eth = s.eth ∧ (s.setPair x).outs = s.outs ∧
    (s.setPair x).pending = s.pending :=
  ⟨rfl, rfl, rfl, rfl, rfl, rfl, rfl, rfl, rfl, rfl, rfl, rfl, rfl, rfl, rfl, rfl, rfl, rfl, rfl, rfl,
    rfl, rfl, rfl, rfl, rfl, rfl, rfl, rfl, rfl, rfl, rfl, rfl, rfl, rfl, rfl, rfl, rfl, rfl, rfl, rfl⟩

@[simp] theorem State.setPair_pair (s : State) (x : PairS) : (s.setPair x).pair = x := rfl

@[simp] theorem State.setTrst_frame (s : State) (t : TrstS) :
    (s.setTrst t).phase = s.phase ∧ (s.setTrst t).tick = s.tick ∧ (s.setTrst t).cycle = s.cycle ∧
    (s.setTrst t).free = s.free ∧ (s.setTrst t).readData = s.readData ∧ (s.setTrst t).regs = s.regs ∧
    (s.setTrst t).shadow = s.shadow ∧ (s.setTrst t).coll = s.coll ∧ (s.setTrst t).sealing = s.sealing ∧
    (s.setTrst t).wrote = s.wrote ∧ (s.setTrst t).hw = s.hw ∧ (s.setTrst t).mem = s.mem ∧
    (s.setTrst t).cores = s.cores ∧ (s.setTrst t).evIn = s.evIn ∧ (s.setTrst t).evAt = s.evAt ∧
    (s.setTrst t).began = s.began ∧ (s.setTrst t).tier = s.tier ∧ (s.setTrst t).cmns = s.cmns ∧
    (s.setTrst t).recd = s.recd ∧ (s.setTrst t).moniBins = s.moniBins ∧ (s.setTrst t).bnch = s.bnch ∧
    (s.setTrst t).ptpt = s.ptpt ∧ (s.setTrst t).rtcb = s.rtcb ∧ (s.setTrst t).safe = s.safe ∧
    (s.setTrst t).qm = s.qm ∧ (s.setTrst t).fusa = s.fusa ∧ (s.setTrst t).solv = s.solv ∧
    (s.setTrst t).diop = s.diop ∧ (s.setTrst t).feed = s.feed ∧ (s.setTrst t).loops = s.loops ∧
    (s.setTrst t).axes = s.axes ∧ (s.setTrst t).rst = s.rst ∧ (s.setTrst t).can = s.can ∧
    (s.setTrst t).metr = s.metr ∧ (s.setTrst t).adcs = s.adcs ∧ (s.setTrst t).sent = s.sent ∧
    (s.setTrst t).eth = s.eth ∧ (s.setTrst t).outs = s.outs ∧ (s.setTrst t).pair = s.pair ∧
    (s.setTrst t).pending = s.pending :=
  ⟨rfl, rfl, rfl, rfl, rfl, rfl, rfl, rfl, rfl, rfl, rfl, rfl, rfl, rfl, rfl, rfl, rfl, rfl, rfl, rfl,
    rfl, rfl, rfl, rfl, rfl, rfl, rfl, rfl, rfl, rfl, rfl, rfl, rfl, rfl, rfl, rfl, rfl, rfl, rfl, rfl⟩

@[simp] theorem State.setTrst_trst (s : State) (t : TrstS) : (s.setTrst t).trst = t := rfl

@[simp] theorem State.setBnch_frame (s : State) (b : BnchS) :
    (s.setBnch b).phase = s.phase ∧ (s.setBnch b).tick = s.tick ∧ (s.setBnch b).cycle = s.cycle ∧
    (s.setBnch b).free = s.free ∧ (s.setBnch b).readData = s.readData ∧ (s.setBnch b).regs = s.regs ∧
    (s.setBnch b).shadow = s.shadow ∧ (s.setBnch b).coll = s.coll ∧ (s.setBnch b).sealing = s.sealing ∧
    (s.setBnch b).wrote = s.wrote ∧ (s.setBnch b).hw = s.hw ∧ (s.setBnch b).mem = s.mem ∧
    (s.setBnch b).cores = s.cores ∧ (s.setBnch b).evIn = s.evIn ∧ (s.setBnch b).evAt = s.evAt ∧
    (s.setBnch b).began = s.began ∧ (s.setBnch b).tier = s.tier ∧ (s.setBnch b).cmns = s.cmns ∧
    (s.setBnch b).recd = s.recd ∧ (s.setBnch b).moniBins = s.moniBins ∧ (s.setBnch b).ptpt = s.ptpt ∧
    (s.setBnch b).rtcb = s.rtcb ∧ (s.setBnch b).safe = s.safe ∧ (s.setBnch b).qm = s.qm ∧
    (s.setBnch b).fusa = s.fusa ∧ (s.setBnch b).solv = s.solv ∧ (s.setBnch b).diop = s.diop ∧
    (s.setBnch b).feed = s.feed ∧ (s.setBnch b).loops = s.loops ∧ (s.setBnch b).axes = s.axes ∧
    (s.setBnch b).rst = s.rst ∧ (s.setBnch b).can = s.can ∧ (s.setBnch b).metr = s.metr ∧
    (s.setBnch b).adcs = s.adcs ∧ (s.setBnch b).trst = s.trst ∧ (s.setBnch b).sent = s.sent ∧
    (s.setBnch b).eth = s.eth ∧ (s.setBnch b).outs = s.outs ∧ (s.setBnch b).pair = s.pair ∧
    (s.setBnch b).pending = s.pending :=
  ⟨rfl, rfl, rfl, rfl, rfl, rfl, rfl, rfl, rfl, rfl, rfl, rfl, rfl, rfl, rfl, rfl, rfl, rfl, rfl, rfl,
    rfl, rfl, rfl, rfl, rfl, rfl, rfl, rfl, rfl, rfl, rfl, rfl, rfl, rfl, rfl, rfl, rfl, rfl, rfl, rfl⟩

@[simp] theorem State.setBnch_bnch (s : State) (b : BnchS) : (s.setBnch b).bnch = b := rfl

@[simp] theorem State.setAxis_frame (s : State) (a : Nat) (x : AxisS) :
    (s.setAxis a x).phase = s.phase ∧ (s.setAxis a x).tick = s.tick ∧ (s.setAxis a x).cycle = s.cycle ∧
    (s.setAxis a x).free = s.free ∧ (s.setAxis a x).readData = s.readData ∧ (s.setAxis a x).regs = s.regs ∧
    (s.setAxis a x).shadow = s.shadow ∧ (s.setAxis a x).coll = s.coll ∧ (s.setAxis a x).sealing = s.sealing ∧
    (s.setAxis a x).wrote = s.wrote ∧ (s.setAxis a x).hw = s.hw ∧ (s.setAxis a x).mem = s.mem ∧
    (s.setAxis a x).cores = s.cores ∧ (s.setAxis a x).evIn = s.evIn ∧ (s.setAxis a x).evAt = s.evAt ∧
    (s.setAxis a x).began = s.began ∧ (s.setAxis a x).tier = s.tier ∧ (s.setAxis a x).cmns = s.cmns ∧
    (s.setAxis a x).recd = s.recd ∧ (s.setAxis a x).moniBins = s.moniBins ∧ (s.setAxis a x).bnch = s.bnch ∧
    (s.setAxis a x).ptpt = s.ptpt ∧ (s.setAxis a x).rtcb = s.rtcb ∧ (s.setAxis a x).safe = s.safe ∧
    (s.setAxis a x).qm = s.qm ∧ (s.setAxis a x).fusa = s.fusa ∧ (s.setAxis a x).solv = s.solv ∧
    (s.setAxis a x).diop = s.diop ∧ (s.setAxis a x).feed = s.feed ∧ (s.setAxis a x).loops = s.loops ∧
    (s.setAxis a x).rst = s.rst ∧ (s.setAxis a x).can = s.can ∧ (s.setAxis a x).metr = s.metr ∧
    (s.setAxis a x).adcs = s.adcs ∧ (s.setAxis a x).trst = s.trst ∧ (s.setAxis a x).sent = s.sent ∧
    (s.setAxis a x).eth = s.eth ∧ (s.setAxis a x).outs = s.outs ∧ (s.setAxis a x).pair = s.pair ∧
    (s.setAxis a x).pending = s.pending :=
  ⟨rfl, rfl, rfl, rfl, rfl, rfl, rfl, rfl, rfl, rfl, rfl, rfl, rfl, rfl, rfl, rfl, rfl, rfl, rfl, rfl,
    rfl, rfl, rfl, rfl, rfl, rfl, rfl, rfl, rfl, rfl, rfl, rfl, rfl, rfl, rfl, rfl, rfl, rfl, rfl, rfl⟩

/-! ## Reads -/

/-- A word of the block windows depends on the registers in effect alone, a core on the cores alone. -/
theorem State.word_congr {s t : State} (h : s.regs = t.regs) (a : Nat) : s.word a = t.word a := by
  unfold State.word; rw [h]

theorem State.rd_congr {s t : State} (h : s.regs = t.regs) (f : FieldRef) : s.rd f = t.rd f := by
  unfold State.rd; rw [h]

theorem State.core_congr {s t : State} (h : s.cores = t.cores) (p : Nat) : s.core p = t.core p := by
  unfold State.core; rw [h]

@[simp] theorem State.core_setCore_same (s : State) (p : Nat) (c : CoreS) : (s.setCore p c).core p = c :=
  NMap.get_set_same CoreS.off s.cores p c

@[simp] theorem State.core_setCore_other (s : State) {p q : Nat} (c : CoreS) (h : q ≠ p) :
    (s.setCore p c).core q = s.core q :=
  NMap.get_set_other CoreS.off CoreS.off s.cores c h

/-- The one-field updates are writes of their field. -/
theorem State.wrBit_eq (s : State) (f : FieldRef) (b : Bool) : s.wrBit f b = s.wr f (b2n b) := rfl
theorem State.wrI_eq (s : State) (f : FieldRef) (x : Int) : s.wrI f x = s.wr f (patternOf (f.hi + 1 - f.lo) x) := rfl
theorem State.setBit_eq (s : State) (f : FieldRef) : s.setBit f = (s.noteHw s.now f 1 false).wr f 1 := rfl
theorem State.incBy_eq (s : State) (f : FieldRef) (d : Nat) :
    s.incBy f d = (s.noteHw s.now f d false).wr f (satAdd f.top (s.rd f) d) := rfl
theorem State.inc_eq (s : State) (f : FieldRef) : s.inc f = s.incBy f 1 := rfl
theorem State.renew_eq (s : State) (f : FieldRef) (x : Nat) : s.renew f x = (s.noteHw s.now f 0 false).wr f x := rfl
theorem State.incWrap_eq (s : State) (f : FieldRef) : s.incWrap f = s.wr f (s.rd f + 1) := rfl
theorem State.when_eq (s : State) (b : Bool) (f : State → State) : s.when b f = if b then f s else s := rfl

@[simp] theorem State.rd_wrShadow (s : State) (f : FieldRef) (x : Nat) (fr : FieldRef) : (s.wrShadow f x).rd fr = s.rd fr := rfl
@[simp] theorem State.word_wrShadow (s : State) (f : FieldRef) (x : Nat) (k : Nat) : (s.wrShadow f x).word k = s.word k := rfl
@[simp] theorem State.rd_discardColl (s : State) (win : Nat) (g : Grp) (n : Option Nat) (fr : FieldRef) : (s.discardColl win g n).rd fr = s.rd fr := rfl
@[simp] theorem State.word_discardColl (s : State) (win : Nat) (g : Grp) (n : Option Nat) (k : Nat) : (s.discardColl win g n).word k = s.word k := rfl
@[simp] theorem State.rd_noteHw (s : State) (t : Nat) (f : FieldRef) (d : Nat) (peak : Bool) (fr : FieldRef) : (s.noteHw t f d peak).rd fr = s.rd fr := rfl
@[simp] theorem State.word_noteHw (s : State) (t : Nat) (f : FieldRef) (d : Nat) (peak : Bool) (k : Nat) : (s.noteHw t f d peak).word k = s.word k := rfl
@[simp] theorem State.rd_noteWrote (s : State) (a : Nat) (live bank val : Word) (fr : FieldRef) : (s.noteWrote a live bank val).rd fr = s.rd fr := rfl
@[simp] theorem State.word_noteWrote (s : State) (a : Nat) (live bank val : Word) (k : Nat) : (s.noteWrote a live bank val).word k = s.word k := rfl
@[simp] theorem State.rd_setCycle (s : State) (c : Nat) (fr : FieldRef) : (s.setCycle c).rd fr = s.rd fr := rfl
@[simp] theorem State.word_setCycle (s : State) (c : Nat) (k : Nat) : (s.setCycle c).word k = s.word k := rfl
@[simp] theorem State.rd_setCore (s : State) (p : Nat) (c : CoreS) (fr : FieldRef) : (s.setCore p c).rd fr = s.rd fr := rfl
@[simp] theorem State.word_setCore (s : State) (p : Nat) (c : CoreS) (k : Nat) : (s.setCore p c).word k = s.word k := rfl
@[simp] theorem State.rd_setCmns (s : State) (c : CmnsS) (fr : FieldRef) : (s.setCmns c).rd fr = s.rd fr := rfl
@[simp] theorem State.word_setCmns (s : State) (c : CmnsS) (k : Nat) : (s.setCmns c).word k = s.word k := rfl
@[simp] theorem State.rd_setMark (s : State) (w : Nat) (m : ErrMark) (fr : FieldRef) : (s.setMark w m).rd fr = s.rd fr := rfl
@[simp] theorem State.word_setMark (s : State) (w : Nat) (m : ErrMark) (k : Nat) : (s.setMark w m).word k = s.word k := rfl
@[simp] theorem State.rd_setTier (s : State) (t : TierS) (fr : FieldRef) : (s.setTier t).rd fr = s.rd fr := rfl
@[simp] theorem State.word_setTier (s : State) (t : TierS) (k : Nat) : (s.setTier t).word k = s.word k := rfl
@[simp] theorem State.rd_setJob (s : State) (n : Nat) (j : JobS) (fr : FieldRef) : (s.setJob n j).rd fr = s.rd fr := rfl
@[simp] theorem State.word_setJob (s : State) (n : Nat) (j : JobS) (k : Nat) : (s.setJob n j).word k = s.word k := rfl
@[simp] theorem State.rd_setDiop (s : State) (d : DiopS) (fr : FieldRef) : (s.setDiop d).rd fr = s.rd fr := rfl
@[simp] theorem State.word_setDiop (s : State) (d : DiopS) (k : Nat) : (s.setDiop d).word k = s.word k := rfl
@[simp] theorem State.rd_setLoops (s : State) (l : LoopsS) (fr : FieldRef) : (s.setLoops l).rd fr = s.rd fr := rfl
@[simp] theorem State.word_setLoops (s : State) (l : LoopsS) (k : Nat) : (s.setLoops l).word k = s.word k := rfl
@[simp] theorem State.rd_setLoop (s : State) (n : Nat) (l : LoopS) (fr : FieldRef) : (s.setLoop n l).rd fr = s.rd fr := rfl
@[simp] theorem State.word_setLoop (s : State) (n : Nat) (l : LoopS) (k : Nat) : (s.setLoop n l).word k = s.word k := rfl
@[simp] theorem State.rd_setQm (s : State) (q : QmS) (fr : FieldRef) : (s.setQm q).rd fr = s.rd fr := rfl
@[simp] theorem State.word_setQm (s : State) (q : QmS) (k : Nat) : (s.setQm q).word k = s.word k := rfl
@[simp] theorem State.rd_setFusa (s : State) (f : FusaS) (fr : FieldRef) : (s.setFusa f).rd fr = s.rd fr := rfl
@[simp] theorem State.word_setFusa (s : State) (f : FusaS) (k : Nat) : (s.setFusa f).word k = s.word k := rfl
@[simp] theorem State.rd_setSolv (s : State) (x : SolvS) (fr : FieldRef) : (s.setSolv x).rd fr = s.rd fr := rfl
@[simp] theorem State.word_setSolv (s : State) (x : SolvS) (k : Nat) : (s.setSolv x).word k = s.word k := rfl
@[simp] theorem State.rd_setFeed (s : State) (f : FeedS) (fr : FieldRef) : (s.setFeed f).rd fr = s.rd fr := rfl
@[simp] theorem State.word_setFeed (s : State) (f : FeedS) (k : Nat) : (s.setFeed f).word k = s.word k := rfl
@[simp] theorem State.rd_setRst (s : State) (r : RstS) (fr : FieldRef) : (s.setRst r).rd fr = s.rd fr := rfl
@[simp] theorem State.word_setRst (s : State) (r : RstS) (k : Nat) : (s.setRst r).word k = s.word k := rfl
@[simp] theorem State.rd_setCan (s : State) (c : CanS) (fr : FieldRef) : (s.setCan c).rd fr = s.rd fr := rfl
@[simp] theorem State.word_setCan (s : State) (c : CanS) (k : Nat) : (s.setCan c).word k = s.word k := rfl
@[simp] theorem State.rd_setCh (s : State) (c : Nat) (x : CanCh) (fr : FieldRef) : (s.setCh c x).rd fr = s.rd fr := rfl
@[simp] theorem State.word_setCh (s : State) (c : Nat) (x : CanCh) (k : Nat) : (s.setCh c x).word k = s.word k := rfl
@[simp] theorem State.rd_setObj (s : State) (j : Nat) (o : ObjS) (fr : FieldRef) : (s.setObj j o).rd fr = s.rd fr := rfl
@[simp] theorem State.word_setObj (s : State) (j : Nat) (o : ObjS) (k : Nat) : (s.setObj j o).word k = s.word k := rfl
@[simp] theorem State.rd_setMetr (s : State) (m : MetrS) (fr : FieldRef) : (s.setMetr m).rd fr = s.rd fr := rfl
@[simp] theorem State.word_setMetr (s : State) (m : MetrS) (k : Nat) : (s.setMetr m).word k = s.word k := rfl
@[simp] theorem State.rd_setGrp (s : State) (g : Nat) (x : GrpS) (fr : FieldRef) : (s.setGrp g x).rd fr = s.rd fr := rfl
@[simp] theorem State.word_setGrp (s : State) (g : Nat) (x : GrpS) (k : Nat) : (s.setGrp g x).word k = s.word k := rfl
@[simp] theorem State.rd_setTc (s : State) (c : Nat) (x : TcS) (fr : FieldRef) : (s.setTc c x).rd fr = s.rd fr := rfl
@[simp] theorem State.word_setTc (s : State) (c : Nat) (x : TcS) (k : Nat) : (s.setTc c x).word k = s.word k := rfl
@[simp] theorem State.rd_setPo (s : State) (o : Nat) (x : PoS) (fr : FieldRef) : (s.setPo o x).rd fr = s.rd fr := rfl
@[simp] theorem State.word_setPo (s : State) (o : Nat) (x : PoS) (k : Nat) : (s.setPo o x).word k = s.word k := rfl
@[simp] theorem State.rd_setAdcs (s : State) (a : AdcsS) (fr : FieldRef) : (s.setAdcs a).rd fr = s.rd fr := rfl
@[simp] theorem State.word_setAdcs (s : State) (a : AdcsS) (k : Nat) : (s.setAdcs a).word k = s.word k := rfl
@[simp] theorem State.rd_setSafe (s : State) (x : SafeS) (fr : FieldRef) : (s.setSafe x).rd fr = s.rd fr := rfl
@[simp] theorem State.word_setSafe (s : State) (x : SafeS) (k : Nat) : (s.setSafe x).word k = s.word k := rfl
@[simp] theorem State.rd_setCon (s : State) (c : Nat) (x : ConS) (fr : FieldRef) : (s.setCon c x).rd fr = s.rd fr := rfl
@[simp] theorem State.word_setCon (s : State) (c : Nat) (x : ConS) (k : Nat) : (s.setCon c x).word k = s.word k := rfl
@[simp] theorem State.rd_setEth (s : State) (i : Nat) (e : EthS) (fr : FieldRef) : (s.setEth i e).rd fr = s.rd fr := rfl
@[simp] theorem State.word_setEth (s : State) (i : Nat) (e : EthS) (k : Nat) : (s.setEth i e).word k = s.word k := rfl
@[simp] theorem State.rd_setPtpt (s : State) (x : PtptS) (fr : FieldRef) : (s.setPtpt x).rd fr = s.rd fr := rfl
@[simp] theorem State.word_setPtpt (s : State) (x : PtptS) (k : Nat) : (s.setPtpt x).word k = s.word k := rfl
@[simp] theorem State.rd_setRtcb (s : State) (x : RtcbS) (fr : FieldRef) : (s.setRtcb x).rd fr = s.rd fr := rfl
@[simp] theorem State.word_setRtcb (s : State) (x : RtcbS) (k : Nat) : (s.setRtcb x).word k = s.word k := rfl
@[simp] theorem State.rd_setPair (s : State) (x : PairS) (fr : FieldRef) : (s.setPair x).rd fr = s.rd fr := rfl
@[simp] theorem State.word_setPair (s : State) (x : PairS) (k : Nat) : (s.setPair x).word k = s.word k := rfl
@[simp] theorem State.rd_setTrst (s : State) (t : TrstS) (fr : FieldRef) : (s.setTrst t).rd fr = s.rd fr := rfl
@[simp] theorem State.word_setTrst (s : State) (t : TrstS) (k : Nat) : (s.setTrst t).word k = s.word k := rfl
@[simp] theorem State.rd_setBnch (s : State) (b : BnchS) (fr : FieldRef) : (s.setBnch b).rd fr = s.rd fr := rfl
@[simp] theorem State.word_setBnch (s : State) (b : BnchS) (k : Nat) : (s.setBnch b).word k = s.word k := rfl
@[simp] theorem State.rd_setAxis (s : State) (a : Nat) (x : AxisS) (fr : FieldRef) : (s.setAxis a x).rd fr = s.rd fr := rfl
@[simp] theorem State.word_setAxis (s : State) (a : Nat) (x : AxisS) (k : Nat) : (s.setAxis a x).word k = s.word k := rfl
@[simp] theorem State.core_setWord (s : State) (a : Nat) (v : Word) (k : Nat) : (s.setWord a v).core k = s.core k := rfl
@[simp] theorem State.core_wr (s : State) (f : FieldRef) (x : Nat) (k : Nat) : (s.wr f x).core k = s.core k := rfl
@[simp] theorem State.core_wrShadow (s : State) (f : FieldRef) (x : Nat) (k : Nat) : (s.wrShadow f x).core k = s.core k := rfl
@[simp] theorem State.core_swapField (s : State) (f : FieldRef) (k : Nat) : (s.swapField f).core k = s.core k := rfl
@[simp] theorem State.core_discardColl (s : State) (win : Nat) (g : Grp) (n : Option Nat) (k : Nat) : (s.discardColl win g n).core k = s.core k := rfl
@[simp] theorem State.core_noteHw (s : State) (t : Nat) (f : FieldRef) (d : Nat) (peak : Bool) (k : Nat) : (s.noteHw t f d peak).core k = s.core k := rfl
@[simp] theorem State.core_noteWrote (s : State) (a : Nat) (live bank val : Word) (k : Nat) : (s.noteWrote a live bank val).core k = s.core k := rfl
@[simp] theorem State.core_setCycle (s : State) (c : Nat) (k : Nat) : (s.setCycle c).core k = s.core k := rfl
@[simp] theorem State.core_setCmns (s : State) (c : CmnsS) (k : Nat) : (s.setCmns c).core k = s.core k := rfl
@[simp] theorem State.core_setMark (s : State) (w : Nat) (m : ErrMark) (k : Nat) : (s.setMark w m).core k = s.core k := rfl
@[simp] theorem State.core_setTier (s : State) (t : TierS) (k : Nat) : (s.setTier t).core k = s.core k := rfl
@[simp] theorem State.core_setJob (s : State) (n : Nat) (j : JobS) (k : Nat) : (s.setJob n j).core k = s.core k := rfl
@[simp] theorem State.core_setDiop (s : State) (d : DiopS) (k : Nat) : (s.setDiop d).core k = s.core k := rfl
@[simp] theorem State.core_setLoops (s : State) (l : LoopsS) (k : Nat) : (s.setLoops l).core k = s.core k := rfl
@[simp] theorem State.core_setLoop (s : State) (n : Nat) (l : LoopS) (k : Nat) : (s.setLoop n l).core k = s.core k := rfl
@[simp] theorem State.core_setQm (s : State) (q : QmS) (k : Nat) : (s.setQm q).core k = s.core k := rfl
@[simp] theorem State.core_setFusa (s : State) (f : FusaS) (k : Nat) : (s.setFusa f).core k = s.core k := rfl
@[simp] theorem State.core_setSolv (s : State) (x : SolvS) (k : Nat) : (s.setSolv x).core k = s.core k := rfl
@[simp] theorem State.core_setFeed (s : State) (f : FeedS) (k : Nat) : (s.setFeed f).core k = s.core k := rfl
@[simp] theorem State.core_setRst (s : State) (r : RstS) (k : Nat) : (s.setRst r).core k = s.core k := rfl
@[simp] theorem State.core_setCan (s : State) (c : CanS) (k : Nat) : (s.setCan c).core k = s.core k := rfl
@[simp] theorem State.core_setCh (s : State) (c : Nat) (x : CanCh) (k : Nat) : (s.setCh c x).core k = s.core k := rfl
@[simp] theorem State.core_setObj (s : State) (j : Nat) (o : ObjS) (k : Nat) : (s.setObj j o).core k = s.core k := rfl
@[simp] theorem State.core_setMetr (s : State) (m : MetrS) (k : Nat) : (s.setMetr m).core k = s.core k := rfl
@[simp] theorem State.core_setGrp (s : State) (g : Nat) (x : GrpS) (k : Nat) : (s.setGrp g x).core k = s.core k := rfl
@[simp] theorem State.core_setTc (s : State) (c : Nat) (x : TcS) (k : Nat) : (s.setTc c x).core k = s.core k := rfl
@[simp] theorem State.core_setPo (s : State) (o : Nat) (x : PoS) (k : Nat) : (s.setPo o x).core k = s.core k := rfl
@[simp] theorem State.core_setAdcs (s : State) (a : AdcsS) (k : Nat) : (s.setAdcs a).core k = s.core k := rfl
@[simp] theorem State.core_setSafe (s : State) (x : SafeS) (k : Nat) : (s.setSafe x).core k = s.core k := rfl
@[simp] theorem State.core_setCon (s : State) (c : Nat) (x : ConS) (k : Nat) : (s.setCon c x).core k = s.core k := rfl
@[simp] theorem State.core_setEth (s : State) (i : Nat) (e : EthS) (k : Nat) : (s.setEth i e).core k = s.core k := rfl
@[simp] theorem State.core_setPtpt (s : State) (x : PtptS) (k : Nat) : (s.setPtpt x).core k = s.core k := rfl
@[simp] theorem State.core_setRtcb (s : State) (x : RtcbS) (k : Nat) : (s.setRtcb x).core k = s.core k := rfl
@[simp] theorem State.core_setPair (s : State) (x : PairS) (k : Nat) : (s.setPair x).core k = s.core k := rfl
@[simp] theorem State.core_setTrst (s : State) (t : TrstS) (k : Nat) : (s.setTrst t).core k = s.core k := rfl
@[simp] theorem State.core_setBnch (s : State) (b : BnchS) (k : Nat) : (s.setBnch b).core k = s.core k := rfl
@[simp] theorem State.core_setAxis (s : State) (a : Nat) (x : AxisS) (k : Nat) : (s.setAxis a x).core k = s.core k := rfl

end Sys2Proof.Machine
end

