-- ==== Sys2Proof/Laws/Ops.lean ====
section
/-! SUPPORT. What the shared operations do, said once: raising an event, making a record, the passage of time with nothing on
its way, taking a trap, running an instruction. -/

namespace Sys2Proof.Machine

/-! ## Raising an event changes what is on its way, the recorder's queue and two registers, and nothing else -/

/-- A field that no event and no record writes: it lies outside `EVNT_STAT` and `RECD_STAT`. -/
def FieldRef.quiet (f : FieldRef) : Bool :=
  f.addr != R.EVNT_STAT && f.addr != R.RECD_STAT && f.addr + 4 != R.EVNT_STAT && f.addr + 4 != R.RECD_STAT

/-- The registers m' hold what m holds, but for `EVNT_STAT` and `RECD_STAT`. -/
def QuietRegs (m m' : NMap Word) : Prop :=
  ∀ a, a ≠ R.EVNT_STAT → a ≠ R.RECD_STAT → planeGet m' a = planeGet m a

theorem QuietRegs.refl (m : NMap Word) : QuietRegs m m := fun _ _ _ => rfl

theorem QuietRegs.trans {m m' m'' : NMap Word} (h : QuietRegs m m') (h' : QuietRegs m' m'') : QuietRegs m m'' :=
  fun a h1 h2 => (h' a h1 h2).trans (h a h1 h2)

theorem QuietRegs.planeRd {m m' : NMap Word} (h : QuietRegs m m') (f : FieldRef) (hf : f.quiet = true) :
    Sys2Proof.Machine.planeRd m' f = Sys2Proof.Machine.planeRd m f := by
  simp only [FieldRef.quiet, Bool.and_eq_true, bne_iff_ne, ne_eq] at hf
  unfold Sys2Proof.Machine.planeRd planeWide
  rw [h _ hf.1.1.1 hf.1.1.2, h _ hf.1.2 hf.2]

/-- A write of a 32-bit field changes its own word alone. -/
theorem planeGet_planeWr_off (m : NMap Word) (f : FieldRef) (x a : Nat) (h32 : f.hi < 32) (h : a ≠ f.addr) :
    planeGet (planeWr m f x) a = planeGet m a := by
  rw [planeGet_planeWr, if_neg (by omega), if_neg h]

theorem State.latch_all (e : Nat) (l : List Nat) (s : State) :
    ∃ q, l.foldl (State.latch e) s = { s with evIn := q } := by
  induction l generalizing s with
  | nil => exact ⟨s.evIn, rfl⟩
  | cons d r ih => obtain ⟨q, hq⟩ := ih (s.latch e d); exact ⟨q, hq⟩

/-- What advancing a counter does. -/
theorem State.inc_regs (s : State) (f : FieldRef) : ∃ h r, s.inc f = { s with hw := h, regs := r } ∧ r = planeWr s.regs f
    (satAdd f.top (s.rd f) 1) := ⟨_, _, rfl, rfl⟩

/-- What a raise without record does. -/
theorem State.raiseQuiet_eq (s : State) (e : Nat) (ds : List Nat) (sup : Bool) :
    ∃ q h r, s.raiseQuiet e ds sup = { s with evIn := q, hw := h, regs := r } ∧ QuietRegs s.regs r := by
  unfold State.raiseQuiet
  split
  · obtain ⟨q, hq⟩ := State.latch_all e (s.targets e ds sup) (s.inc R.EVNT_STAT_NOSUP)
    exact ⟨q, _, _, hq, fun a h _ => planeGet_planeWr_off s.regs R.EVNT_STAT_NOSUP _ a (by decide) h⟩
  · obtain ⟨q, hq⟩ := State.latch_all e (s.targets e ds sup) s
    exact ⟨q, s.hw, s.regs, hq, QuietRegs.refl _⟩

/-- What entering a record in the write queue does. -/
theorem State.queueRec_eq (s : State) (x : Rec) :
    ∃ h r rc, (s.queueRec x).1 = { s with hw := h, regs := r, recd := rc } ∧ QuietRegs s.regs r := by
  unfold State.queueRec
  split
  · exact ⟨s.hw, s.regs, s.recd, rfl, QuietRegs.refl _⟩
  · split
    · exact ⟨_, _, _, rfl, fun a _ h => planeGet_planeWr_off s.regs R.RECD_STAT_DROPS _ a (by decide) h⟩
    · exact ⟨_, _, _, rfl, fun a _ h => planeGet_planeWr_off s.regs R.RECD_STAT_QLEN _ a (by decide) h⟩

/-- What a raise with its record does. -/
theorem State.raise_eq (s : State) (e : Nat) (ds : List Nat) (sup : Bool) :
    ∃ q h r rc, s.raise e ds sup = { s with evIn := q, hw := h, regs := r, recd := rc } ∧ QuietRegs s.regs r := by
  obtain ⟨q, h, r, hq, hr⟩ := State.raiseQuiet_eq s e ds sup
  unfold State.raise
  simp only [hq]
  split
  · generalize hx : State.mkRec _ _ _ _ _ _ = x
    obtain ⟨h2, r2, rc, e2, hr2⟩ := State.queueRec_eq { s with evIn := q, hw := h, regs := r } x
    split
    · rw [e2]
      obtain ⟨q3, h3, r3, e3, hr3⟩ := State.raiseQuiet_eq { s with evIn := q, hw := h2, regs := r2, recd := rc } 236 [] true
      exact ⟨q3, h3, r3, rc, e3, (hr.trans hr2).trans hr3⟩
    · exact ⟨q, h2, r2, rc, e2, hr.trans hr2⟩
  · exact ⟨q, h, r, s.recd, rfl, hr⟩

@[simp] theorem State.raise_rd (s : State) (e : Nat) (ds : List Nat) (sup : Bool) (f : FieldRef) (h : f.quiet = true) :
    (s.raise e ds sup).rd f = s.rd f := by
  obtain ⟨q, hw, r, rc, hq, hr⟩ := State.raise_eq s e ds sup
  rw [hq]; exact hr.planeRd f h

@[simp] theorem State.raise_word (s : State) (e : Nat) (ds : List Nat) (sup : Bool) (a : Nat) (h1 : a ≠ R.EVNT_STAT)
    (h2 : a ≠ R.RECD_STAT) : (s.raise e ds sup).word a = s.word a := by
  obtain ⟨q, hw, r, rc, hq, hr⟩ := State.raise_eq s e ds sup
  rw [hq]; exact hr a h1 h2

@[simp] theorem State.raise_frame (s : State) (e : Nat) (ds : List Nat) (sup : Bool) :
    (s.raise e ds sup).phase = s.phase ∧ (s.raise e ds sup).tick = s.tick ∧ (s.raise e ds sup).cycle = s.cycle ∧
    (s.raise e ds sup).free = s.free ∧ (s.raise e ds sup).readData = s.readData ∧
    (s.raise e ds sup).shadow = s.shadow ∧ (s.raise e ds sup).coll = s.coll ∧ (s.raise e ds sup).sealing = s.sealing ∧
    (s.raise e ds sup).wrote = s.wrote ∧ (s.raise e ds sup).mem = s.mem ∧
    (s.raise e ds sup).cores = s.cores ∧ (s.raise e ds sup).evAt = s.evAt ∧ (s.raise e ds sup).began = s.began ∧
    (s.raise e ds sup).tier = s.tier ∧ (s.raise e ds sup).cmns = s.cmns ∧ (s.raise e ds sup).moniBins = s.moniBins ∧
    (s.raise e ds sup).bnch = s.bnch ∧ (s.raise e ds sup).ptpt = s.ptpt ∧ (s.raise e ds sup).rtcb = s.rtcb ∧
    (s.raise e ds sup).safe = s.safe ∧ (s.raise e ds sup).qm = s.qm ∧ (s.raise e ds sup).fusa = s.fusa ∧
    (s.raise e ds sup).solv = s.solv ∧ (s.raise e ds sup).diop = s.diop ∧ (s.raise e ds sup).feed = s.feed ∧
    (s.raise e ds sup).loops = s.loops ∧ (s.raise e ds sup).axes = s.axes ∧ (s.raise e ds sup).rst = s.rst ∧
    (s.raise e ds sup).can = s.can ∧ (s.raise e ds sup).metr = s.metr ∧ (s.raise e ds sup).adcs = s.adcs ∧
    (s.raise e ds sup).trst = s.trst ∧ (s.raise e ds sup).sent = s.sent ∧ (s.raise e ds sup).eth = s.eth ∧
    (s.raise e ds sup).outs = s.outs ∧ (s.raise e ds sup).pair = s.pair ∧ (s.raise e ds sup).pending = s.pending := by
  obtain ⟨q, hw, r, rc, hq, -⟩ := State.raise_eq s e ds sup
  rw [hq]
  exact ⟨rfl, rfl, rfl, rfl, rfl, rfl, rfl, rfl, rfl, rfl, rfl, rfl, rfl, rfl, rfl, rfl, rfl, rfl, rfl, rfl,
    rfl, rfl, rfl, rfl, rfl, rfl, rfl, rfl, rfl, rfl, rfl, rfl, rfl, rfl, rfl, rfl, rfl⟩

@[simp] theorem State.raise_core (s : State) (e : Nat) (ds : List Nat) (sup : Bool) (p : Nat) :
    (s.raise e ds sup).core p = s.core p := State.core_congr (State.raise_frame s e ds sup).2.2.2.2.2.2.2.2.2.2.1 p

/-! ## Time -/

/-- With nothing on its way, time goes on and nothing else changes. -/
@[simp] theorem State.atCycle_quiet (s : State) (c : Nat) (h : s.evIn = []) : s.atCycle c = s.setCycle c := by
  unfold State.atCycle; rw [if_pos h]

/-! ## Running an instruction -/

/-- A correction of the fetched word leaves the instruction, and what stands in instruction memory. -/
theorem State.fetchFix_reserved (s : State) (p : Nat) (i : Issue) :
    ((s.fetchFix p).core p).reservedWord i = (s.core p).reservedWord i := by
  unfold State.fetchFix
  dsimp only
  split
  · rw [State.inc_eq, State.incBy_eq]
    simp only [State.core_wr, State.core_noteHw, State.core_setCore_same]
    rfl
  · rfl

/-- The five outcomes of an instruction. -/
theorem State.runInstr_cases (s : State) (i : Issue) (legal : Bool) (body : State → CoreS → State) :
    s.runInstr i legal body =
      if s.ready i then
        if legal then s.ended i (body (s.during i) (s.doing i)) else (s.during i).enterTrap i.core.val 2 none
      else if ((s.atCycle i.cyc).core i.core.val).executes && !(s.atCycle i.cyc).paused i.core.val then
        if ((s.atCycle i.cyc).core i.core.val).fetchMark = .double ∨ ((s.atCycle i.cyc).core i.core.val).fetchMark = .poisoned then
          (s.atCycle i.cyc).enterTrap i.core.val 1 none
        else (s.during i).enterTrap i.core.val 2 none
      else s.atCycle i.cyc := by
  unfold State.runInstr State.ready State.ended State.doing State.during
  generalize s.atCycle i.cyc = t
  simp only [State.fetchFix_reserved]
  by_cases h1 : (t.core i.core.val).executes = true <;> by_cases h2 : t.paused i.core.val = true <;>
    by_cases h4 : (t.core i.core.val).reservedWord i = true <;> by_cases h5 : (t.core i.core.val).fetchMark = .double <;>
    by_cases h6 : (t.core i.core.val).fetchMark = .poisoned <;> cases legal <;> simp [h1, h2, h4, h5, h6]

/-- An instruction that is ready and legal has the effect of its body. -/
theorem State.runInstr_ready (s : State) (i : Issue) (body : State → CoreS → State) (h : s.ready i = true) :
    s.runInstr i true body = s.ended i (body (s.during i) (s.doing i)) := by
  rw [State.runInstr_cases, if_pos h, if_pos rfl]

/-- An instruction that is ready and illegal takes the illegal-instruction trap. -/
theorem State.runInstr_illegal (s : State) (i : Issue) (body : State → CoreS → State) (h : s.ready i = true) :
    s.runInstr i false body = (s.during i).enterTrap i.core.val 2 none := by
  rw [State.runInstr_cases, if_pos h, if_neg (by decide)]

/-- A register-only instruction that is ready, legal and not at the end of instruction memory changes its core alone. -/
theorem State.runLocal_done (s : State) (i : Issue) (f : CoreS → Eff) (c : CoreS) (cost : Nat) (h : s.ready i = true)
    (hr : (s.doing i).runsOut = false) (hf : f (s.doing i) = .done c cost) :
    s.runLocal i true f = s.after i (c.past cost) := by
  unfold State.runLocal
  rw [State.runInstr_ready _ _ _ h]
  simp only [hr, hf, Bool.false_eq_true, if_false]
  rfl

end Sys2Proof.Machine
end

