-- ==== Sys2Proof/Laws/TwoCopy.lean ====
section
/-! SUPPORT. A sealed run of words verifies, and a copy that has been written whole is valid (R138, R338, R591). -/

namespace Sys2Proof.Machine

theorem crcBit_lt (poly c : Nat) (hp : poly < 2 ^ 32) (hc : c < 2 ^ 32) : crcBit poly c < 2 ^ 32 := by
  unfold crcBit
  split
  · exact Nat.xor_lt_two_pow (by omega) hp
  · omega

theorem crcByte_lt (poly c b : Nat) (hp : poly < 2 ^ 32) (hc : c < 2 ^ 32) : crcByte poly c b < 2 ^ 32 := by
  have h : c ^^^ (b % 256) < 2 ^ 32 := Nat.xor_lt_two_pow hc (by omega)
  unfold crcByte
  exact crcBit_lt _ _ hp (crcBit_lt _ _ hp (crcBit_lt _ _ hp (crcBit_lt _ _ hp (crcBit_lt _ _ hp (crcBit_lt _ _ hp
    (crcBit_lt _ _ hp (crcBit_lt _ _ hp h)))))))

theorem crcRun_lt (poly c : Nat) (bs : List Nat) (hp : poly < 2 ^ 32) (hc : c < 2 ^ 32) : crcRun poly c bs < 2 ^ 32 := by
  induction bs generalizing c with
  | nil => exact hc
  | cons b r ih => exact ih _ (crcByte_lt poly c b hp hc)

theorem crc32c_lt (bs : List Nat) : crc32c bs < 2 ^ 32 :=
  Nat.xor_lt_two_pow (crcRun_lt _ _ _ (by decide) (by decide)) (by decide)

/-- The check word of a run of words verifies it. -/
theorem verifyCheck_carryWord (ws : List Nat) (h : ws.length < 2 ^ 24) : verifyCheck ws (carryWord ws) = 0 := by
  have hc := crc32c_lt (wordsBytes ws)
  have e : carryWord ws = crc32c (wordsBytes ws) + 2 ^ 32 * ws.length + 2 ^ 56 * 0x5C := by
    simp only [carryWord, checkWordOf]; rw [Nat.mod_eq_of_lt hc, Nat.mod_eq_of_lt h]
  have h1 : bitsOf (carryWord ws) 63 56 = 0x5C := by
    simp only [bitsOf, Nat.shiftRight_eq_div_pow, e]; omega
  have h2 : bitsOf (carryWord ws) 55 32 = ws.length := by
    simp only [bitsOf, Nat.shiftRight_eq_div_pow, e]; omega
  have h3 : bitsOf (carryWord ws) 31 0 = crc32c (wordsBytes ws) := by
    simp only [bitsOf, Nat.shiftRight_eq_div_pow, e]; omega
  simp [verifyCheck, h1, h2, h3]

theorem memWords_succ (m : NMap Byte) (a n : Nat) : memWords m a (n + 1) = memRead m a 8 :: memWords m (a + 8) n := by
  simp only [memWords, List.range_succ_eq_map, List.map_cons, List.map_map]
  refine List.cons_eq_cons.mpr ⟨rfl, List.map_congr_left fun i _ => ?_⟩
  simp only [Function.comp, Nat.succ_eq_add_one]
  rw [show a + 8 * (i + 1) = a + 8 + 8 * i by omega]

/-- Words written below or above leave a load. -/
theorem memRead_memPutWords_other (m : NMap Byte) (a : Nat) (ws : List Nat) (b k : Nat)
    (h : b + k ≤ a ∨ a + 8 * ws.length ≤ b) : memRead (memPutWords m a ws) b k = memRead m b k := by
  induction ws generalizing m a with
  | nil => rfl
  | cons w r ih =>
    simp only [List.length_cons] at h
    rw [memPutWords, ih _ _ (by omega), memRead_memWrite_other _ _ _ _ _ _ (by omega)]

theorem pow_word : 2 ^ 64 = 256 ^ 8 := by decide

/-- Words written are read back. -/
theorem memWords_memPutWords (m : NMap Byte) (a : Nat) (ws : List Nat) (h : ∀ w ∈ ws, w < 2 ^ 64) :
    memWords (memPutWords m a ws) a ws.length = ws := by
  induction ws generalizing m a with
  | nil => rfl
  | cons w r ih =>
    rw [List.length_cons, memWords_succ, memPutWords, memRead_memPutWords_other _ _ _ _ _ (by omega),
      memRead_memWrite_same, ih _ _ (fun x hx => h x (List.mem_cons_of_mem _ hx)),
      Nat.mod_eq_of_lt (Nat.lt_of_lt_of_eq (h w List.mem_cons_self) pow_word)]

theorem carryWord_lt (ws : List Nat) : carryWord ws < 2 ^ 64 := by
  have h1 := Nat.mod_lt (crc32c (wordsBytes ws)) (show 0 < 2 ^ 32 by decide)
  have h2 := Nat.mod_lt ws.length (show 0 < 2 ^ 24 by decide)
  simp only [carryWord, checkWordOf]; omega

/-- The words of a copy that has been written whole. -/
theorem memWords_copyClose (m : NMap Byte) (a : Nat) (ws : List Nat) (h : ∀ w ∈ ws, w < 2 ^ 64) :
    memWords (copyClose m a ws) a ws.length = ws := by
  have e : memWords (copyClose m a ws) a ws.length = memWords (memPutWords m a ws) a ws.length := by
    refine List.map_congr_left fun i hi => ?_
    have := List.mem_range.mp hi
    exact memRead_memWrite_other _ _ _ _ _ _ (by omega)
  rw [e, memWords_memPutWords m a ws h]

/-- A load of the low bytes of a word. -/
theorem memRead_low (m : NMap Byte) (a n k : Nat) : memRead m a n = memRead m a (n + k) % 256 ^ n := by
  induction n generalizing a with
  | zero => simp [memRead, Nat.mod_one]
  | succ n ih =>
    rw [show n + 1 + k = n + k + 1 by omega]
    simp only [memRead]
    have hb : (NMap.get 0 m a).toNat < 256 := (NMap.get 0 m a).isLt
    rw [ih (a + 1), Nat.pow_succ 256 n, Nat.mul_comm (256 ^ n) 256, Nat.mod_mul,
      show ((NMap.get 0 m a).toNat + 256 * memRead m (a + 1) (n + k)) / 256 = memRead m (a + 1) (n + k) by omega]
    omega

/-- A load of bytes above the low ones. -/
theorem memRead_high (m : NMap Byte) (a n k : Nat) : memRead m (a + n) k = memRead m a (n + k) / 256 ^ n := by
  induction n generalizing a with
  | zero => simp
  | succ n ih =>
    rw [show n + 1 + k = n + k + 1 by omega]
    simp only [memRead]
    have hb : (NMap.get 0 m a).toNat < 256 := (NMap.get 0 m a).isLt
    rw [show a + (n + 1) = a + 1 + n by omega, ih (a + 1), Nat.pow_succ 256 n, Nat.mul_comm (256 ^ n) 256,
      ← Nat.div_div_eq_div_mul,
      show ((NMap.get 0 m a).toNat + 256 * memRead m (a + 1) (n + k)) / 256 = memRead m (a + 1) (n + k) by omega]

/-- A copy written whole, whose first word bears MAGIC and FORMAT 1, is valid and bears its GEN. -/
theorem copyGen_copyClose (m : NMap Byte) (a : Nat) (w : Nat) (r : List Nat) (gen magic : Nat) (h : ∀ x ∈ w :: r, x < 2 ^ 64)
    (hl : r.length + 1 < 2 ^ 24) (hm : magic < 2 ^ 16) (hw : w = magic + 2 ^ 16 + 2 ^ 32 * gen) :
    copyGen (copyClose m a (w :: r)) a (r.length + 1) magic = some gen := by
  have e := memWords_copyClose m a (w :: r) h
  rw [List.length_cons] at e
  have e0 : memRead (copyClose m a (w :: r)) a 8 = w := by
    have := e; rw [memWords_succ] at this; exact (List.cons.inj this).1
  have ec : memRead (copyClose m a (w :: r)) (a + 8 * (r.length + 1)) 8 = carryWord (w :: r) := by
    simp only [copyClose, List.length_cons]
    rw [memRead_memWrite_same, Nat.mod_eq_of_lt (Nat.lt_of_lt_of_eq (carryWord_lt _) pow_word)]
  have hw64 := h w List.mem_cons_self
  have e1 : memRead (copyClose m a (w :: r)) a 2 = magic := by
    rw [memRead_low _ a 2 6, e0, hw]; omega
  have e2 : memRead (copyClose m a (w :: r)) (a + 2) 2 = 1 := by
    rw [memRead_low _ (a + 2) 2 4, memRead_high _ a 2 6, e0, hw]; omega
  have e3 : memRead (copyClose m a (w :: r)) (a + 4) 4 = gen := by
    rw [memRead_high _ a 4 4, e0, hw]; omega
  simp only [copyGen]
  rw [e, ec, e1, e2, e3, verifyCheck_carryWord _ (by simpa using hl)]
  simp

end Sys2Proof.Machine
end

