-- ==== Sys2Proof/WellFormed.lean ====
section
/-! DEFINITION. Which commands the world beside the module can send: cycles lie within a tick (R18), waits within their bounds
(R85), register accesses are aligned and in the block windows (R64, R65), the levels of every modulator input come with an update, and supplies lie
where the module is specified (R17, R569). The meanings are total and need none of this; an ill-formed command is no event of
the hardware. -/

namespace Sys2Proof

/-- A cycle of a tick (R18). -/
def cycleOk (c : Nat) : Bool := decide (c < Config.cyclesPerTick)

/-- The issue of an instruction: in a cycle of the tick, with a wait of the commons or the MRAM port (R85). -/
def Issue.wellFormed (i : Issue) : Bool := cycleOk i.cyc && decide (i.wait ≤ 828)

def Port.wellFormed (p : Port) : Bool := cycleOk p.cyc

/-- A supply voltage in 10 mV that the module withstands (R569). -/
def supplyOk (v : Nat) : Bool := decide (v ≤ 4000)

/-- An aligned access to the block windows (R64, R65). -/
def blockAccess (addr : BitVec 32) (size : Size) : Bool :=
  decide (0x40000000 ≤ addr.toNat) && decide (addr.toNat < 0x40160000) && addr.toNat % size.bytes == 0

/-- What a tick edge meets: supplies in their range, and no more oscillator pulses than a tick holds (R463). -/
def TickIn.wellFormed (e : TickIn) : Bool := supplyOk e.va && supplyOk e.vb && decide (e.rtc ≤ 4)

def KickIn.wellFormed (k : KickIn) : Bool := supplyOk k.va && supplyOk k.vb

/-- A frame or message on a link has at most 65,536 bytes. -/
def bytesOk (bs : List Byte) : Bool := decide (bs.length ≤ 65536)

/-- What the active sends on the Rioft link: a body of a length that a block has, in a cycle of the tick (R482, R485). -/
def RioftOut.wellFormed : RioftOut → Bool
  | .snapshot body cychi _ => decide (body.length ≤ 4032) && body.length % 8 == 0 && cycleOk cychi
  | .hash => true

/-- The levels of the 32 modulator inputs, one bit for each cycle of the tick (R375, R376). -/
def levelsOk (x : List Nat) : Bool := x.length == 32 && x.all fun v => v >>> Config.cyclesPerTick == 0

/-- What an axis port senses in a tick has at most 10,000 steps of 10 ns (R18, R317). -/
def stepsOk (w : List ChopSense) : Bool := decide (w.length ≤ 10000)

/-- A command that the hardware beside the module can send. -/
def Instr.wellFormed : Instr → Bool
  | .powerGoodKickOff k => k.wellFormed
  | .setupTimeout => true
  | .coreStartTickZero => true
  | .tickEdge e => e.wellFormed
  | .changeoverPublication => true
  | .classWDeadlineMiss _ => true
  | .classRDeadlineMiss _ => true
  | .followLost => true
  | .tickCountRead p => p.wellFormed
  | .tierJobSeal p _ => p.wellFormed
  | .coreBindSeal p _ => p.wellFormed
  | .registerWrite p addr size _ => p.wellFormed && blockAccess addr size
  | .rcFieldRead p addr size => p.wellFormed && blockAccess addr size
  | .add i _ _ _ => i.wellFormed
  | .addc i _ _ _ => i.wellFormed
  | .adds i _ _ _ => i.wellFormed
  | .sub i _ _ _ => i.wellFormed
  | .subc i _ _ _ => i.wellFormed
  | .subs i _ _ _ => i.wellFormed
  | .and i _ _ _ => i.wellFormed
  | .or i _ _ _ => i.wellFormed
  | .xor i _ _ _ => i.wellFormed
  | .shl i _ _ _ _ => i.wellFormed
  | .shr i _ _ _ _ => i.wellFormed
  | .sra i _ _ _ _ => i.wellFormed
  | .ror i _ _ _ _ => i.wellFormed
  | .mul i _ _ _ => i.wellFormed
  | .mulh i _ _ _ => i.wellFormed
  | .mulhu i _ _ _ => i.wellFormed
  | .mulw i _ _ _ => i.wellFormed
  | .cmp i _ _ _ => i.wellFormed
  | .min i _ _ _ => i.wellFormed
  | .max i _ _ _ => i.wellFormed
  | .minu i _ _ _ => i.wellFormed
  | .maxu i _ _ _ => i.wellFormed
  | .sel i _ _ _ _ => i.wellFormed
  | .neg i _ _ _ => i.wellFormed
  | .abs i _ _ _ => i.wellFormed
  | .clz i _ _ _ => i.wellFormed
  | .sexb i _ _ _ => i.wellFormed
  | .sexh i _ _ _ => i.wellFormed
  | .addd i _ _ _ => i.wellFormed
  | .subd i _ _ _ => i.wellFormed
  | .addds i _ _ _ => i.wellFormed
  | .subds i _ _ _ => i.wellFormed
  | .push i _ _ _ => i.wellFormed
  | .pop i _ _ _ => i.wellFormed
  | .pushd i _ _ _ => i.wellFormed
  | .popd i _ _ _ => i.wellFormed
  | .addi i _ _ _ => i.wellFormed
  | .andi i _ _ _ => i.wellFormed
  | .ori i _ _ _ => i.wellFormed
  | .xori i _ _ _ => i.wellFormed
  | .shi i _ _ _ => i.wellFormed
  | .cmpi i _ _ _ => i.wellFormed
  | .lui i _ _ => i.wellFormed
  | .li i _ _ => i.wellFormed
  | .lb i _ _ _ => i.wellFormed
  | .lh i _ _ _ => i.wellFormed
  | .lw i _ _ _ => i.wellFormed
  | .ldd i _ _ _ => i.wellFormed
  | .sb i _ _ _ => i.wellFormed
  | .sh i _ _ _ => i.wellFormed
  | .sw i _ _ _ => i.wellFormed
  | .sdd i _ _ _ => i.wellFormed
  | .mulq i _ _ _ _ => i.wellFormed
  | .mac i _ _ _ _ => i.wellFormed
  | .clra i _ _ _ => i.wellFormed
  | .lda i _ _ _ => i.wellFormed
  | .adda i _ _ _ => i.wellFormed
  | .suba i _ _ _ => i.wellFormed
  | .ext i _ _ _ _ => i.wellFormed
  | .b i _ _ _ => i.wellFormed
  | .call i _ _ => i.wellFormed
  | .jr i _ _ _ => i.wellFormed
  | .callr i _ _ _ => i.wellFormed
  | .ret i _ _ _ => i.wellFormed
  | .loop i _ _ _ => i.wellFormed
  | .wtk i _ _ _ => i.wellFormed
  | .wtkResume _ => true
  | .slack i _ _ _ => i.wellFormed
  | .pub i _ _ _ => i.wellFormed
  | .pubDeferredLeave _ => true
  | .take i _ _ _ => i.wellFormed
  | .objseq i _ _ _ => i.wellFormed
  | .evt i _ _ _ => i.wellFormed
  | .evwait i _ _ _ => i.wellFormed
  | .evwaitResume _ cyc => cycleOk cyc
  | .evwaitTimeout _ cyc => cycleOk cyc
  | .evget i _ _ _ => i.wellFormed
  | .sqpost i _ _ _ => i.wellFormed
  | .sqwait i _ _ _ => i.wellFormed
  | .sqwaitResume _ cyc => cycleOk cyc
  | .sqwaitTimeout _ cyc => cycleOk cyc
  | .trust i _ _ _ => i.wellFormed
  | .trap i _ _ _ => i.wellFormed
  | .nop i _ _ => i.wellFormed
  | .rdsr i _ _ => i.wellFormed
  | .wrsr i _ _ => i.wellFormed
  | .rdid i _ _ => i.wellFormed
  | .commonsScrub _ => true
  | .commonsRowSwitch _ => true
  | .ckSeal p _ => p.wellFormed
  | .ckVerify p _ => p.wellFormed
  | .ckCopy p _ => p.wellFormed
  | .checkUnitComplete _ => true
  | .qmSeal p _ => p.wellFormed
  | .qmSealComplete _ => true
  | .qmHoldEnd _ => true
  | .qmScan => true
  | .fusaSampleWrite p _ _ _ => p.wellFormed
  | .fusaSbaseSeal p => p.wellFormed
  | .alignmentLimitExpiry => true
  | .gate p _ => p.wellFormed
  | .cupd p _ => p.wellFormed
  | .assistComplete _ => true
  | .calibrationWrite p _ _ _ => p.wellFormed
  | .pdef _ _ _ => true
  | .patt _ _ _ => true
  | .symb _ _ _ => true
  | .pdel _ _ _ => true
  | .kdelta _ _ _ => true
  | .vdelta _ _ _ => true
  | .vread _ _ _ => true
  | .refac _ _ _ => true
  | .solve _ _ _ => true
  | .spmv _ _ _ => true
  | .vopCopy _ _ _ => true
  | .vopAxpby _ _ _ => true
  | .vopClamp _ _ _ => true
  | .vopFill _ _ _ => true
  | .vopNorm _ _ _ => true
  | .refine _ _ _ => true
  | .iter _ _ _ _ => true
  | .dqp _ _ _ => true
  | .enc _ _ _ => true
  | .solverCommandComplete _ _ cyc _ => cycleOk cyc
  | .solvCancel p _ _ => p.wellFormed
  | .loopEvaluation _ => true
  | .loopOutputPost => true
  | .loopSeal p _ => p.wellFormed
  | .loopSealComplete _ => true
  | .loopOutputSeal p => p.wellFormed
  | .loopCommit p _ => p.wellFormed
  | .setLoadQueue p _ => p.wellFormed
  | .setLoadComplete => true
  | .consoleEntryQueue p _ => p.wellFormed
  | .reactionAcknowledge p _ => p.wellFormed
  | .injectorSeal p _ => p.wellFormed
  | .injectorStart p _ => p.wellFormed
  | .injectorStop p _ => p.wellFormed
  | .captureSeal p => p.wellFormed
  | .captureStart p => p.wellFormed
  | .captureStop p => p.wellFormed
  | .axisUpdate _ => true
  | .chopperFault _ w cyc => stepsOk w && cycleOk cyc
  | .axisClr p _ => p.wellFormed
  | .axisSetp p _ _ => p.wellFormed
  | .axisCommit p _ => p.wellFormed
  | .axisSeal p _ => p.wellFormed
  | .encoderEdge _ _ => true
  | .pulseInputEdge _ _ => true
  | .restartRequest p _ _ => p.wellFormed
  | .partitionRestart => true
  | .outputReleaseRequest p => p.wellFormed
  | .outputRelease => true
  | .kickOffRequest p _ _ _ => p.wellFormed
  | .requestedKickOff => true
  | .canFrameReceive _ _ => true
  | .canTxRequest p _ _ _ => p.wellFormed
  | .canTxCancel p _ _ => p.wellFormed
  | .canTxAttempt _ cyc => cycleOk cyc
  | .canTxComplete _ _ => true
  | .canBusError _ _ => true
  | .busOffRecovery _ _ => true
  | .canRecov p _ => p.wellFormed
  | .stationDropout _ _ => true
  | .stationReturn _ _ => true
  | .canChannelSeal p _ => p.wellFormed
  | .canChannelSealComplete _ => true
  | .modulatorFault _ _ => true
  | .meteringUpdate x => levelsOk x
  | .groupCommit p _ => p.wellFormed
  | .meteringSeal p _ => p.wellFormed
  | .energyRegisterRead p _ => p.wellFormed
  | .summaryRead p _ => p.wellFormed
  | .meteringSave => true
  | .meteringSaveComplete _ => true
  | .meteringRestore p => p.wellFormed
  | .meteringZero p => p.wellFormed
  | .pulseOutputStart _ _ => true
  | .pulseOutputEnd _ => true
  | .meteringPost => true
  | .adcConversionEnd _ _ _ => true
  | .urgentRequest p _ _ => p.wellFormed
  | .trackerReset p _ _ => p.wellFormed
  | .calCaptureZero p _ _ _ => p.wellFormed
  | .calCaptureFullScale p _ _ _ => p.wellFormed
  | .calCaptureComplete => true
  | .calCompute p _ _ => p.wellFormed
  | .calCommit p _ => p.wellFormed
  | .calStore p => p.wellFormed
  | .calLoad p => p.wellFormed
  | .calStoreLoadComplete _ => true
  | .adcSeal p => p.wellFormed
  | .adcPost => true
  | .outputReadback _ => true
  | .darkTest _ _ => true
  | .clockMonitorFault _ => true
  | .supplyWindowFault _ => true
  | .graceExpiry => true
  | .safetyTrip p => p.wellFormed
  | .armSequence p _ => p.wellFormed
  | .safeSeal p => p.wellFormed
  | .bextisSend p _ => p.wellFormed
  | .bextisSafeStateSend _ => true
  | .bextisCopyReceive _ _ _ msg => bytesOk msg
  | .pairingWindowEnd _ => true
  | .bextisTimeout _ => true
  | .ethernetFrameReceive _ cyc _ _ frame => cycleOk cyc && bytesOk frame
  | .transmitKick p _ => p.wellFormed
  | .transmitDescriptor _ cyc => cycleOk cyc
  | .prpSupervisionSend _ => true
  | .prpLanSilent _ _ => true
  | .linkChange _ _ _ _ => true
  | .ethnSeal p _ => p.wellFormed
  | .networkTimeWrap cyc => cycleOk cyc
  | .ptptStep p _ => p.wellFormed
  | .rtcSecondBoundary _ => true
  | .rtcbSet p _ => p.wellFormed
  | .dst p => p.wellFormed
  | .backupSupplySwitch _ _ => true
  | .backupDomainReset => true
  | .strapChange _ => true
  | .rioftTraining _ _ _ => true
  | .rioftBlockSend out => out.wellFormed
  | .rioftBlockReceive block => bytesOk block
  | .snapshotItemApply _ => true
  | .starvation cyc => cycleOk cyc
  | .localmaxExpiry => true
  | .statusBlockSend => true
  | .poll => true
  | .heart msg => bytesOk msg
  | .heartReceive _ msg => bytesOk msg
  | .refereeEvaluation _ _ => true
  | .assignActive msg => bytesOk msg
  | .assignStandby msg => bytesOk msg
  | .takeover msg => bytesOk msg
  | .fenceInput _ => true
  | .fenceRelease p _ _ => p.wellFormed
  | .refereeAbsentStart => true
  | .solo p => p.wellFormed
  | .handover p => p.wellFormed
  | .handoverAtH => true
  | .handoverReceive => true
  | .resync p => p.wellFormed
  | .resyncCopyPass lines _ _ => bytesOk lines
  | .freezeJoin _ _ => true
  | .joinApply _ _ => true
  | .pairSeal p _ => p.wellFormed
  | .ident => true
  | .measure => true
  | .readmr => true
  | .trustVerify _ => true
  | .attest => true
  | .keyload => true
  | .derive => true
  | .trustMac => true
  | .seala => true
  | .opena => true
  | .sign => true
  | .importKey _ => true
  | .destroy _ => true
  | .clear => true
  | .codeload _ => true
  | .owner _ => true
  | .release _ => true
  | .trustRequestComplete => true
  | .programRecord p => p.wellFormed
  | .recordWrite _ => true
  | .monitorPut p _ _ => p.wellFormed
  | .monitorSeal p _ => p.wellFormed
  | .wearDecision _ _ _ _ _ => true
  | .bnchReq p _ _ => p.wellFormed
  | .subst _ => true
  | .benchSubstitution => true
  | .feedPresent _ => true
  | .feedLost _ => true
  | .feedOutOfBand _ => true
  | .powerDown => true
  | .outputOverload _ => true
  | .overloadRetry _ => true
  | .modulatorFaultEnd _ _ => true
  | .restoreOrZeroComplete => true
  | .bufferClosedAndSealed => true
  | .domainWriteCrossing => true
  | .busIntegrationComplete _ => true

end Sys2Proof
end

