-- ==== Sys2Proof/Tests/Slice0.lean ====
section
/-! SUPPORT. Tests: well-formedness, words written out field by field, results by hand from the rules, and for every statement
with hypotheses a state and operands that meet them. -/

namespace Sys2Proof.Tests
set_option Elab.async false
open Sys2Proof Sys2Proof.Machine

/-! ## States to test on -/

/-- The cores bound, each partition of R52 to one or two of them. -/
def bound : NMap Word :=
  [(R.CORE_nBIND 0, 1), (R.CORE_nBIND 1, 2), (R.CORE_nBIND 2, 3), (R.CORE_nBIND 3, 4), (R.CORE_nBIND 4, 5), (R.CORE_nBIND 5, 6),
    (R.CORE_nBIND 6, 7), (R.CORE_nBIND 7, 8), (R.CORE_nBIND 8, 1), (R.CORE_nBIND 9, 2), (R.CORE_nBIND 10, 3), (R.CORE_nBIND 11, 4),
    (R.CORE_nBIND 12, 7), (R.CORE_nBIND 13, 1), (R.CORE_nBIND 14, 8), (R.CORE_nBIND 15, 7)]
/-- A core that executes at 0x100, with a few values in its registers, some of them addresses. -/
def coreA : CoreS :=
  { CoreS.off with
    on := true, pc := 0x100, acc := [(0, 0x80), (1, 3)],
    w := [(1, 5), (2, 0xFFFFFFFF), (3, 0x80000000), (4, 0x7FFFFFFF), (5, 0x104), (6, 0x105), (7, 0x10000), (8, 0xF0), (9, 0x40),
      (10, 0x08000100), (11, 1), (12, 65536), (13, 65537), (14, 31), (63, 0x08000200)] }

/-- A module that runs at the given tick with core 0 executing, the fields given written over their cold values. -/
def runAt (tick : DWord) (fs : List (FieldRef × Nat)) : State :=
  { State.reset with
    phase := .running, tick := tick, cores := [(0, coreA)], regs := fs.foldl (fun m x => planeWr m x.1 x.2) bound }

/-- The same at the last word of a loop's body, within such a body, at the end of instruction memory and at its last word. -/
def coreEnd : CoreS := { coreA with lstack := [⟨0xF0, 0x100, 3, 0⟩] }
def coreIn : CoreS := { coreA with pc := 0xF8, lstack := [⟨0xF0, 0x100, 3, 0⟩] }
def coreTop : CoreS := { coreA with pc := 0xFFF8 }
def coreLast : CoreS := { coreA with pc := 0xFFFC }

/-- Core 0 and the checked core 13 execute. -/
def onCores (c : CoreS) : State := { runAt 1000 [] with cores := [(0, c), (13, c)] }
def stA : State := onCores coreA

/-- An instruction in cycle 2,000 of core 0, and one of core 13. -/
def isA : Issue := ⟨0, 2000, 0, false⟩
def isC : Issue := ⟨13, 2000, 0, false⟩
/-- The same for a command that names its sender's core. -/
def poA : Port := ⟨0, 2000⟩

/-! ## Well-formed commands, and an ill-formed one for each check -/

theorem test_wellFormed : (Instr.add isA 1 2 3).wellFormed = true ∧ (Instr.registerWrite poA 0x40000000 .word 0).wellFormed = true
    ∧ (Instr.powerGoodKickOff ⟨2400, 2400, 0, false, false, true, 0, [], false⟩).wellFormed = true := by decide
theorem test_illFormed_cycle : (Instr.add ⟨0, 60000, 0, false⟩ 1 2 3).wellFormed = false := by decide
theorem test_illFormed_wait : (Instr.lw ⟨0, 0, 829, false⟩ 1 2 3).wellFormed = false := by decide
theorem test_illFormed_port : (Instr.tickCountRead ⟨0, 60000⟩).wellFormed = false := by decide
theorem test_illFormed_misaligned : (Instr.registerWrite poA 0x40000002 .word 0).wellFormed = false := by decide
theorem test_illFormed_supply : (Instr.powerGoodKickOff ⟨4001, 0, 0, false, false, true, 0, [], false⟩).wellFormed = false
    ∧ (Instr.tickEdge ⟨0, 0, 0, 2400, 4001, 0, [], [], none⟩).wellFormed = false := by decide
theorem test_illFormed_oscillator : (Instr.tickEdge ⟨0, 0, 0, 2400, 2400, 5, [], [], none⟩).wellFormed = false := by decide
theorem test_illFormed_samples : (Instr.meteringUpdate (List.replicate 31 0)).wellFormed = false := by decide
theorem test_illFormed_level : (Instr.meteringUpdate (1 <<< 60000 :: List.replicate 31 0)).wellFormed = false := by decide
theorem test_illFormed_body : (Instr.rioftBlockSend (.snapshot (List.replicate 9 0) 0 false)).wellFormed = false
    ∧ (Instr.rioftBlockSend (.snapshot [] 60000 true)).wellFormed = false := by decide
theorem test_illFormed_steps : (Instr.chopperFault 0 [] 60000).wellFormed = false ∧ stepsOk (List.replicate 10001 ⟨0, 0, false⟩) = false := by
  refine ⟨by decide, ?_⟩
  simp only [stepsOk, List.length_replicate]; decide
theorem test_illFormed_frame : (Instr.ethernetFrameReceive 0 60000 true false []).wellFormed = false
    ∧ bytesOk (List.replicate 65537 0) = false := ⟨by decide, by rw [bytesOk, List.length_replicate]; decide⟩
theorem test_illFormed_window : (Instr.rcFieldRead poA 0x40160000 .word).wellFormed = false := by decide

/-! ## Instruction words, field by field as 03_dwenan_instructions lays them out (R82, R88) -/

theorem test_decode_subs : decodeDwenan isA (0x01#6 ++ 1#6 ++ 2#6 ++ 3#6 ++ 2#8) = some (.subs isA 1 2 3) := by decide
theorem test_decode_sra : decodeDwenan isA (0x07#6 ++ 1#6 ++ 2#6 ++ 0#6 ++ 0x84#8) = some (.sra isA 1 2 0 0x84) := by decide
theorem test_decode_mulw : decodeDwenan isA (0x09#6 ++ 4#6 ++ 2#6 ++ 3#6 ++ 3#8) = some (.mulw isA 4 2 3) := by decide
theorem test_decode_subds : decodeDwenan isA (0x0E#6 ++ 4#6 ++ 6#6 ++ 8#6 ++ 3#8) = some (.subds isA 4 6 8) := by decide
theorem test_decode_popd : decodeDwenan isA (0x0F#6 ++ 4#6 ++ 0#6 ++ 0#6 ++ 3#8) = some (.popd isA 4 0 0) := by decide
theorem test_decode_cmpi : decodeDwenan isA (0x15#6 ++ 0#6 ++ 2#6 ++ 0x3FFF#14) = some (.cmpi isA 0 2 0x3FFF) := by decide
theorem test_decode_li : decodeDwenan isA (0x17#6 ++ 9#6 ++ 0x80000#20) = some (.li isA 9 0x80000) := by decide
theorem test_decode_sdd : decodeDwenan isA (0x27#6 ++ 4#6 ++ 10#6 ++ 8#14) = some (.sdd isA 4 10 8) := by decide
theorem test_decode_mulq : decodeDwenan isA (0x28#6 ++ 1#6 ++ 2#6 ++ 3#6 ++ 31#8) = some (.mulq isA 1 2 3 31) := by decide
theorem test_decode_suba : decodeDwenan isA (0x2A#6 ++ 1#6 ++ 0#6 ++ 2#6 ++ 3#8) = some (.suba isA 1 0 2) := by decide
theorem test_decode_b : decodeDwenan isA (0x2C#6 ++ 15#4 ++ 7#6 ++ 0xFFFE#16) = some (.b isA 15 7 0xFFFE) := by decide
theorem test_decode_call : decodeDwenan isA (0x2D#6 ++ 0#6 ++ 0x3FFF#20) = some (.call isA 0 0x3FFF) := by decide
theorem test_decode_ret : decodeDwenan isA (0x2E#6 ++ 0#6 ++ 0#6 ++ 0#6 ++ 2#8) = some (.ret isA 0 0 0) := by decide
theorem test_decode_wtk : decodeDwenan isA (0x30#6 ++ 1#6 ++ 0#6 ++ 0x1001#14) = some (.wtk isA 1 0 0x1001) := by decide
theorem test_decode_pub : decodeDwenan isA (0x32#6 ++ 1#6 ++ 10#6 ++ 0#14) = some (.pub isA 1 10 0) := by decide
theorem test_decode_evget : decodeDwenan isA (0x37#6 ++ 1#6 ++ 0#6 ++ 0x155#14) = some (.evget isA 1 0 0x155) := by decide
theorem test_decode_trust : decodeDwenan isA (0x3A#6 ++ 1#6 ++ 10#6 ++ 3#14) = some (.trust isA 1 10 3) := by decide
theorem test_decode_rdid : decodeDwenan isA (0x3D#6 ++ 1#6 ++ 0#6 ++ 3#14) = some (.rdid isA 1 0) := by decide
/-- Reserved opcodes and functions spell no instruction. -/
theorem test_decode_reserved : decodeDwenan isA (0x18#6 ++ 0#26) = none ∧ decodeDwenan isA (0x3B#6 ++ 0#26) = none
    ∧ decodeDwenan isA (0x00#6 ++ 0#18 ++ 3#8) = none ∧ decodeDwenan isA (0x3D#6 ++ 0#12 ++ 4#14) = none := by decide

/-! ## Results, by hand from the rules -/

/-- What core 0 is after a command. -/
def coreOf (c : Instr) (s : State) : CoreS :=
  match exec c s with
  | .next t => t.core 0
  | _ => CoreS.off

theorem test_add_wraps : let c := coreOf (.add isA 20 2 11) stA
    (c.reg 20, c.z, c.n, c.c, c.v) = (0, true, false, true, false) := by decide
theorem test_adds_saturates : let c := coreOf (.adds isA 20 4 11) stA
    (c.reg 20, c.n, c.c, c.v, c.s) = (0x7FFFFFFF, false, false, true, true) := by decide
theorem test_subs_saturates : let c := coreOf (.subs isA 20 3 11) stA
    (c.reg 20, c.n, c.c, c.v, c.s) = (0x80000000, true, true, true, true) := by decide
theorem test_sub_borrow : let c := coreOf (.sub isA 11 11 1) stA
    (c.reg 11, c.n, c.c, c.v) = (0xFFFFFFFC, true, false, false) := by decide
theorem test_abs_least : let c := coreOf (.abs isA 20 3 0) stA
    (c.reg 20, c.c, c.v, c.s) = (0x7FFFFFFF, false, true, true) := by decide
theorem test_clz_zero : (coreOf (.clz isA 20 0 0) stA).reg 20 = 32 := by decide
theorem test_sra_31 : let c := coreOf (.sra isA 20 3 0 0x9F) stA
    (c.reg 20, c.c) = (0xFFFFFFFF, false) := by decide
theorem test_ror_1 : let c := coreOf (.ror isA 20 11 0 0x81) stA
    (c.reg 20, c.c) = (0x80000000, true) := by decide
theorem test_mul_overflow : let c := coreOf (.mul isA 20 4 1) stA
    (c.reg 20, c.c, c.v, c.cost) = (0x7FFFFFFB, false, true, 2) := by decide
theorem test_mulw_pair : let c := coreOf (.mulw isA 20 2 1) stA
    (c.reg 20, c.reg 21, c.n) = (0xFFFFFFFB, 0xFFFFFFFF, true) := by decide
theorem test_mulq_limit : let c := coreOf (.mulq isA 20 3 3 31) stA
    (c.reg 20, c.v, c.s) = (0x7FFFFFFF, true, true) := by decide
theorem test_mac_subtracts : (coreOf (.mac isA 5 1 11 0) stA).accI 1 = -2 := by decide
theorem test_ext_rounds_half_up : (coreOf (.ext isA 20 0 0 8) stA).reg 20 = 1 := by decide
theorem test_lui : (coreOf (.lui isA 20 0x12345) stA).reg 20 = 0x12345000 := by decide
theorem test_addi_negative : (coreOf (.addi isA 20 1 0x3FFF) stA).reg 20 = 4 := by decide
theorem test_rdid_checked : (match exec (.rdid isC 20 0) stA with | .next t => (t.core 13).reg 20 | _ => 0) = 0x11DD := by decide
theorem test_branch_backward_traps : (coreOf (.b isA 0 0 0) stA).trapMode = true := by decide
theorem test_call_returns : (coreOf (.call isA 0 0x20) stA).pc = 0x80 ∧ (coreOf (.call isA 0 0x20) stA).rstack = [0x104] := by decide
theorem test_loop_iterates : let c := coreOf (.nop isA 0 0) (onCores coreEnd)
    (c.pc, c.lstack) = (0xF0, [⟨0xF0, 0x100, 2, 0⟩]) := by decide
theorem test_push_w63 : let c := coreOf (.push isA 0 63 0) stA
    (c.reg 63, memRead c.dmem 0x1FC 4) = (0x080001FC, 0x08000200) := by decide
theorem test_misaligned_load_traps : (match exec (.lw isA 20 10 2) stA with
    | .next t => (t.rd (R.CORE_nTRAP_CAUSE 0), t.rd (R.CORE_nFADDR_ADDR 0))
    | _ => (0, 0)) = (7, 0x08000102) := by decide
theorem test_sb_stores_one_byte : memRead (coreOf (.sb isA 2 10 1) stA).dmem 0x100 4 = 0xFF00 := by decide

/-! ## Witnesses: for every statement with hypotheses, states and operands that meet them

Where a statement has several clauses, each has its own. -/

theorem witness_StepRunsFrontCommand : State.reset.pending = [] := by decide
theorem witness_DecodeOfEncode : issueOf (.add isA 63 0 1) = some isA ∧ encodeDwenan (.add isA 63 0 1) = some 0x03F00100 := by decide
theorem witness_EncodeOfDecode : decodeDwenan isA 0xA4010500 = some (.mac isA 0 4 5 0) := by decide
/-- A sound state whose front command is an instruction of the kinds named, and its step. -/
theorem witness_CoreStepKeepsCoresSound :
    (registerOnly (.nop isA 0 0) || transfers (.nop isA 0 0) || stackOnly (.nop isA 0 0)) = true
    ∧ (∃ t, step { State.reset with pending := [.nop isA 0 0] } = .next t) := by
  exact ⟨by decide, _, rfl⟩
theorem witness_GeneralRegisters : (1 : Nat) ≠ 0 ∧ (2 : Nat) % 2 = 0 ∧ (63 : Nat) ≠ 1 := by decide

/-- A core that is ready and has a next instruction: the hypotheses of SumsAndDifferences, LogicAndConstants, ShiftsAndRotates,
ProductsAndChoices, PairSumsAndDifferences, SystemInstructions, FixedPointProduct, AccumulatorInstructions and
AccumulatorExtraction, for an unchecked and a checked core. -/
theorem witness_SumsAndDifferences : stA.ready isA = true ∧ (stA.doing isA).runsOut = false ∧ stA.ready isC = true
    ∧ (stA.doing isC).runsOut = false := by decide
/-- The leading zeros of 0, of 1 and of the greatest word. -/
theorem witness_LogicAndConstants : stA.ready isA = true ∧ (stA.doing isA).runsOut = false
    ∧ ((stA.doing isA).reg 0).toNat < 2 ^ (32 - 32)
    ∧ (((stA.doing isA).reg 11).toNat < 2 ^ (32 - 31) ∧ 2 ^ (31 - 31) ≤ ((stA.doing isA).reg 11).toNat)
    ∧ (((stA.doing isA).reg 2).toNat < 2 ^ (32 - 0) ∧ 2 ^ (31 - 0) ≤ ((stA.doing isA).reg 2).toNat) := by decide
/-- Amounts of 31 and of 0, by a register and by both immediate forms. -/
theorem witness_ShiftsAndRotates : stA.ready isA = true ∧ (stA.doing isA).runsOut = false
    ∧ ((stA.doing isA).reg 14).toNat % 32 = 31 ∧ ((stA.doing isA).reg 12).toNat % 32 = 0
    ∧ (0x9F : BitVec 8) = 0x80 + BitVec.ofNat 8 31 ∧ (0 : BitVec 14).toNat = 0 ∧ (63 : BitVec 14).toNat = 32 + 31
    ∧ (95 : BitVec 14).toNat = 64 + 31 ∧ (127 : BitVec 14).toNat = 96 + 31 := by decide
theorem witness_ProductsAndChoices : stA.ready isA = true ∧ (stA.doing isA).runsOut = false ∧ (62 : BitVec 6).toNat % 2 = 0
    ∧ (14 : BitVec 8).toNat < 15 := by decide
theorem witness_PairSumsAndDifferences : stA.ready isA = true ∧ (stA.doing isA).runsOut = false ∧ (62 : BitVec 6).toNat % 2 = 0
    ∧ (0 : BitVec 6).toNat % 2 = 0 := by decide
theorem witness_SystemInstructions : stA.ready isC = true ∧ (stA.doing isC).runsOut = false := by decide
theorem witness_FixedPointProduct : stA.ready isA = true ∧ (stA.doing isA).runsOut = false ∧ (63 : BitVec 8).toNat < 64 := by decide
theorem witness_AccumulatorInstructions : stA.ready isA = true ∧ (stA.doing isA).runsOut = false ∧ (2 : BitVec 8).toNat < 3
    ∧ (3 : BitVec 6).toNat = 3 ∧ (7 : BitVec 6).toNat = 4 + 3 ∧ (11 : BitVec 6).toNat = 8 + 3 ∧ (3 : BitVec 6).toNat < 4
    ∧ (62 : BitVec 6).toNat % 2 = 0 := by decide
theorem witness_AccumulatorExtraction : stA.ready isA = true ∧ (stA.doing isA).runsOut = false ∧ (3 : BitVec 6).toNat < 4
    ∧ 63 < 64 ∧ (62 : BitVec 6).toNat % 2 = 0 := by decide

/-- Not taken; not taken at the end of a loop's body; taken forward; taken there at the end of a body; taken beyond 0xFFFC; taken to
the first word of the innermost loop; taken backward with no such loop. -/
theorem witness_BranchOutcomes :
    (stA.ready isA = true ∧ coreA.cond 1 0 = false ∧ coreA.atLoopEnd = false ∧ coreA.pc + 4 ≤ 0xFFFC)
    ∧ ((onCores coreEnd).ready isA = true ∧ coreEnd.cond 1 0 = false ∧ coreEnd.atLoopEnd = true ∧ coreEnd.runsOut = false)
    ∧ (coreA.cond 15 7 = true ∧ (coreA.pc : Int) < coreA.pc + 4 * (1 : BitVec 16).toInt)
    ∧ (coreEnd.cond 0 0 = true ∧ (coreEnd.pc : Int) < coreEnd.pc + 4 * (1 : BitVec 16).toInt)
    ∧ ((onCores coreTop).ready isA = true ∧ coreTop.atLoopEnd = false ∧ (0xFFFC : Int) < coreTop.pc + 4 * (2 : BitVec 16).toInt)
    ∧ ((onCores coreIn).ready isA = true ∧ coreIn.atLoopEnd = false ∧ coreIn.lstack.head? = some ⟨0xF0, 0x100, 3, 0⟩
      ∧ ((0xF0 : Nat) : Int) = coreIn.pc + 4 * (0xFFFE : BitVec 16).toInt ∧ coreIn.rstack.length = 0)
    ∧ (coreA.pc + 4 * (0 : BitVec 16).toInt ≤ coreA.pc ∧ coreA.lstack.head? = none)
    ∧ (onCores coreA).doing isA = coreA ∧ (onCores coreEnd).doing isA = coreEnd ∧ (onCores coreTop).doing isA = coreTop
    ∧ (onCores coreIn).doing isA = coreIn := by decide
/-- Forward to a word; to a misaligned value; beyond 0xFFFC; backward; to the first word of the innermost loop. -/
theorem witness_JumpOutcomes :
    (coreA.atLoopEnd = false ∧ coreA.pc < (coreA.reg 5).toNat ∧ (coreA.reg 5).toNat % 4 = 0)
    ∧ (coreA.pc < (coreA.reg 6).toNat ∧ (coreA.reg 6).toNat % 4 ≠ 0)
    ∧ ((coreA.reg 7).toNat % 4 = 0 ∧ 0xFFFC < (coreA.reg 7).toNat)
    ∧ ((coreA.reg 9).toNat ≤ coreA.pc ∧ coreA.lstack.head? = none)
    ∧ (coreIn.atLoopEnd = false ∧ (coreIn.reg 8).toNat = 0xF0 ∧ coreIn.lstack.head? = some ⟨0xF0, 0x100, 3, 0⟩) := by decide
/-- A core whose return stack is full, and one that returns beyond 0xFFFC. -/
def coreFull : CoreS := { coreA with rstack := List.replicate 16 0x40 }
def coreOver : CoreS := { coreA with rstack := [0x10000] }
theorem witness_CallsAndReturns :
    (stA.ready isA = true ∧ (stA.doing isA).atLoopEnd = false ∧ (stA.doing isA).rstack.length < 16
      ∧ (0x3FFF : BitVec 20).toNat < 16384)
    ∧ ((onCores coreFull).ready isA = true ∧ ((onCores coreFull).doing isA).rstack.length = 16)
    ∧ (((stA.doing isA).reg 5).toNat % 4 = 0 ∧ ((stA.doing isA).reg 5).toNat ≤ 0xFFFC)
    ∧ ((stA.doing isA).reg 6).toNat % 4 ≠ 0
    ∧ (((stA.doing isA).reg 7).toNat % 4 = 0 ∧ 0xFFFC < ((stA.doing isA).reg 7).toNat)
    ∧ ((onCores coreFull).doing isA).rstack.head? = some 0x40 ∧ ((onCores coreOver).doing isA).rstack.head? = some 0x10000
    ∧ (stA.doing isA).rstack = [] := by decide
/-- Counts of 1 and of 65,536 in a register, and none where there is room; 0 and 65,537; and no room at the end of a body. -/
theorem witness_LoopOpens :
    (stA.ready isA = true ∧ coreA.atLoopEnd = false ∧ coreA.lstack.length < 4 ∧ coreA.pc + 4 * ((1023 : BitVec 10).toNat + 1) ≤ 0xFFFC
      ∧ coreA.lstack.find? (fun e => decide (e.depth = coreA.rstack.length)) = none)
    ∧ (coreA.reg 11).toNat = 1 ∧ (coreA.reg 12).toNat = 65536 ∧ (coreA.reg 13).toNat = 65537 ∧ (coreA.reg 0).toNat = 0
    ∧ ((onCores coreEnd).ready isA = true ∧ ((onCores coreEnd).doing isA).runsOut = false ∧ coreEnd.atLoopEnd = true)
    ∧ ((onCores coreLast).ready isA = true ∧ ((onCores coreLast).doing isA).runsOut = true) := by decide
theorem witness_LoopIteration :
    (∀ x ∈ coreA.lstack, ¬(x.last = coreA.pc ∧ x.depth = coreA.rstack.length))
    ∧ (let c := { coreEnd with rstack := [0x40] }; ∀ x ∈ c.lstack, ¬(x.last = c.pc ∧ x.depth = c.rstack.length))
    ∧ (coreEnd.lstack = ⟨0xF0, 0x100, 3, 0⟩ :: [] ∧ coreEnd.pc = 0x100 ∧ coreEnd.rstack.length = 0)
    ∧ (⟨0xF0, 0x100, 1, 0⟩ : LoopEnt).count ≤ 1 := by decide
theorem witness_TrapEntry : stA.phase ≠ .setup ∧ (stA.core 0).trapMode = false ∧ (15 : Nat) < 16 := by decide
theorem witness_DoubleTrapStops : (onCores { coreA with trapMode := true }).phase ≠ .setup
    ∧ ((onCores { coreA with trapMode := true }).core 13).trapMode = true := by decide
/-- A core that waits; a word with an uncorrectable error; a reserved word; an ill-formed instruction; the last word of instruction
memory. -/
def coreReserved : CoreS := { coreA with imem := memWrite [] 0x100 4 0xEC000000 }
def coreWaits : CoreS := { coreA with wait := .event 1 none [] }
def coreBad : CoreS := { coreA with imemErr := [(0x40, .double)] }
theorem witness_BeforeTheEffect :
    issueOf (.add isA 1 2 3) = some isA ∧ (((onCores coreWaits).atCycle 2000).core 0).executes = false
    ∧ ((((onCores coreBad).atCycle 2000).core 0).executes = true ∧ ((onCores coreBad).atCycle 2000).paused 0 = false
      ∧ (((onCores coreBad).atCycle 2000).core 0).fetchMark = .double)
    ∧ ((((onCores coreReserved).atCycle 2000).core 0).executes = true ∧ ((onCores coreReserved).atCycle 2000).paused 0 = false
      ∧ (((onCores coreReserved).atCycle 2000).core 0).fetchMark = .clean
      ∧ (((onCores coreReserved).atCycle 2000).core 0).reservedWord isA = true)
    ∧ (stA.ready isA = true ∧ legalFields (.mulw isA 1 2 3) = false)
    ∧ ((onCores coreLast).ready isA = true ∧ legalFields (.add isA 1 2 3) = true ∧ registerOnly (.add isA 1 2 3) = true
      ∧ ((onCores coreLast).doing isA).runsOut = true) := by decide
theorem witness_RegisterInstructionFrame : registerOnly (.sel isA 1 2 3 4) = true ∧ issueOf (.sel isA 1 2 3 4) = some isA
    ∧ (∃ t, exec (.sel isA 1 2 3 4) stA = .next t) ∧ writesReg (.sel isA 1 2 3 4) 2 = false
    ∧ writesAcc (.sel isA 1 2 3 4) 0 = false ∧ keepsFlags (.sel isA 1 2 3 4) = true := by
  exact ⟨by decide, by decide, ⟨_, rfl⟩, by decide, by decide, by decide⟩

/-! ### The stack, loads and stores -/

theorem witness_StackInstructions :
    (((coreA.reg 63) - 4).toNat % 4 = 0 ∧ 0x08000000 ≤ ((coreA.reg 63) - 4).toNat ∧ ((coreA.reg 63) - 4).toNat + 4 ≤ 0x08010000)
    ∧ (((coreA.reg 63) - 8).toNat % 8 = 0 ∧ 0x08000000 ≤ ((coreA.reg 63) - 8).toNat)
    ∧ ((({ coreA with w := [(63, 0x08000000)] } : CoreS).reg 63 - 4).toNat < 0x08000000)
    ∧ ((coreA.reg 63).toNat % 8 = 0 ∧ 0x08000000 ≤ (coreA.reg 63).toNat ∧ (coreA.reg 63).toNat + 8 ≤ 0x08010000)
    ∧ (∀ w, NMap.get .clean coreA.dmemErr w = .clean) := by
  exact ⟨by decide, by decide, by decide, by decide, fun _ => rfl⟩
theorem witness_LocalLoads : stA.ready isA = true ∧ (stA.doing isA).runsOut = false
    ∧ (((stA.doing isA).reg 10 + (8 : BitVec 14).signExtend 32).toNat % 8 = 0
      ∧ 0x08000000 ≤ ((stA.doing isA).reg 10 + (8 : BitVec 14).signExtend 32).toNat
      ∧ ((stA.doing isA).reg 10 + (8 : BitVec 14).signExtend 32).toNat + 8 ≤ 0x08010000)
    ∧ (stA.doing isA).dmemErr = [] := by decide
theorem witness_LocalStores : stA.ready isC = true ∧ (stA.doing isC).runsOut = false
    ∧ ((stA.doing isC).reg 10 + (0x3FF8 : BitVec 14).signExtend 32).toNat % 8 = 0
    ∧ NMap.get .clean (stA.doing isC).dmemErr 0x3E = .clean := by decide
/-- Addresses of the commons, the scoreboard and MRAM. -/
def coreFar : CoreS :=
  { coreA with w := [(1, 0x7FFFF8), (2, 0x0C000008), (3, 0x20600008), (4, 0x0C1FFFF8), (5, 0x20FFFFFC), (6, 0x40120000), (7, 0x08010000),
                     (9, 0x123), (10, 0x08000100), (11, 0x10000000), (63, 0x08000200)] }
def stFar : State := { onCores coreFar with mem := memWrite (memWrite [] 0x7FFFF8 8 0x1122334455667788) 0x20600008 4 0x99AABBCC }
/-- Job 127 runs. -/
def stRuns : State := { stA with tier := { TierS.init with jobs := [(127, { JobS.init with run := true })] } }
theorem witness_DistantLoads : stFar.ready isA = true ∧ (stFar.doing isA).runsOut = false
    ∧ ((stFar.doing isA).reg 1).toNat = 0x7FFFF8 ∧ (stFar.during isA).wordMark (0x7FFFF8 / 8) = .clean
    ∧ ((stFar.doing isA).reg 4).toNat = 0x0C1FFFF8 ∧ ((stFar.doing isA).reg 5).toNat = 0x20FFFFFC := by decide
theorem witness_DistantStores : stFar.sends isA = true ∧ stFar.sends isC = true ∧ stFar.ready isC = true
    ∧ (stFar.doing isC).runsOut = false ∧ (stFar.during isC).wordMark (0x7FFFF8 / 8) = .clean := by decide
theorem witness_AccessTraps :
    ((stFar.doing isA).reg 9).toNat % 4 ≠ 0 ∧ ((stFar.doing isA).reg 9).toNat % 2 ≠ 0 ∧ ((stFar.doing isA).reg 7).toNat = 0x08010000
    ∧ ((stFar.doing isA).reg 2).toNat = 0x0C000008 ∧ ((stFar.doing isA).reg 11).toNat = 0x10000000 := by decide
/-- A store; a program's write of a live word, of a job's word while it stands and while it runs; and one from a core that is off. -/
theorem witness_RegisterStores : (stFar.sends isA = true ∧ (stFar.during isA).evIn = [] ∧ ((stFar.doing isA).reg 6).toNat = 0x40120000
      ∧ namesRegisters 0x40120000 4 = true)
    ∧ (stA.evIn = [] ∧ stA.serves poA = true ∧ (stA.job 127).run = false) ∧ (stRuns.serves poA = true ∧ (stRuns.job 127).run = true)
    ∧ (stA.serves ⟨1, 2000⟩ = false ∧ (0x40120000 : BitVec 32).toNat % Size.word.bytes = 0) := by decide

/-! ### Block instructions -/

/-- Core 0 has job 5, the checked core 13 none; word 7 of the scoreboard was published by source 3 in tick 990, late. -/
def coreJob : CoreS := { coreA with job := some 5, w := [(1, 0x40000), (2, 7), (3, 8191), (10, 0x08000100), (63, 0x08000200)] }
def stJob : State :=
  { runAt 1000 [] with
    cores := [(0, coreJob), (13, { coreJob with job := none })],
    tier := { TierS.init with
      jobs := [(5, { JobS.init with isSealed := true, run := true, active := true, taken := true, k := 9, deadline := 1010 })],
      sb := [(7, ⟨0x1122334455667788, 990, 3, true⟩), (262143, ⟨5, 999, 0, false⟩)] },
    can := { CanS.init with obj := [(8191, ⟨17, true, true⟩)] } }
/-- Object 8,191 was changed by its channel in the cycle of the issue. -/
def stObjOld : State :=
  { stJob with can := { stJob.can with old := [⟨60002000, 8191, [], ⟨16, true, false⟩, ⟨17, true, false⟩, none⟩] } }
theorem witness_SlackTakeObjseq : stJob.ready isA = true ∧ (stJob.doing isA).runsOut = false ∧ stJob.ready isC = true
    ∧ (stJob.during isA).phase ≠ .setup ∧ (stJob.doing isA).job = some 5 ∧ (stJob.doing isC).job = none
    ∧ ((60 : BitVec 6).toNat % 4 = 0 ∧ ((stJob.doing isA).reg 2).toNat + (0 : BitVec 14).toNat = 7
      ∧ ((stJob.during isA).sbAt 7).src < 32 ∧ (stJob.during isA).isStale 7 = false)
    ∧ (((stJob.during isA).sbAt 8).src = 32 ∧ (stJob.during isA).isStale 8 = false)
    ∧ 262144 ≤ ((stJob.doing isA).reg 1).toNat + (0 : BitVec 14).toNat ∧ ((stJob.doing isA).reg 3).toNat < 8192
    ∧ (stJob.during isA).objOld 8191 = none
    ∧ (stObjOld.ready isA = true ∧ (stObjOld.doing isA).runsOut = false ∧ ((stObjOld.doing isA).reg 3).toNat = 8191
      ∧ (stObjOld.during isA).objOld 8191 = some ⟨60002000, 8191, [], ⟨16, true, false⟩, ⟨17, true, false⟩, none⟩) := by decide

/-- A post of n words at word idx of the scoreboard stands at 0x100 of local data. -/
def stPost (idx n used : Nat) : State :=
  { runAt 1000 [(R.TIER_SRCs_STAT_USED 0, used)] with
    cores := [(0, { coreA with dmem := memWrite (memWrite [] 0x100 8 (idx + 2 ^ 20 * n)) 0x108 8 0x77 })] }
def postAt (cyc : Nat) : Issue := ⟨0, cyc, 0, false⟩
/-- A core that holds a post of one word for the next tick. -/
def stHeld : State := { runAt 1001 [] with cores := [(0, { coreA with wait := .post 20 ⟨100, [7], false⟩ 0 false })] }
theorem witness_Posts :
    ((stPost 100 2 4072).ready (postAt 59996) = true ∧ ((stPost 100 2 4072).doing (postAt 59996)).runsOut = false
      ∧ ((stPost 100 2 4072).during (postAt 59996)).phase = .running
      ∧ ((((stPost 100 2 4072).doing (postAt 59996)).reg 10).toNat = 0x08000100)
      ∧ memRead ((stPost 100 2 4072).doing (postAt 59996)).dmem 0x100 8 = 100 + 2 * 2 ^ 20
      ∧ ((stPost 100 2 4072).during (postAt 59996)).rd (R.TIER_SRCs_STAT_USED 0) + 8 * (2 + 1) = 4096)
    ∧ ((stPost 262143 2 0).ready (postAt 59996) = true ∧ 262144 < 262143 + 2)
    ∧ ((stPost 100 2 4073).ready (postAt 59996) = true
      ∧ 4096 < ((stPost 100 2 4073).during (postAt 59996)).rd (R.TIER_SRCs_STAT_USED 0) + 8 * (2 + 1))
    ∧ ((stPost 100 2 0).ready (postAt 59997) = true ∧ 59998 < (postAt 59997).cyc + 2)
    ∧ ((stHeld.core 0).wait = .post 20 ⟨100, [7], false⟩ 0 false ∧ stHeld.evIn = [] ∧ 100 + 1 ≤ 262144
      ∧ stHeld.rd (R.TIER_SRCs_STAT_USED (stHeld.dutyOf 0)) + 8 * (1 + 1) ≤ 4096 ∧ stHeld.dutyOf 0 < 16) := by decide

/-- Events 20 and 255 pend for duty 0, which masks neither out. -/
def stEvent : State :=
  { runAt 1000 [(pendBit 0 20, 1), (maskBit 0 20, 1), (pendBit 0 255, 1), (maskBit 0 255, 1), (ovfBit 0 255, 1)] with
    cores := [(0, { coreA with w := [(1, 0x2001), (2, 100), (63, 0x08000200)] }), (13, { coreA with w := [(1, 0x2001), (2, 100)] })] }
/-- Core 0 waits for event 20, without end and up to a cycle; nothing, or event 20, pends. -/
def stWait (l : Option Nat) (pend : Nat) : State :=
  { runAt 1000 [(pendBit 0 20, pend)] with cores := [(0, { coreA with wait := .event 20 l [0x100000, 0, 0, 0, 0, 0, 0, 0] })] }
theorem witness_EventInstructions :
    (stEvent.ready isA = true ∧ (stEvent.doing isA).runsOut = false ∧ (15 : BitVec 14).toNat < 16 ∧ stEvent.sends isA = true
      ∧ ((stEvent.doing isA).reg 1).getLsbD 13 = true ∧ (stEvent.during isA).isTarget 13 = true)
    ∧ ((511 : BitVec 14).toNat % 256 = 255 ∧ (stEvent.during isA).dutyOf 0 < 16
      ∧ NMap.get 0 (stEvent.during isA).evAt (256 * 0 + 255) / 2 ≠ (stEvent.during isA).now)
    ∧ (∀ w, w < 8 → (stEvent.during isC).word (R.EVNT_nPENDw 13 w) &&& (stEvent.during isC).word (R.EVNT_nMASKw 13 w) = 0)
    ∧ (((stEvent.during isA).word (R.EVNT_nPENDw 0 0) &&& (stEvent.during isA).word (R.EVNT_nMASKw 0 0)).getLsbD 20 = true
      ∧ ∀ h, h < 20 → ((stEvent.during isA).word (R.EVNT_nPENDw 0 (h / 32)) &&&
        (stEvent.during isA).word (R.EVNT_nMASKw 0 (h / 32))).getLsbD (h % 32) = false)
    ∧ ((stWait none 1).evIn = [] ∧ ((stWait none 1).core 0).wait = .event 20 none [0x100000, 0, 0, 0, 0, 0, 0, 0]
      ∧ ((stWait none 1).word (R.EVNT_nPENDw 0 0) &&& 0x100000).getLsbD 20 = true)
    ∧ (((stWait (some 60002001) 0).core 0).wait = .event 20 (some 60002001) [0x100000, 0, 0, 0, 0, 0, 0, 0]
      ∧ (stWait (some 60002001) 0).word (R.EVNT_nPENDw 0 0) = 0 ∧ 60002001 < (stWait (some 60002001) 0).tick.toNat * 60000 + 2002) := by
  decide

/-- Core 0 runs job 5 or none; job 6 of core 0 and job 7 of core 1 are released and not taken. -/
def stJobs (j : Option Nat) (w : Wait) : State :=
  { runAt 1000 [(R.TIER_JOBn_CFG_CORE 7, 1)] with
    cores := [(0, { coreA with job := j, wait := w, trapMode := true, rstack := [0x40], lstack := [⟨0x200, 0x240, 2, 1⟩] })],
    tier := { TierS.init with
      jobs := [(5, { JobS.init with isSealed := true, run := true, active := true, taken := true, k := 9, deadline := 1001 }),
        (6, { JobS.init with isSealed := true, run := true, active := true, k := 70000, deadline := 1010 }),
        (7, { JobS.init with isSealed := true, run := true, active := true, k := 3, deadline := 1010 })] } }
theorem witness_WaitTickInstruction :
    ((stJobs none .none).ready isA = true ∧ ((stJobs none .none).doing isA).runsOut = false
      ∧ ((stJobs none .none).doing isA).atLoopEnd = false ∧ ((stJobs none .none).during isA).phase = .running
      ∧ ((stJobs none .none).doing isA).job = none ∧ (6 : BitVec 14).toNat = 6
      ∧ ((stJobs none .none).during isA).rd (R.TIER_JOBn_CFG_CORE 6) = 0
      ∧ (((stJobs none .none).during isA).job 6).active = true ∧ (((stJobs none .none).during isA).job 6).taken = false)
    ∧ ((((stJobs none .none).during isA).job 127).active = false
      ∧ ((stJobs none .none).during isA).rd (R.TIER_JOBn_CFG_CORE 127) = 0)
    ∧ ((stJobs none .none).during isA).rd (R.TIER_JOBn_CFG_CORE 7) ≠ 0
    ∧ (((stJobs (some 5) .none).doing isA).job = some 5 ∧ (4099 : BitVec 14).toNat = 4096 + 3)
    ∧ ((stJobs none (.job false false 6 20)).evIn = []
      ∧ ((stJobs none (.job false false 6 20)).core 0).wait = .job false false 6 20)
    ∧ (((stJobs none (.tier true 1 20 1000)).core 0).wait = .tier true 1 20 1000
      ∧ (stJobs none (.tier true 1 20 1000)).tick.toNat % 10 = 0) := by decide

/-- Sixteen held commands of each queue, and eight requests at the trust core. -/
def stFullQueues : State :=
  { runAt 1000 [] with
    cores := [(0, { coreA with w := [(1, 0x7FFFC0), (2, 0x800000), (3, 0x20), (4, 0x10003)] })],
    solv := { SolvS.init with held := (List.range 16).flatMap fun k => [⟨true, k, 0, 0, 0, none⟩, ⟨false, k, 0, 0, 0, none⟩] },
    trst := { TrstS.init with queue := List.replicate 8 ⟨1, 0, 0, 0, none⟩ } }
/-- Ticket 3 of the short queue was done with status 2 in cycle 1,999; core 0 waits for it, or for one that is not done. -/
def stTickets (w : Wait) : State :=
  { runAt 1000 [] with
    cores := [(0, { coreA with wait := w, w := [(1, 0x7FFFC0), (2, 0x800000), (3, 0x20), (4, 0x10003)] }), (13, coreFar)],
    solv := { SolvS.init with done := [(0x10003, some (60001999, 2))], seqShort := 65535, seqLong := 4 } }
theorem witness_SubmissionInstructions :
    ((stTickets .none).ready isA = true ∧ ((stTickets .none).doing isA).runsOut = false ∧ (stTickets .none).sends isA = true
      ∧ ((stTickets .none).during isA).solv.held = [] ∧ (((stTickets .none).doing isA).reg 1).toNat = 0x7FFFC0)
    ∧ (stFullQueues.ready isA = true ∧ (stFullQueues.doing isA).runsOut = false ∧ stFullQueues.sends isA = true
      ∧ (((stFullQueues.during isA).solv.held.filter (fun x => x.short == true)).length = 16)
      ∧ (((stFullQueues.during isA).solv.held.filter (fun x => x.short == false)).length = 16)
      ∧ (stFullQueues.during isA).trst.queue.length = 8)
    ∧ (((stTickets .none).doing isA).reg 2).toNat = 0x800000 ∧ (((stTickets .none).doing isA).reg 3).toNat % 64 ≠ 0
    ∧ (NMap.get none ((stTickets .none).during isA).solv.done ((((stTickets .none).doing isA).reg 4).toNat % 2 ^ 17) = some (60001999, 2)
      ∧ 60001999 < ((stTickets .none).during isA).now
      ∧ NMap.get none ((stTickets .none).during isA).solv.done ((((stTickets .none).doing isA).reg 3).toNat % 2 ^ 17) = none
      ∧ (16383 : BitVec 14) ≠ 0)
    ∧ ((stTickets (.solver 20 0x10003 (some 60001999))).evIn = []
      ∧ ((stTickets (.solver 20 0x10003 (some 60001999))).core 0).wait = .solver 20 0x10003 (some 60001999)
      ∧ NMap.get none (stTickets (.solver 20 0x10003 (some 60001999))).solv.done (0x10003 % 2 ^ 17) = some (60001999, 2)
      ∧ 60001999 < (stTickets (.solver 20 0x10003 (some 60001999))).tick.toNat * 60000 + 2000)
    ∧ (((stTickets (.solver 20 7 (some 60002001))).core 0).wait = .solver 20 7 (some 60002001)
      ∧ NMap.get none (stTickets (.solver 20 7 (some 60002001))).solv.done (7 % 2 ^ 17) = none
      ∧ 60002001 < (stTickets (.solver 20 7 (some 60002001))).tick.toNat * 60000 + 2002)
    ∧ ((stTickets .none).during isA).trst.queue.length < 8 := by decide

/-! ### Ticks, deadlines and seals -/

/-- A tick edge that finds nothing wrong. -/
def edgeIn : TickIn := ⟨0, 0, 0, 2400, 2400, 3, [], [], none⟩
/-- One post of source 3 waits for the collector. -/
def stCollect : State := { runAt 1000 [] with tier := { TierS.init with collecting := [(3, [⟨100, [77], false⟩])] } }
/-- A member of a pair that follows, as standby. -/
def stFollow : State := runAt 1000 [(R.PAIR_STAT_STRAP, 1), (R.PAIR_STAT_STATE, 2), (R.TIER_DISC_STAT_FOLLOW, 1)]
theorem witness_TickCommands :
    (stCollect.phase = .running ∧ stCollect.feed.dying = false ∧ stCollect.evIn = [])
    ∧ ({ stA with phase := .ready }.phase = .ready ∧ { stA with phase := .ready }.feed.dying = false ∧ edgeIn.failed = [])
    ∧ (3 < 24 ∧ stCollect.tier.collecting = [(3, [⟨100, [77], false⟩])])
    ∧ ((runAt 0 []).tick = 0 ∧ (runAt 0 []).evIn = [] ∧ (runAt 0 []).inService 14 = true ∧ (runAt 0 []).partOf 14 ≠ 0
      ∧ ((runAt 0 []).core 14).on = false ∧ ((runAt 0 []).core 14).stopped = false)
    ∧ stA.serves poA = true
    ∧ (stFollow.isMember = true ∧ stFollow.rd R.PAIR_STAT_STATE = 2 ∧ stFollow.rd R.TIER_DISC_STAT_FOLLOW = 1
      ∧ 6 ∈ stFollow.dutiesOf 7 ∧ stFollow.isTarget 6 = true) := by decide

/-- Jobs 5 of class W and 127 of class R have missed their deadlines. -/
def stMiss : State :=
  { runAt 1000 [(R.TIER_JOBn_CFG_CLASS 127, 1), (R.TIER_JOBn_CFG_CORE 127, 3), (R.TIER_JOBn_LEN_LEN 127, 9)] with
    tier := { TierS.init with jobs := [(5, { JobS.init with due := true, lastOk := true }), (127, { JobS.init with due := true })] } }
theorem witness_DeadlineMisses :
    ((stMiss.job 5).due = true ∧ stMiss.rd (R.TIER_JOBn_CFG_CLASS 5) = 0 ∧ 0 ∈ stMiss.dutiesOf (stMiss.partOf 0)
      ∧ stMiss.isTarget 0 = true)
    ∧ ((stMiss.job 127).due = true ∧ stMiss.rd (R.TIER_JOBn_CFG_CLASS 127) = 1 ∧ stMiss.isTarget 3 = true) := by decide

/-- Job 127 is described soundly, its region up to the end of the scoreboard; job 0 has a DIV of 0, job 1 runs. -/
def stJobSeal : State :=
  { runAt 1000 [(R.TIER_JOBn_CFG_DIV 127, 1000), (R.TIER_JOBn_CFG_PHASE 127, 999), (R.TIER_JOBn_CFG_CLASS 127, 1),
      (R.TIER_JOBn_CFG_CORE 127, 3), (R.TIER_JOBn_BASE_BASE 127, 262143), (R.TIER_JOBn_LEN_LEN 127, 1), (R.EVNT_STAT_NOSUP, 7)] with
    cores := [(0, coreA)], tier := { TierS.init with jobs := [(1, { JobS.init with run := true })] } }
/-- The module in setup; core 3 is given the partition 9. -/
def stSetup : State := { runAt 0 [(R.CORE_nBIND_PART 3, 9)] with phase := .setup, cores := [(0, coreA)] }
/-- Job 127's overruns were counted, from 5 to 6, in the cycle of the load. -/
def stCounts : State :=
  { stJobSeal with hw := [⟨60002000, R.TIER_JOBn_CNT 127, 15, 0, 5, 1, false⟩] }
theorem witness_TierSealsAndReads :
    (stJobSeal.evIn = [] ∧ stJobSeal.serves poA = true ∧ (stJobSeal.coll.map Prod.fst).Nodup ∧ (stJobSeal.job 127).run = false
      ∧ stJobSeal.rdColl (R.TIER_JOBn_CFG_DIV 127) = 1000 ∧ stJobSeal.rdColl (R.TIER_JOBn_CFG_PHASE 127) < 1000
      ∧ stJobSeal.rdColl (R.TIER_JOBn_CFG_CLASS 127) = 1
      ∧ stJobSeal.inService (stJobSeal.rdColl (R.TIER_JOBn_CFG_CORE 127)) = true
      ∧ stJobSeal.rdColl (R.TIER_JOBn_BASE_BASE 127) + stJobSeal.rdColl (R.TIER_JOBn_LEN_LEN 127) ≤ 262144
      ∧ 1 ≤ stJobSeal.rdColl (R.TIER_JOBn_LEN_LEN 127))
    ∧ (∀ m, m < 128 → (stJobSeal.job m).isSealed = false)
    ∧ ((stJobSeal.job 0).run = false ∧ stJobSeal.rdColl (R.TIER_JOBn_CFG_DIV 0) = 0) ∧ (stJobSeal.job 1).run = true
    ∧ (stSetup.phase = .setup ∧ stSetup.serves poA = true ∧ stSetup.heir 0 = 0 ∧ stSetup.inService 0 = true
      ∧ stSetup.rdColl (R.CORE_nBIND_PART 0) = 1)
    ∧ (stSetup.heir 3 = 3 ∧ 9 ≤ stSetup.rdColl (R.CORE_nBIND_PART 3))
    ∧ stJobSeal.phase = .running ∧ stJobSeal.hw = []
    ∧ (stCounts.hw = [⟨60000 * stCounts.tick.toNat + poA.cyc, R.TIER_JOBn_CNT 127, 15, 0, 5, 1, false⟩] ∧ stCounts.evIn = []) := by
  refine ⟨by decide, fun m _ => ?_, by decide⟩
  by_cases h : m = 1
  · subst h; decide
  · simp [State.job, stJobSeal, NMap.get, NMap.at?, Ne.symm h, JobS.init]

/-! ### The commons and the quarter model -/

/-- Words at an address, and with their check word behind them (R138). -/
def putWords (m : NMap Byte) (a : Nat) : List Nat → NMap Byte
  | [] => m
  | w :: r => putWords (memWrite m a 8 w) (a + 8) r
def putChecked (m : NMap Byte) (a : Nat) (ws : List Nat) : NMap Byte := putWords m a (ws ++ [carryWord ws])

/-- A check-unit command on two words, with their check word or without, to a place behind them. -/
def stCheck (op len : Nat) (sealed : Bool) : State :=
  { runAt 1000 [(R.CMNS_CKkCMD_BUSY 3, 1), (R.CMNS_CFG_SCRUB, 1)] with
    mem := if sealed then putChecked [] 0x1000 [5, 7] else putWords [] 0x1000 [5, 7],
    cmns := { CmnsS.init with
      ck := [(3, some ⟨op, 0x1000, 0x7FFFE8, len, 4⟩)], rowCopy := [(31, [(200, 950), (201, 1000)])],
      scrub := [(31, 32767), (0, 5)], err := [(160, .single), (2 ^ 20 - 1, .double)] } }
theorem witness_CommonsCommands :
    ((stCheck 1 2 false).rd R.CMNS_CFG_SCRUB = 1 ∧ (stCheck 1 2 false).wordMark (32 * 5 + 0) = .single)
    ∧ (32 * 32767 + 31 < 2 ^ 20 ∧ (stCheck 1 2 false).wordMark (32 * 32767 + 31) = .double) ∧ (runAt 0 [(R.CMNS_CFG_SCRUB, 0)]).rd R.CMNS_CFG_SCRUB = 0
    ∧ (NMap.get [] (stCheck 1 2 false).cmns.rowCopy 31 = (200, 950) :: [(201, 1000)] ∧ (stCheck 1 2 false).tick.toNat % 1000 = 0
      ∧ 950 < (stCheck 1 2 false).tick.toNat ∧ (stCheck 1 2 false).rd (R.CMNS_BANKb_BROWS 31) < 32)
    ∧ (stA.evIn = [] ∧ stA.serves poA = true ∧ stA.rd (R.CMNS_CKkCMD_BUSY 3) = 0) ∧ (stCheck 1 2 false).rd (R.CMNS_CKkCMD_BUSY 3) = 1
    ∧ (NMap.get none (stCheck 1 2 false).cmns.ck 3 = some ⟨1, 0x1000, 0x7FFFE8, 2, 4⟩
      ∧ (∀ x, 0x1000 / 8 ≤ x → x < 0x1000 / 8 + 3 → (stCheck 1 2 false).wordMark x = .clean))
    ∧ (NMap.get none (stCheck 2 2 true).cmns.ck 3 = some ⟨2, 0x1000, 0x7FFFE8, 2, 4⟩
      ∧ memRead (stCheck 2 2 true).mem (0x1000 + 8 * 2) 8
        = carryWord ((List.range 2).map fun j => memRead (stCheck 2 2 true).mem (0x1000 + 8 * j) 8))
    ∧ bitsOf (memRead (stCheck 2 2 false).mem (0x1000 + 8 * 2) 8) 63 56 ≠ 0x5C
    ∧ (NMap.get none (stCheck 3 2 true).cmns.ck 3 = some ⟨3, 0x1000, 0x7FFFE8, 2, 4⟩ ∧ 0x7FFFE8 % 8 = 0
      ∧ 0x7FFFE8 + 8 * (2 + 1) = 0x800000)
    ∧ NMap.get none (stCheck 1 0 false).cmns.ck 3 = some ⟨1, 0x1000, 0x7FFFE8, 0, 4⟩ := by
  refine ⟨by decide, by decide, by decide, by decide, by decide, by decide, ⟨by decide, fun x h1 h2 => ?_⟩, by decide +kernel⟩
  have : x = 512 ∨ x = 513 ∨ x = 514 := by omega
  rcases this with rfl | rfl | rfl <;> decide

/-- The header of a generation with one node and so many references, MSEQ 9. -/
def qmHeader (refs : Nat) : List Nat := [0x514D + 2 ^ 16 + 2 ^ 32 * 9, 1, refs, 0, 0, 0, 0, 0]
/-- A generation of one node at BASE 0x10000, while generation g is being sealed by duty 2. -/
def stQm (ok : Bool) (fs : List (FieldRef × Nat)) : State :=
  { runAt 2000 ([(R.FUSA_QMg_BASE_BASE 0, if ok then 0x10000 else 0x10800), (R.FUSA_QMg_BASE_BASE 1, 0x200000)] ++ fs) with
    mem := putChecked (putChecked [] 0x10000 (qmHeader 0)) 0x11000 [1, 0, 0, 0],
    cores := [(0, coreA)], qm := { QmS.init with sealBy := [(0, some 2)], hold := [(1, some 2000)], scan := true } }
theorem witness_QuarterModelCommands :
    ((stQm true []).evIn = [] ∧ (stQm true []).serves poA = true ∧ (stQm true []).coll = []
      ∧ (stQm true []).rd R.FUSA_QM_STAT_AVALID = 0 ∧ (stQm true []).rd (R.FUSA_QMg_SEAL_SEALED 0) = 0
      ∧ (stQm true []).rd (R.FUSA_QMg_SEAL_BUSY 0) = 0 ∧ NMap.get none (stQm true []).qm.hold 0 = none)
    ∧ (NMap.get none (stQm true []).qm.sealBy 0 = some 2
      ∧ ((stQm true []).qmCheck 0 ((stQm true []).rdColl (R.FUSA_QMg_BASE_BASE 0))).1.isNone = true)
    ∧ (NMap.get none (stQm false []).qm.sealBy 0 = some 2 ∧ (stQm false []).rdColl (R.FUSA_QMg_BASE_BASE 0) % 4096 ≠ 0
      ∧ (((stQm false []).qmCheck 0 ((stQm false []).rdColl (R.FUSA_QMg_BASE_BASE 0))).1.map (·.code)) = some 1)
    ∧ (let s := stQm true [(R.FUSA_QMg_BASE_BASE 1, 0xBB000)]
      s.rdColl (R.FUSA_QMg_BASE_BASE 0) < s.rd (R.FUSA_QMg_BASE_BASE 1) + 0xAC000
        ∧ s.rd (R.FUSA_QMg_BASE_BASE 1) < s.rdColl (R.FUSA_QMg_BASE_BASE 0) + 0xAC000 ∧ NMap.get none s.qm.hold 1 ≠ none)
    ∧ (let s := { stQm true [] with mem := putChecked [] 0x10000 [1, 0, 0, 0, 0, 0, 0, 0] }
      s.cmns.err = [] ∧ memRead s.mem 0x10000 2 ≠ 0x514D
        ∧ memRead s.mem 0x10040 8 = carryWord ((List.range 8).map fun j => memRead s.mem (0x10000 + 8 * j) 8))
    ∧ (NMap.get none (stQm true []).qm.hold 1 = some 2000 ∧ 2000 ≤ (stQm true []).tick.toNat ∧ (stQm true []).rd R.FUSA_QM_STAT_AVALID = 0
      ∧ (stQm true []).rd (R.FUSA_QMg_SEAL_SEALED 1) = 0 ∧ (stQm true []).rd (R.FUSA_QMg_SEAL_BUSY 1) = 0)
    ∧ ((stQm false [(R.FUSA_QM_SEL_SCAN, 1), (R.FUSA_QMg_SEAL_SEALED 0, 1)]).qm.scan = true
      ∧ (stQm false [(R.FUSA_QM_SEL_SCAN, 1), (R.FUSA_QMg_SEAL_SEALED 0, 1)]).rd (R.FUSA_QMg_SEAL_SEALED 0) = 1
      ∧ (stQm false [(R.FUSA_QM_SEL_SCAN, 1), (R.FUSA_QMg_SEAL_SEALED 0, 1)]).rd (R.FUSA_QMg_SEAL_SEALED 1) = 0
      ∧ ((stQm false [(R.FUSA_QM_SEL_SCAN, 1), (R.FUSA_QMg_SEAL_SEALED 0, 1)]).readSection 0x10800 0 1).2.1 ≠ 0) := by decide +kernel

/-! ### State fusion -/

/-- One sample of reference 0 queued. -/
def sampleA : Sample := ⟨0, 5, 1999, 60000⟩
/-- A generation with one reference, its calibration limits given, is active at 0x100000; the slots are at 0x200000. -/
def stFusa (fs : List (FieldRef × Nat)) (f : FusaS) : State :=
  { runAt 2300 ([(R.FUSA_QM_STAT_AVALID, 1), (R.FUSA_QMg_SEAL_SEALED 0, 1), (R.FUSA_QMg_BASE_BASE 0, 0x100000),
      (R.FUSA_SBASE_SBASE, 0x200000), (R.FUSA_REFr_GAIN_GAIN 0, 2 ^ 28), (R.FUSA_REFr_OFF_OFF 0, 7), (R.FUSA_CALR_ORATE, 64)] ++ fs) with
    mem := putWords (putWords [] 0x100000 (qmHeader 1)) 0x166000
      [1, 0, 100, 1000 * 2 ^ 16, 0x0202, 0, 0, 0],
    fusa := f }
/-- The intake full. -/
def fusaFull : FusaS := { FusaS.init with queue := List.replicate 256 sampleA }
/-- A CUPD of the one record at 0x9000. -/
def runA : AssistRun := ⟨2, 0x8000, [0x9000 + 2 ^ 32 * 1, 0, 0, 0, 0, 0, 0, 0], 2, 0, 0x100000, 3, 4, 5, 6⟩
/-- Buffer 2 aligns, with a limit of 300 ticks; buffer 1 is being closed; and both assist channels work, one on a failed request. -/
def fusaBusy : FusaS :=
  { FusaS.init with
    aligning := some 2, limit := 300, closed := 2, nlate := 3, closing := some ⟨1, 250, true, 0⟩,
    assist := [(0, some runA), (1, some { runA with op := 1, words := List.replicate 8 0, code := 4 })] }
def sealFusa (w : Word) : State := { runAt 2300 [] with coll := [(R.FUSA_SBASE, w)] }
theorem witness_FusionCommands :
    ((stFusa [(R.FUSA_STAT_RUN, 1)] FusaS.init).evIn = [] ∧ (stFusa [(R.FUSA_STAT_RUN, 1)] FusaS.init).serves poA = true ∧ (stFusa [(R.FUSA_STAT_RUN, 1)] FusaS.init).rd R.FUSA_STAT_RUN = 1
      ∧ (stFusa [(R.FUSA_STAT_RUN, 1)] FusaS.init).rd R.FUSA_QM_STAT_AVALID = 1
      ∧ (stFusa [(R.FUSA_STAT_RUN, 1)] FusaS.init).nref = 1
      ∧ bitsOf (0x08FC00000000FFFF : DWord).toNat 63 48 ≤ 2300)
    ∧ (stFusa [] FusaS.init).rd R.FUSA_STAT_RUN = 0
    ∧ ((runAt 2300 [(R.FUSA_STAT_RUN, 1)]).rd R.FUSA_STAT_RUN = 1 ∧ (runAt 2300 [(R.FUSA_STAT_RUN, 1)]).rd R.FUSA_QM_STAT_AVALID = 0)
    ∧ 256 ≤ (stFusa [(R.FUSA_STAT_RUN, 1)] fusaFull).fusa.queue.length ∧ Size.word ≠ .dword
    ∧ ((sealFusa 0x7A5600).rd R.FUSA_STAT_RUN = 0 ∧ (sealFusa 0x7A5600).coll = [(R.FUSA_SBASE, 0x7A5600)]
      ∧ 0x7A5600 % 256 = 0 ∧ 0x7A5600 + 0x5AA00 = 0x800000 ∧ (sealFusa 0x7A5600).slotOverlap 0x7A5600 = false)
    ∧ ((sealFusa 0x101).rd R.FUSA_STAT_RUN = 0 ∧ (0x101 : Word).toNat % 2 ^ 23 % 256 ≠ 0)
    ∧ ((stFusa [] fusaBusy).fusa.aligning = some 2 ∧ (stFusa [] fusaBusy).fusa.queue = [] ∧ 1000 * 2 + 300 ≤ (stFusa [] fusaBusy).tick.toNat)
    ∧ (stFusa [] fusaBusy).fusa.closing = some ⟨1, 250, true, 0⟩
    ∧ ((stFusa [(R.FUSA_AkDESC_DESC 0, 0x7FFFC0)] FusaS.init).rd (R.FUSA_AkCMD_BUSY 0) = 0
      ∧ (stFusa [(R.FUSA_AkDESC_DESC 0, 0x7FFFC0)] FusaS.init).rd (R.FUSA_AkDESC_DESC 0) = 0x7FFFC0
      ∧ (stFusa [] FusaS.init).cmns.err = [])
    ∧ (stFusa [(R.FUSA_AkCMD_BUSY 1, 1)] fusaBusy).rd (R.FUSA_AkCMD_BUSY 1) = 1
    ∧ NMap.get none (stFusa [] fusaBusy).fusa.assist 1 = some { runA with op := 1, words := List.replicate 8 0, code := 4 }
    ∧ (NMap.get none (stFusa [] fusaBusy).fusa.assist 0 = some runA ∧ runA.arg 0 = 0x9000 ∧ runA.arg 4 = 1 ∧ runA.desc % 64 = 0
      ∧ runA.desc + 64 ≤ runA.arg 0 ∧ (stFusa [] fusaBusy).cmns.err = [])
    ∧ ((stFusa [] FusaS.init).fusa.freeUntil ≤ (stFusa [] FusaS.init).tick.toNat
      ∧ (recField ((stFusa [] FusaS.init).refRec 0) 32 1).testBit 1 = true)
    ∧ (recField ({ stFusa [] FusaS.init with mem := putWords [] 0x100000 (qmHeader 1) }.refRec 0) 32 1).testBit 1 = false := by
  decide +kernel

/-! ### The solver -/

/-- n words with the given bytes: offset, number of bytes, value. -/
def wordsOf (n : Nat) (fs : List (Nat × Nat × Nat)) : List Nat :=
  let byte (o : Nat) : Nat := (fs.map fun f => if f.1 ≤ o ∧ o < f.1 + f.2.1 then f.2.2 / 256 ^ (o - f.1) % 256 else 0).sum
  (List.range n).map fun j => ((List.range 8).map fun k => byte (8 * j + k) * 256 ^ k).sum
def descOf : List (Nat × Nat × Nat) → List Nat := wordsOf 8
def runOf (ws : List Nat) : SqRun := ⟨ws, 990, [0, 1], none, false, 0, none, false⟩
def cmdOf (r : Option SqRun) : SqCmd := ⟨false, 5, 0x8000, 0, 59000000, r⟩
/-- The long queue's command 5 works on the problems given, with the descriptor words. -/
def stSolv (fs : List (FieldRef × Nat)) (x : NMap Prob) (ws : List Nat) (mem : NMap Byte) : State :=
  { runAt 1000 fs with solv := { SolvS.init with held := [cmdOf (some (runOf ws))], prob := x }, mem := mem }
/-- Column 0, primal, with an entry in row 1; column 1, dual. -/
def twoCols : List SolvCol := [⟨false, 0, 3, -2, [1]⟩, ⟨true, 1, -4, 5, []⟩]
def probTwo : Prob :=
  { Prob.free with
    tauM := 0x8000, tauX := -20, delM := 0xC000, delX := 30, cols := twoCols, fill := [[1], []],
    k := [(0, 2 ^ 40), (2 ^ 18, -(2 ^ 30)), (2 ^ 18 + 1, 2 ^ 35)],
    vec := [(0, 1000), (1, -2000), (3 * 2 ^ 18 + 1, -500), (4 * 2 ^ 18 + 1, 77)] }
/-- Column headers and index words of a two-column pattern, and one whose first header bears a wrong number. -/
def patTwo : List Nat := [3 * 2 ^ 28 + 254 * 2 ^ 36 + 2 ^ 44, 1 + 0x1FFFFF * 2 ^ 21 + 0x1FFFFF * 2 ^ 42, 1 + 2 ^ 18 + 2 ^ 20 + 252 * 2 ^ 28 + 5 * 2 ^ 36]
def patBad : List Nat := [1]
def inTwo (fs : List (FieldRef × Nat)) : List (FieldRef × Nat) := (R.SOLV_Pp_DIM_NROWS 1, 2) :: (R.SOLV_Pp_STAT_NW 1, 2) :: fs
def bufMem (ws : List Nat) : NMap Byte := putWords [] 0x10000 (ws ++ [carryWord ws])
def dPdef : List Nat := descOf [(0, 1, 1), (1, 1, 1), (16, 4, 262144), (20, 1, 3), (21, 1, 200), (22, 2, 9), (24, 1, 5), (26, 2, 0x8001)]
def dList (op n last : Nat) : List Nat := descOf [(0, 1, op), (1, 1, 1), (2, 1, 1), (16, 4, 0x10000), (20, 4, n), (24, 1, last)]
def dSymb : List Nat := descOf [(0, 1, 3), (1, 1, 1)]
def dPdel : List Nat := descOf [(0, 1, 4), (1, 1, 7)]
def kPairs : List Nat := [1 + 0 * 2 ^ 18, 2 ^ 64 - 5]
def kWrong : List Nat := [0 + 1 * 2 ^ 18, 7]
def vPairs : List Nat := [1, 9]
def vWrong : List Nat := [2, 9]
def dRead : List Nat := descOf [(0, 1, 7), (1, 1, 1), (2, 1, 1), (16, 4, 0x10000), (20, 4, 0x20000), (24, 4, 3), (28, 1, 0)]
def rowsRead : List Nat := [1 + 2 ^ 32 * 0, 1]
theorem buffer_holds (s : State) (chk : Bool) (a : Nat) (ws : List Nat) (e : s.cmns.err = []) (ha : a % 8 = 0)
    (hm : (List.range ws.length).map (fun j => memRead s.mem (a + 8 * j) 8) = ws)
    (hc : memRead s.mem (a + 8 * ws.length) 8 = carryWord ws) : s.buffer chk a ws :=
  ⟨ha, fun w _ _ => by unfold State.wordMark; rw [e]; rfl, hm, fun _ => hc⟩
theorem buffer_made (fs : List (FieldRef × Nat)) (x : NMap Prob) (d ws : List Nat)
    (h : (List.range ws.length).map (fun j => memRead (bufMem ws) (0x10000 + 8 * j) 8) = ws
      ∧ memRead (bufMem ws) (0x10000 + 8 * ws.length) 8 = carryWord ws) :
    (stSolv fs x d (bufMem ws)).buffer true 0x10000 ws :=
  buffer_holds _ _ _ _ rfl rfl h.1 h.2
theorem swords_fit : firstFit probTwo.swords 2097152 0 (stSolv (inTwo []) [(1, probTwo)] dSymb []).wordRuns = some 0 := by
  have h1 : probTwo.nsri ≤ 3 := Nat.min_le_left _ _
  have h2 : probTwo.nsn ≤ 2 := Nat.min_le_left _ _
  have h3 : (stSolv (inTwo []) [(1, probTwo)] dSymb []).wordRuns = [] := by decide
  have h4 : probTwo.swords ≤ 20 := by
    have h5 : 4 * probTwo.n + probTwo.nke = 11 := by decide
    unfold Prob.swords; omega
  rw [h3]; simp only [firstFit]; rw [if_pos (by omega)]

theorem witness_SolverProblemCommands :
    (∀ ws ∈ [dList 2 3 1, dList 2 3 0, dList 2 1 0, dList 5 1 0, dList 6 1 2, dRead], dchk ws = true ∧ dfield ws 16 4 = 0x10000)
    ∧ (∀ ws mem fs x, ws ∈ [dPdef, dList 2 3 1, dList 2 3 0, dList 2 1 0, dSymb, dPdel, dList 5 1 0, dList 6 1 2, dRead] →
      (stSolv fs x ws mem).works false 5 (cmdOf (some (runOf ws))) (runOf ws) ∧ dprob ws < 8)
    ∧ (dop dPdef = 1 ∧ dfield dPdef 16 4 = 262144 ∧ dfield dPdef 20 1 = 3)
    ∧ (dop (dList 2 3 1) = 2 ∧ patTwo.length = dfield (dList 2 3 1) 20 4 ∧ patternPart 2 3 0 patTwo = some twoCols)
    ∧ (patternPart 1 1 0 [2 ^ 18] = some [⟨true, 0, 0, 0, []⟩] ∧ ([⟨true, 0, 0, 0, []⟩] : List SolvCol).length ≠ 2)
    ∧ (patternPart 2 1 0 patBad = none ∧ patBad.length = dfield (dList 2 1 0) 20 4)
    ∧ (stSolv (inTwo []) [(1, probTwo)] (dList 2 3 1) (bufMem patTwo)).buffer true 0x10000 patTwo
    ∧ (stSolv (inTwo []) [] (dList 2 1 0) (bufMem patBad)).buffer true 0x10000 patBad
    ∧ (dop dSymb = 3 ∧ Prob.free.cols.length ≠ 2 ∧ { probTwo with delM := 0 }.deltaOk = false)
    ∧ (probTwo.cols.length = 2 ∧ probTwo.deltaOk = true
      ∧ firstFit (nfac 2 (fillFrom 0 [] twoCols) + 2 * 2) 8388608 0 (stSolv (inTwo []) [(1, probTwo)] dSymb []).cellRuns = some 0)
    ∧ firstFit probTwo.swords 2097152 0 (stSolv (inTwo []) [(1, probTwo)] dSymb []).wordRuns = some 0
    ∧ dop dPdel = 4
    ∧ (dop (dList 5 1 0) = 5 ∧ kPairs.length = 2 * dfield (dList 5 1 0) 20 4 ∧ kdelta probTwo kPairs = some [(2 ^ 18, -5)]
      ∧ kdelta probTwo kWrong = none)
    ∧ (dop (dList 6 1 2) = 6 ∧ vdelta probTwo 2 vPairs = some [(2 * 2 ^ 18 + 1, 9)] ∧ vdelta probTwo 2 vWrong = none)
    ∧ (stSolv (inTwo []) [(1, probTwo)] (dList 5 1 0) (bufMem kPairs)).buffer true 0x10000 kPairs
    ∧ (stSolv (inTwo []) [(1, probTwo)] (dList 6 1 2) (bufMem vPairs)).buffer true 0x10000 vPairs
    ∧ (dop dRead = 7 ∧ rowsRead.length = (dfield dRead 24 4 + 1) / 2 ∧ dfield dRead 20 4 % 8 = 0
      ∧ ∀ row ∈ (halves rowsRead).take 3, row < probTwo.n)
    ∧ (stSolv (inTwo []) [(1, probTwo)] dRead (bufMem rowsRead)).buffer true 0x10000 rowsRead := by
  refine ⟨by decide +kernel, fun ws mem fs x h => ?_, by decide +kernel, by decide, by decide, by decide,
    buffer_made _ _ _ _ (by decide +kernel), buffer_made _ _ _ _ (by decide +kernel), by decide, by decide, swords_fit, by decide, by decide, by decide,
    buffer_made _ _ _ _ (by decide +kernel), buffer_made _ _ _ _ (by decide +kernel), by decide, buffer_made _ _ _ _ (by decide +kernel)⟩
  exact ⟨⟨rfl, rfl, rfl, by simp [runOf]⟩, by revert ws; decide +kernel⟩

/-- The operands of the numeric commands, on problem 1. -/
def dNum (op : Nat) (fs : List (Nat × Nat × Nat)) : List Nat := descOf ([(0, 1, op), (1, 1, 1), (2, 1, if 14 ≤ op then 1 else 0)] ++ fs)
def dVop (op : Nat) : List Nat := dNum 11 [(16, 1, op), (17, 1, 2), (18, 1, 0), (19, 1, 3), (20, 4, 0x80000003), (24, 4, 65536)]
def dIter : List Nat := dNum 13 [(16, 2, 3), (18, 1, 2), (20, 4, 7), (24, 4, 65536), (28, 4, 65536), (32, 2, 0x4000)]
/-- One row, dual, on which iterations and vector operations run. -/
def probOne : Prob :=
  { Prob.free with
    tauM := 0x8000, tauX := -20, delM := 0xC000, delX := 30, cols := [⟨true, 0, 3, -2, []⟩], fill := [[]], k := [(0, -(2 ^ 40))],
    l := [], d := [(0, -(2 ^ 40))], dinv := [(0, -(2 ^ 40))],
    vec := [(0, 1000), (2 ^ 18, -2000), (2 * 2 ^ 18, 3), (3 * 2 ^ 18, -500), (4 * 2 ^ 18, 77)] }
/-- A DQP of one variable without rows, and an ENC of one input row, one layer and one output. -/
def dqpBlock : List Nat := [1 + 65536 * 4, 0x10000 + 2 ^ 32 * 0xFFFF0000, 0xFFFFFFF0 + 2 ^ 32 * 0x30, 0, 0, 0, 0, 0, 0, 0]
def encBlock : List Nat := [1 + 4096 + 65536 + 2 ^ 32 * (1 + 256 * 4), 0x80 + 2 ^ 32 * 5, 0x8000, 0, 0]
def dSolve : List Nat := dNum 9 [(16, 1, 0), (17, 1, 2)]
def dSpmv : List Nat := dNum 10 [(16, 1, 0), (17, 1, 2), (18, 1, 1)]
def dRefine : List Nat := dNum 12 [(16, 1, 0), (17, 1, 1), (18, 1, 2), (19, 1, 3)]
def dDqp : List Nat := dNum 14 [(16, 4, 0x10000)]
def dEnc : List Nat := dNum 15 [(16, 4, 0x10000)]
def stOne (ws : List Nat) : State := stSolv (inTwo []) [(1, probOne)] ws []
def stDqp : State := stSolv (inTwo []) [] dDqp (bufMem dqpBlock)
def stEnc : State := stSolv (inTwo []) [] dEnc (bufMem encBlock)
theorem witness_SolverNumericCommands :
    (∀ ws mem fs x, ws ∈ [dNum 8 [], dSolve, dSpmv, dVop 0, dVop 1, dVop 2, dVop 3, dVop 4, dRefine, dIter, dDqp, dEnc] →
      (stSolv fs x ws mem).works false 5 (cmdOf (some (runOf ws))) (runOf ws) ∧ (dprob ws < 8 ∨ 14 ≤ dop ws))
    ∧ ([dNum 8 [], dSolve, dSpmv, dVop 0, dVop 1, dVop 2, dVop 3, dVop 4, dRefine, dIter, dDqp, dEnc].map dop
        = [8, 9, 10, 11, 11, 11, 11, 11, 12, 13, 14, 15]
      ∧ (List.range 5).map (fun k => dfield (dVop k) 16 1) = [0, 1, 2, 3, 4]
      ∧ (∀ k < 5, dfield (dVop k) 18 1 < 5) ∧ (cmdOf none).desc % 64 = 0 ∧ dprob (dNum 8 []) < 8)
    ∧ (probOne.n ≤ 262144 ∧ (∀ v < 5, ∀ row < probOne.n, -cellMax ≤ probOne.cell v row ∧ probOne.cell v row ≤ cellMax
      ∧ -64 ≤ (probOne.col row).ev ∧ (probOne.col row).ev ≤ 63))
    ∧ (∀ w, (stOne (dVop 4)).wordMark w = .clean ∧ (stOne dRefine).wordMark w = .clean ∧ (stOne dIter).wordMark w = .clean)
    ∧ ((iterRun (iterArgs dIter) 0 0 none (probOne, [])).2.2.2 = false
      ∧ (iterRun (iterArgs dIter) 0 0 none (probOne, [])).2.1 < (iterArgs dIter).itmax)
    ∧ (iterArgs dIter).itmax ≤ (iterRun (iterArgs dIter) 3 0 none (probOne, [])).2.1
    ∧ (dfield dDqp 16 4 = 0x10000 ∧ dfield dEnc 16 4 = 0x10000 ∧ memRead stDqp.mem 0x10000 4 = 1 + 65536 * 4
      ∧ dqpBlock.length = (dqpWords 1 0 + 1) / 2 ∧ memRead stEnc.mem 0x10000 4 = 1 + 4096 + 65536
      ∧ (encLayers (memBytes stEnc.mem 0x10000 34000) 1 1 4).map (fun ly => ly.2) = some 16
      ∧ encBlock.length = (pad4 (16 + 2) + 16 + 7) / 8 ∧ dchk dDqp = true ∧ dchk dEnc = true)
    ∧ stDqp.buffer true 0x10000 dqpBlock ∧ stEnc.buffer true 0x10000 encBlock := by
  refine ⟨fun ws mem fs x h => ?_, by decide +kernel, by decide, fun w => ⟨rfl, rfl, rfl⟩, by decide +kernel, by decide +kernel,
    by decide +kernel, buffer_made _ _ _ _ (by decide +kernel), buffer_made _ _ _ _ (by decide +kernel)⟩
  exact ⟨⟨rfl, rfl, rfl, by simp [runOf]⟩, by revert ws; decide +kernel⟩

/-- Command 5 of the long queue on its lanes with its work done, or held and not started; a register file says nothing is wrong. -/
def stDone (r : Option SqRun) : State := { runAt 1000 [] with solv := { SolvS.init with held := [cmdOf r] } }
theorem witness_SolverCommandEnds :
    ((stDone none).evIn = [] ∧ (stDone none).solv.held.find? (fun d => d.short == false && d.seq == (5 : BitVec 16).toNat) = some (cmdOf none))
    ∧ ((SqFin.err 15).code ≤ 15 ∧ (cmdOf (some { runOf [] with fin := some (SqFin.err 15) })).desc % 64 = 0
      ∧ (stDone (some { runOf [] with fin := some (SqFin.err 15) })).wordMark (0x8000 / 8 + 1) = .clean)
    ∧ ((runOf []).cancel = false ∧ (runOf []).fin = none ∧ (cmdOf none).run = none ∧ (stDone none).serves poA = true)
    ∧ (dprob dPdef < 8 ∧ dfield dPdef 16 4 ≤ 262144 ∧ dfield dPdef 20 1 ≤ 3 ∧ dop (dList 5 1 0) = 5 ∧ dop (dNum 8 []) = 8 ∧ dop dSolve = 9)
    ∧ ((cmdOf none).core < 16 ∧ (stDone none).isTarget (cmdOf none).core = true) := by decide +kernel

/-! ### The loop engine -/

/-- A PID of division 10 and phase 0 on the pulse input 5, with no destination. -/
def loopDesc (div out : Nat) : List Nat :=
  wordsOf 15 [(0, 1, 1), (4, 4, div), (13, 1, 2), (15, 1, out), (20, 4, 5), (44, 4, 1), (86, 2, 1), (88, 4, 1), (100, 4, 10)]
def loopA : LoopS :=
  { LoopS.init with
    desc := loopDesc 10 0, outprev := 44,
    act := { LoopBank.zero with e := [⟨3, 2⟩, ⟨1, 5⟩, ⟨7, 1⟩] ++ List.replicate 21 ⟨1, 3⟩, umin := -100, umax := 2 ^ 31 - 1, rmax := 2 ^ 31 - 1 } }
/-- Loop 511 is sealed and runs, but for what the fields say. -/
def stLoop (tick : Nat) (fs : List (FieldRef × Nat)) (l : LoopsS) : State :=
  { runAt tick ([(R.LOOP_nSEAL_SEALED 511, 1), (R.LOOP_nSTAT_RUN 511, 1), (R.LOOP_nCTRL_EN 511, 1), (R.LOOP_nMODE_MODE 511, 1),
      (R.LOOP_nSP_SP 511, 1000), (R.DIOP_PIp_FREQ_FREQ 5, 400), (R.LOOP_nMANOUT_MANOUT 511, 2 ^ 32 - 7)] ++ fs) with
    loops := { l with loops := [(511, loopA)] } }
theorem witness_LoopEvaluations :
    ((stLoop 1000 [] LoopsS.init).evIn = [] ∧ (stLoop 1000 [] LoopsS.init).rd (R.LOOP_nSTAT_RUN 511) = 1
      ∧ (stLoop 1000 [] LoopsS.init).loops.console = [] ∧ (stLoop 1000 [] LoopsS.init).loopS 511 = loopA)
    ∧ (loopA.f 4 4 = 10 ∧ loopA.f 8 4 = 0 ∧ 1001 % 10 ≠ 0)
    ∧ ((stLoop 1000 [(R.LOOP_nCTRL_EN 511, 0)] LoopsS.init).rd (R.LOOP_nCTRL_EN 511) = 0
      ∧ (stLoop 1000 [(R.LOOP_nCTRL_EN 511, 0)] LoopsS.init).injOf 511 = none)
    ∧ ((stLoop 1000 [] LoopsS.init).rd (R.LOOP_nSEAL_SEALED 511) = 1 ∧ (stLoop 1000 [] LoopsS.init).rd (R.LOOP_nCTRL_EN 511) = 1
      ∧ (stLoop 1000 [] LoopsS.init).rd (R.LOOP_nBANK_PEND 511) = 0 ∧ loopA.rack = none
      ∧ (stLoop 1000 [] LoopsS.init).rd (R.LOOP_nSTAT_REACT 511) = 0 ∧ loopA.f 12 1 = 0 ∧ loopA.f 15 1 = 0 ∧ loopA.f 60 1 = 0
      ∧ (stLoop 1000 [] LoopsS.init).injOf 511 = none ∧ (stLoop 1000 [] LoopsS.init).rd R.LOOP_CAPSTAT_ACT = 0
      ∧ (stLoop 1000 [] LoopsS.init).loopY loopA = some (400, false) ∧ (stLoop 1000 [] LoopsS.init).wrote = [])
    ∧ (stLoop 1000 [(R.LOOP_nMODE_MODE 511, 0)] LoopsS.init).rd (R.LOOP_nMODE_MODE 511) = 0
    ∧ ((stLoop 1000 [] LoopsS.init).rd (R.LOOP_nMODE_MODE 511) = 1 ∧ (stLoop 1000 [] LoopsS.init).innerTrack 511 = none
      ∧ loopA.first = false ∧ -2 ^ 31 ≤ loopA.act.umin ∧ loopA.act.umin ≤ loopA.act.umax ∧ loopA.act.umax < 2 ^ 31)
    ∧ (runAt 1000 []).rd R.LOOP_STAT_NRUN = 0
    ∧ ((runAt 1000 [(R.LOOP_STAT_NRUN, 1), (R.LOOP_OREG_OBASE, 262142), (R.LOOP_OREG_ONUM, 2)]).rd R.LOOP_STAT_NRUN ≠ 0
      ∧ 262142 + 2 ≤ 262144
      ∧ (runAt 1000 [(R.LOOP_STAT_NRUN, 1), (R.LOOP_OREG_ONUM, 2)]).rd (R.TIER_SRCs_STAT_USED 20) + 8 * (2 + 1) ≤ 4096) := by
  decide +kernel

def setWords (lo : Nat) : List Nat := (List.range 24).map (fun k => k + 2 ^ 31 + 2 ^ 32 * k) ++ [2 ^ 32 * 5 + lo, 9]
/-- Loop 3's seal is under way from the descriptor words at 0x10000, and one set load waits. -/
def stSealing (at0 : Nat) (ws : List Nat) (q : SetLoad) : State :=
  { runAt 1000 [(R.LOOP_nDESC_ADDR 3, at0), (R.LOOP_nSEAL_BUSY 3, 1), (R.LOOP_nSEAL_SEALED 511, 1)] with
    mem := bufMem ws, loops := { LoopsS.init with sealBy := [(3, some (2, at0))], loops := [(511, loopA)], loads := [q] } }
theorem buffer_sealing (at0 : Nat) (ws : List Nat) (q : SetLoad)
    (h : (List.range ws.length).map (fun j => memRead (bufMem ws) (0x10000 + 8 * j) 8) = ws
      ∧ memRead (bufMem ws) (0x10000 + 8 * ws.length) 8 = carryWord ws) : (stSealing at0 ws q).buffer true 0x10000 ws :=
  buffer_holds _ _ _ _ rfl rfl h.1 h.2
def loadFar : SetLoad := ⟨511, true, 0x10000, 1⟩
def consoleReg (v : Word) : State := { runAt 1000 [] with cores := [(0, { coreA with cwra := v })] }
def stCaptures : State :=
  { runAt 1000 [(R.LOOP_INJk_STAT_ACT 7, 1), (R.LOOP_CAPSTAT_ACT, 1)] with
    loops := { LoopsS.init with
      inj := [(0, { (stA.injS 0) with isSealed := true })],
      loads := List.replicate 8 loadFar, console := List.replicate 16 ⟨0, 0, 0, 0, 0, 0⟩ } }
theorem witness_LoopCommands :
    ((stSealing 0x10000 [] loadFar).evIn = []
      ∧ (stSealing 0x10000 [] loadFar).serves poA = true ∧ (stSealing 0x10000 [] loadFar).rd (R.LOOP_nSTAT_RUN 511) = 0 ∧ (stSealing 0x10000 [] loadFar).rd (R.LOOP_nSEAL_BUSY 511) = 0)
    ∧ ((stLoop 1000 [] LoopsS.init).evIn = [] ∧ (stLoop 1000 [] LoopsS.init).rd (R.LOOP_nSTAT_RUN 511) = 1)
    ∧ (NMap.get none (stSealing 0x10000 [] loadFar).loops.sealBy 3 = some (2, 0x10000) ∧ (loopDesc 10 0).length = 15
      ∧ (stSealing 0x10000 [] loadFar).loopSealCode 3 { (stSealing 0x10000 [] loadFar).loopS 3 with desc := loopDesc 10 0 } = 0
      ∧ (stSealing 0x10000 [] loadFar).loopSealCode 3 { (stSealing 0x10000 [] loadFar).loopS 3 with desc := loopDesc 0 0 } = 5
      ∧ NMap.get none (stSealing 0x10010 [] loadFar).loops.sealBy 3 = some (2, 0x10010) ∧ 0x10010 % 64 ≠ 0
      ∧ (stSealing 0x10000 [] loadFar).isTarget 2 = true)
    ∧ (stSealing 0x10000 (loopDesc 10 0) loadFar).buffer true 0x10000 (loopDesc 10 0)
    ∧ (stSealing 0x10000 (loopDesc 0 0) loadFar).buffer true 0x10000 (loopDesc 0 0)
    ∧ ((runAt 1000 []).rd R.LOOP_STAT_NRUN = 0 ∧ bitsOf (504 * 2 ^ 18 + 261640) 26 18 = 504
      ∧ bitsOf (504 * 2 ^ 18 + 261640) 17 0 + 504 = 262144 ∧ 504 < bitsOf (505 * 2 ^ 18) 26 18)
    ∧ ((stSealing 0 [] loadFar).loops.loads.length < 8 ∧ 8 ≤ stCaptures.loops.loads.length)
    ∧ ((stSealing 0 [] loadFar).loops.loads = loadFar :: [] ∧ loadFar.loop < 512 ∧ loadFar.addr % 64 = 0
      ∧ loadFar.addr + 216 ≤ 0x800000 ∧ (setWords (2 ^ 31)).length = 26 ∧ setOk (setWords (2 ^ 31)) = true
      ∧ setOk (setWords 6) = false ∧ (setWords 6).length = 26
      ∧ (stSealing 0 [] loadFar).loopSealed 511 = true ∧ (stSealing 0 [] loadFar).loopSealed 3 = false ∧ 0x10020 % 64 ≠ 0)
    ∧ (stSealing 0 (setWords (2 ^ 31)) loadFar).buffer true 0x10000 (setWords (2 ^ 31))
    ∧ (stSealing 0 (setWords 6) loadFar).buffer true 0x10000 (setWords 6)
    ∧ (bitsOf ((consoleReg (511 + 23 * 512)).core 0).cwra.toNat 13 9 = 23 ∧ bitsOf ((consoleReg (24 * 512)).core 0).cwra.toNat 13 9 = 24
      ∧ 16 ≤ stCaptures.loops.console.length ∧ (consoleReg 0).loops.console.length < 16)
    ∧ (stCaptures.rd (R.LOOP_INJk_STAT_ACT 0) = 0 ∧ (stCaptures.injS 0).isSealed = true ∧ (stCaptures.injS 1).isSealed = false
      ∧ stCaptures.rd (R.LOOP_INJk_STAT_ACT 7) = 1 ∧ stCaptures.evIn = [])
    ∧ ((runAt 1000 []).rd R.LOOP_CAPSTAT_ACT = 0 ∧ stCaptures.rd R.LOOP_CAPSTAT_ACT = 1) := by
  refine ⟨by decide, by decide, by decide +kernel, buffer_sealing _ _ _ (by decide +kernel), buffer_sealing _ _ _ (by decide +kernel),
    by decide, by decide, by decide +kernel, buffer_sealing _ _ _ (by decide +kernel), buffer_sealing _ _ _ (by decide +kernel),
    by decide, by decide, by decide⟩

/-! ### Axes, inputs, kick-off and supply -/

/-- Axis 7, enabled or not, with a target, limits and rates. -/
def stAxis (en : Nat) (fs : List (FieldRef × Nat)) (x : AxisS) : State :=
  { runAt 1000 ([(R.DIOP_RSTAT_WHOLD, 0), (R.AXIS_aCTRL_EN 7, en), (R.AXIS_aSTAT_HOMED 7, 1), (R.AXIS_aPOS_POS 7, 2 ^ 32 - 90), (R.AXIS_aTGT_TGT 7, 5000),
      (R.AXIS_aSHI_SHI 7, 6000), (R.AXIS_aSLO_SLO 7, 2 ^ 32 - 100), (R.AXIS_aVEL_VMAX 7, 3000), (R.AXIS_aVEL_AMAX 7, 700)] ++ fs) with
    axes := [(7, x)] }
/-- The choppers of axis 7: phase A at the last 10 ns of its eighth on phase that reaches TONMAX, the other slow, or the same of B. -/
def longOn : ChopS := ⟨.drive, 99, 7⟩
def chopAt (x y : ChopS) : AxisS := { AxisS.init with refA := 200, refB := -200, chopA := x, chopB := y }
def stChop (x : AxisS) : State := stAxis 1 [(R.AXIS_aCHOP_TOFF 7, 10), (R.AXIS_aCHOP_TBLANK 7, 5), (R.AXIS_aCHOP_TONMAX 7, 1)] x
def sealAxis (w : Word) : State :=
  { stAxis 0 [(R.AXIS_aCHOP_TOFF 7, 10), (R.AXIS_aCHOP_TBLANK 7, 5), (R.AXIS_aCHOP_TONMAX 7, 9)] AxisS.init with
    coll := [(R.AXIS_aCFG 7, w)] }
/-- The standby of a pair that follows on its owner's inputs. -/
def stNotOwn : State := runAt 1000 [(R.PAIR_STAT_STRAP, 1), (R.PAIR_STAT_STATE, 2)]
theorem witness_AxisAndInputCommands :
    ((stAxis 1 [] AxisS.init).evIn = [] ∧ (stAxis 1 [] AxisS.init).rd (R.AXIS_aCTRL_EN 7) = 1 ∧ (stAxis 1 [] AxisS.init).axis 7 = AxisS.init
      ∧ (stAxis 1 [] AxisS.init).wrote = [] ∧ (stAxis 1 [] AxisS.init).serves poA = true
      ∧ (stAxis 1 [] AxisS.init).rd (R.AXIS_aCFG_TSRC 7) = 0 ∧ (stAxis 1 [] AxisS.init).forcedAx 7 = false
      ∧ (stAxis 1 [] AxisS.init).rd (R.AXIS_aSTAT_STALL 7) = 0 ∧ (stAxis 1 [] AxisS.init).rd (R.AXIS_aSTAT_FAULT 7) = 0
      ∧ (stAxis 1 [] AxisS.init).rdI (R.AXIS_aSLO_SLO 7) ≤ (stAxis 1 [] AxisS.init).rdI (R.AXIS_aTGT_TGT 7)
      ∧ (stAxis 1 [] AxisS.init).rdI (R.AXIS_aTGT_TGT 7) ≤ (stAxis 1 [] AxisS.init).rdI (R.AXIS_aSHI_SHI 7))
    ∧ ((stAxis 0 [] AxisS.init).rd (R.AXIS_aCTRL_EN 7) = 0 ∧ (stAxis 0 [] AxisS.init).axis 7 = AxisS.init
      ∧ (stAxis 0 [] AxisS.init).evIn = [])
    ∧ (((stAxis 0 [] { AxisS.init with setp := [(60052999, -7)] }).axis 7).setp = [(60052999, (0xFFFFFFF9 : Word).toInt)]
      ∧ 60052999 < 60000 * (stAxis 0 [] AxisS.init).tick.toNat + 53000)
    ∧ ((stAxis 0 [] { AxisS.init with clr := [60052999] }).axis 7 = { AxisS.init with clr := [60052999] })
    ∧ ((stAxis 0 [] { AxisS.init with clr := [60053000], setp := [(60053000, -7)] }).axis 7
      = { AxisS.init with clr := [60053000], setp := [(60053000, (0xFFFFFFF9 : Word).toInt)] })
    ∧ ((stChop (chopAt longOn ⟨.slow, 0, 0⟩)).gatesOff 7 = false ∧ (stChop (chopAt longOn ⟨.slow, 0, 0⟩)).chopCfg 7 = ⟨100, 50, 100, 4⟩
      ∧ longOn.blanked ⟨100, 50, 100, 4⟩ = false ∧ longOn.phase = .drive ∧ longOn.run = 7 ∧ 32 ≤ (200 : Int).natAbs
      ∧ 100 ≤ longOn.t + 1 ∧ 199 < (200 : Int).natAbs ∧ 320 < 321)
    ∧ ((stChop (chopAt ⟨.slow, 0, 0⟩ longOn)).axis 7 = chopAt ⟨.slow, 0, 0⟩ longOn ∧ (-200 : Int).natAbs = 200)
    ∧ ((stAxis 0 [] { AxisS.init with low := 99 }).gatesOff 7 = true ∧ ((stAxis 0 [] { AxisS.init with low := 99 }).axis 7).low = 99)
    ∧ ((stAxis 1 [] AxisS.init).isStandby = false ∧ 3 ∈ (stAxis 1 [] AxisS.init).dutiesOf 4
      ∧ (stAxis 1 [] AxisS.init).isTarget 3 = true)
    ∧ (stNotOwn.isStandby = true ∧ stNotOwn.evIn = [])
    ∧ ((sealAxis (256 * 2 ^ 21 + 47 * 2 ^ 15)).axisSealCode 7 = 0 ∧ (sealAxis 0).axisSealCode 7 = 1
      ∧ (sealAxis 0).rd (R.AXIS_aCTRL_EN 7) = 0) := by decide +kernel

/-- A kick-off from one feed at the lower end of its band, with nothing bad. -/
def kickA : KickIn := ⟨1800, 4000, 0, false, false, true, 0, [], false⟩
/-- A request to restart partition 8 is due, a release and a kick-off too; digital output 23 has tripped a second ago. -/
def stKicks (fs : List (FieldRef × Nat)) (r : RstS) (d : DiopS) (f : FeedS) : State :=
  { runAt 2000 ([(R.DIOP_RSTAT_WHOLD, 0), (R.DIOP_DOUT_DOUT, 0x800001)] ++ fs) with rst := r, diop := d, feed := f }
theorem witness_KickOffAndSupplyCommands :
    (State.reset.phase = .off ∧ 1800 ≤ kickA.va ∧ kickA.va ≤ 3200 ∧ kickA.va ≤ 4000 ∧ kickA.vb ≤ 4000 ∧ kickA.rows = [])
    ∧ 4000 < { kickA with vb := 4001 }.vb
    ∧ ({ stA with phase := .setup }.phase = .setup ∧ stA.phase ≠ .setup)
    ∧ ((runAt 2000 []).evIn = [] ∧ (runAt 2000 []).serves poA = true ∧ (runAt 2000 []).phase = .running ∧ (runAt 2000 []).coresOf (8 : BitVec 4).toNat ≠ []
      ∧ (runAt 2000 []).rd R.DIOP_RSTAT_PEND = 0 ∧ (1 : BitVec 2).toNat < 2 ∧ (9 : BitVec 4) ≠ 1 ∧ (9 : BitVec 4) ≠ 8
      ∧ { runAt 2000 [] with phase := .setup }.phase ≠ .running ∧ { runAt 2000 [] with phase := .setup }.serves poA = true)
    ∧ ((stKicks [] { RstS.init with req := some (8, 1, 2000) } DiopS.init FeedS.init).rst.req = some (8, 1, 2000)
      ∧ 2000 ≤ (stKicks [] RstS.init DiopS.init FeedS.init).tick.toNat
      ∧ (∀ c < 16, ((stKicks [] RstS.init DiopS.init FeedS.init).core c).stopped = false)
      ∧ (stKicks [] RstS.init DiopS.init FeedS.init).partOf 14 = 8 ∧ (stKicks [] RstS.init DiopS.init FeedS.init).inService 14 = true)
    ∧ ((runAt 2000 []).keyCoreStopped = false
      ∧ { runAt 2000 [] with cores := [(14, { coreA with stopped := true })] }.keyCoreStopped = true)
    ∧ ((stKicks [] { RstS.init with rel := some 2000 } DiopS.init FeedS.init).rst.rel = some 2000
      ∧ (stKicks [] { RstS.init with rel := some 2000 } DiopS.init FeedS.init).mayRelease = true
      ∧ (stKicks [(R.PAIR_STAT_STRAP, 1)] { RstS.init with rel := some 2000 } DiopS.init FeedS.init).mayRelease = false)
    ∧ ((0x4B1D : BitVec 16) ≠ 0x4B1C ∧ (runAt 2000 []).isMember = false)
    ∧ ((stKicks [] { RstS.init with kick := some 2000 } DiopS.init FeedS.init).rst.kick = some 2000
      ∧ (stKicks [] RstS.init DiopS.init FeedS.init).phase = .running ∧ (stKicks [] RstS.init DiopS.init FeedS.init).evIn = [])
    ∧ ((runAt 2000 []).rd (presOfFeed true) = 0 ∧ 6 ∈ (runAt 2000 []).dutiesOf 7 ∧ (runAt 2000 []).isTarget 6 = true
      ∧ (runAt 2000 [(R.FEED_STAT_APRES, 1)]).rd (presOfFeed false) = 1)
    ∧ ((stKicks [(R.FEED_STAT_BPRES, 1)] RstS.init DiopS.init { FeedS.init with outSince := [(1, 1001)] }).rd (presOfFeed true) = 1
      ∧ NMap.get 0 (stKicks [] RstS.init DiopS.init { FeedS.init with outSince := [(1, 1001)] }).feed.outSince 1 = 1000 + 1
      ∧ FeedS.init.told.testBit 1 = false)
    ∧ { stA with phase := .halted }.phase = .halted
    ∧ ((stKicks [] RstS.init DiopS.init { FeedS.init with dying := true }).feed.dying = true ∧ (runAt 2000 []).feed.dying = false)
    ∧ ((stKicks [] RstS.init DiopS.init FeedS.init).doDriven 23 = some true
      ∧ (stKicks [] RstS.init DiopS.init FeedS.init).doSelect 23 = some true
      ∧ NMap.get 0 (stKicks [] RstS.init { DiopS.init with trip := [(23, 1001)] } FeedS.init).diop.trip 23 = 1000 + 1
      ∧ NMap.get 0 (stKicks [] RstS.init { DiopS.init with trip := [(23, 1002)] } FeedS.init).diop.trip 23 = 1001 + 1
      ∧ 2000 < 1001 + 1000) := by decide +kernel

/-! ### The substation bus -/

def rxEntry : Nat := 5 + 8191 * 2 ^ 32 + 63 * 2 ^ 45
def txEntry : Nat := 0x123 + 2 ^ 30 + 8190 * 2 ^ 32 + 2 ^ 51
def txWords : List Nat := [0x123 + 2 ^ 32 * 2, 0xABCD, 0, 0, 0, 0, 0, 0, 0]
def chanA : CanCh := { CanCh.init with table := [rxEntry, txEntry], integrated := true }
def reqA (att : Option Nat) : CanReq := ⟨8190, txEntry, 7, false, att⟩
/-- Channel 15 in the given state, with one transmit object filled and sealed. -/
def stCan (state : Nat) (fs : List (FieldRef × Nat)) (x : CanCh) (ws : List Nat) : State :=
  { runAt 1000 ([(R.CANB_cSTAT_RUN 15, 1), (R.CANB_cSTAT_STATE 15, state), (R.CANB_cSEAL_SEALED 15, 1),
      (R.CANB_cOBJ_OBASE 15, 8190), (R.CANB_cOBJ_ONUM 15, 2), (R.CANB_cSTAs_USED 15 63, 1), (R.CANB_cSTAs_WOBJ 15 63, 8191),
      (R.CANB_cSTAs_TMO 15 63, 20)] ++ fs) with
    mem := putWords [] (0x30000000 + 80 * 8190) ws, can := { CanS.init with ch := [(15, x)], obj := [(8191, ⟨255, true, false⟩)] } }
def sealedTx : List Nat := txWords ++ [carryWord txWords]
def frameA (id : BitVec 29) : CanFrame := ⟨id, false, false, false, false, false, 8, 0x1122334455667788, true, 60000500⟩
/-- Channel 15 being sealed with the two-entry table at 0x10000; tables of a bad check word or of a repeated object fail. -/
def stCanSeal (table : List Nat) (at0 : Nat) : State :=
  { runAt 1000 [(R.CANB_cSEAL_BUSY 15, 1), (R.CANB_cSTAs_USED 15 63, 1), (R.CANB_cSTAs_WOBJ 15 63, 8191), (R.CANB_cSTAs_TMO 15 63, 20),
      (R.CANB_cCFG_FNUM 15, 2), (R.CANB_cFTAB_ADDR 15, at0), (R.CANB_cOBJ_OBASE 15, 8190), (R.CANB_cOBJ_ONUM 15, 2),
      (R.CANB_cNBT_NBRP 15, 0), (R.CANB_cNBT_NTSEG1 15, 60), (R.CANB_cNBT_NTSEG2 15, 20), (R.CANB_cDBT_DTSEG1 15, 10),
      (R.CANB_cDBT_DTSEG2 15, 6)] with
    mem := bufMem table, can := { CanS.init with ch := [(15, { CanCh.init with sealBy := some 2 })] } }
def chanSend (att : Option Nat) : CanCh := { chanA with reqs := [reqA att] }
def stSend (ws : List Nat) : State := stCan 0 [] (chanSend none) ws
theorem witness_SubstationBusCommands :
    ((stCan 0 [] chanA []).rd (R.CANB_cSTAT_RUN 15) = 1 ∧ (stCan 0 [] chanA []).rd (R.CANB_cSTAT_STATE 15) < 2
      ∧ (stCan 0 [] chanA []).isStandby = false ∧ (stCan 0 [] chanA []).canCh 15 = chanA ∧ (frameA 5).fdf = false
      ∧ chanA.table.find? (fun e => entKey e == frameWord0 (frameA 5) % 2 ^ 30 && !entTx e) = some rxEntry
      ∧ chanA.table.find? (fun e => entKey e == frameWord0 (frameA 6) % 2 ^ 30 && !entTx e) = none
      ∧ stNotOwn.isStandby = true
      ∧ (stCan 0 [(R.CANB_cSTAT_RUN 15, 0)] { chanA with offAt := 60000600 } []).rd (R.CANB_cSTAT_RUN 15) = 0
      ∧ (frameA 5).begun + 1 < { chanA with offAt := 60000600 }.offAt ∧ chanA.offAt ≤ (frameA 5).begun + 1)
    ∧ (∀ k, (stCan 0 [] chanA sealedTx).objMark k = .clean)
    ∧ ((stCan 0 [] chanA sealedTx).evIn = [] ∧ (stCan 0 [] chanA sealedTx).serves poA = true
      ∧ (stCan 0 [] chanA sealedTx).txCode 15 8190 false ((List.range 10).map fun k => memRead (stCan 0 [] chanA sealedTx).mem (0x30000000 + 80 * 8190 + 8 * k) 8) = 0
      ∧ (stCan 0 [] chanA txWords).txCode 15 8190 true ((List.range 10).map fun k => memRead (stCan 0 [] chanA txWords).mem (0x30000000 + 80 * 8190 + 8 * k) 8) = 0
      ∧ (stCan 0 [] chanA txWords).txCode 15 8190 false ((List.range 10).map fun k => memRead (stCan 0 [] chanA txWords).mem (0x30000000 + 80 * 8190 + 8 * k) 8) = 6
      ∧ 6 ∈ (stCan 0 [] chanA []).dutiesOf 7 ∧ 5 ∈ (stCan 0 [] chanA []).dutiesOf 6 ∧ (stCan 0 [] chanA []).isTarget 5 = true)
    ∧ ((chanSend none).reqs.find? (fun q => q.obj == (8190 : BitVec 13).toNat) = some (reqA none)
      ∧ (chanSend (some 9)).reqs.find? (fun q => q.obj == (8190 : BitVec 13).toNat) = some (reqA (some 9))
      ∧ (reqA none).attempt = none ∧ (reqA (some 9)).attempt ≠ none ∧ (reqA (some 9)).cancel = false
      ∧ (chanSend (some 9)).reqs.find? (fun q => q.attempt.isSome) = some (reqA (some 9)) ∧ (chanSend none).stopping = false)
    ∧ ((stSend sealedTx).canMaySend 15 = true ∧ (∀ q ∈ (chanSend none).reqs, q.attempt = none) ∧ (stSend sealedTx).nextReq 15 = some (reqA none)
      ∧ memRead (stSend sealedTx).mem (0x30000000 + 80 * 8190 + 72) 8
        = carryWord ((List.range 9).map fun k => memRead (stSend sealedTx).mem (0x30000000 + 80 * 8190 + 8 * k) 8)
      ∧ bitsOf (memRead (stSend txWords).mem (0x30000000 + 80 * 8190 + 72) 8) 63 56 ≠ 0x5C)
    ∧ ({ chanA with tec := 247 }.tec + 8 ≤ 255 ∧ 127 < { chanA with tec := 247 }.tec + 8 ∧ 255 < { chanA with tec := 248 }.tec + 8
      ∧ (⟨true, .ackPassive, false⟩ : CanErr).kind = .ackPassive ∧ 127 < { chanA with tec := 128 }.tec ∧ chanA.stopping = false)
    ∧ ((stCan 2 [] chanA []).rd (R.CANB_cSTAT_STATE 15) = 2 ∧ (stCan 2 [] chanA []).rd (R.CANB_cCTRL_HOLD 15) = 0
      ∧ { chanA with count := 127 }.count + 0 < 128 ∧ 128 ≤ { chanA with count := 127 }.count + 1
      ∧ (stCan 2 [] chanA []).onSnapshot = false ∧ stNotOwn.onSnapshot = true)
    ∧ ((stCan 0 [] chanA []).rd (R.CANB_cSTAs_USED 15 63) = 1 ∧ (stCan 0 [] chanA []).rd (dropBit 15 63) = 0
      ∧ (stCan 0 [] { chanA with last := [(63, 801)] } []).stationSilent 15 63 = true
      ∧ (stCan 0 [] { chanA with last := [(63, 802)] } []).stationSilent 15 63 = false
      ∧ (stCan 0 [(dropBit 15 63, 1)] chanA []).rd (dropBit 15 63) = 1 ∧ (stCan 0 [] chanA []).cycle = 0
      ∧ NMap.get 0 { chanA with seen := [(63, 1000)] }.seen 63 = 1000 ∧ NMap.get 0 { chanA with seen := [(63, 1001)] }.seen 63 = 1001)
    ∧ ((runAt 1000 []).rd (R.CANB_cSTAT_RUN 15) = 0 ∧ (runAt 1000 []).rd (R.CANB_cSEAL_BUSY 15) = 0)
    ∧ ((stCanSeal [rxEntry, txEntry] 0x10000).rd (R.CANB_cSEAL_BUSY 15) = 1
      ∧ (stCanSeal [rxEntry, txEntry] 0x10000).rd (R.CANB_cCTRL_EN 15) = 0
      ∧ (stCanSeal [rxEntry, txEntry] 0x10000).sealing = (stCanSeal [rxEntry, txEntry] 0x10000).coll
      ∧ ((stCanSeal [rxEntry, txEntry] 0x10000).canCheck 15).1 = 0 ∧ ((stCanSeal [rxEntry, txEntry] 0x10000).canCheck 15).2.1 = [rxEntry, txEntry]
      ∧ ((stCanSeal [rxEntry, rxEntry] 0x10000).canCheck 15).1 = 7)
    ∧ ((stCan 3 [] { chanA with integrated := false } []).rd (R.CANB_cSTAT_STATE 15) = 3
      ∧ { chanA with integrated := false }.integrated = false) := by
  refine ⟨by decide +kernel, fun _ => rfl, by decide +kernel, by decide +kernel, by decide +kernel, by decide, by decide,
    by decide +kernel, by decide, by decide +kernel, by decide⟩

/-! ### Metering -/

/-- The metering block runs at tick 1009, with group 3 on inputs 25 to 31, but for what is said. -/
def stMeter (fs : List (FieldRef × Nat)) (m : MetrS) (mem : NMap Byte) : State :=
  { runAt 1009 ([(R.METR_STAT_RUN, 1), (R.METR_CTRL_EN, 1), (R.METR_GgCTRL_EN 3, 1), (R.METR_GgSTAT_RUN 3, 1),
      (⟨R.METR_GgMAP 3, 29, 0⟩, 25 + 32 * 26 + 32 ^ 2 * 27 + 32 ^ 3 * 28 + 32 ^ 4 * 29 + 32 ^ 5 * 30), (R.METR_GgMAPN_IN 3, 31),
      (R.METR_GgCHk_GAIN_GAIN 3 0, 2 ^ 26), (R.METR_GgCHk_OFF_OFF 3 0, 5), (R.METR_GgCHk_GAIN_GAIN 3 6, 2 ^ 31),
      (R.METR_POEN_EN, 32768), (R.METR_POo_CFG_PW 15, 10), (R.METR_POo_KP_KP 15, 7), (R.METR_SBASE_SBASE, 0x600000)] ++ fs) with
    metr := m, mem := mem }
/-- Calculator 7 alone runs, on pulse input 31. -/
def stCalc (m : MetrS) : State :=
  { runAt 1009 [(R.METR_STAT_RUN, 1), (R.METR_CTRL_EN, 1), (R.METR_TCc_CTRL_EN 7, 1), (R.METR_TCc_STAT_RUN 7, 1), (R.METR_TCc_SRC_PIN 7, 31),
      (R.METR_TCc_KVOL_KVOL 7, 3000000000), (R.METR_TCc_SRC_DIN 7, 47)] with metr := m }
/-- A saved copy, number 4 of its kind, with registers 0 and 191 and output 15 not zero. -/
def savedTail : List Nat :=
  (List.range 423).map fun i => if i = 7 then 77 else if i = 390 then 2 ^ 31 else if i = 422 then 2 ^ 32 * 9 else 0
def savedWords : List Nat := (0x4D53 + 2 ^ 16 + 2 ^ 32 * 4) :: savedTail
def savedAt (a : Nat) : NMap Byte := copyClose [] a savedWords
def pulseFar : PoS := { PoS.init with owed := 70000, due := 10090000, start := 5 }
theorem witness_MeteringCommands :
    ((stMeter [] MetrS.init []).inFault 31 = false ∧ (stMeter [] MetrS.init []).feeds 3 31 = true
      ∧ (stMeter [] { MetrS.init with fault := [(31, [(5, none)])] } []).inFault 31 = true
      ∧ 4 ∈ (stMeter [] MetrS.init []).dutiesOf 5 ∧ (stMeter [] MetrS.init []).isTarget 4 = true)
    ∧ ((runAt 1009 []).evIn = [] ∧ (runAt 1009 []).rd R.METR_CTRL_EN = 0 ∧ (runAt 1009 []).rd R.METR_STAT_RBUSY = 0)
    ∧ ((stMeter [] MetrS.init []).evIn = [] ∧ (stMeter [] MetrS.init []).rd R.METR_CTRL_EN = 1
      ∧ (stMeter [] MetrS.init []).rd (R.METR_GgCTRL_EN 3) = 1 ∧ (stMeter [] MetrS.init []).rd (R.METR_GgSTAT_RUN 3) = 1
      ∧ (stMeter [] MetrS.init []).rd (R.METR_GgSTAT_PEND 3) = 0 ∧ (stMeter [] MetrS.init []).isStandby = false
      ∧ (stMeter [] MetrS.init []).wrote = [] ∧ (stMeter [] MetrS.init []).serves poA = true
      ∧ (stMeter [] MetrS.init []).onSnapshot = false ∧ stNotOwn.onSnapshot = true
      ∧ ∀ k < 7, (NMap.get [] (stMeter [] { MetrS.init with stream := (List.range 32).map (fun k => (k, [5, 9, 7])) } []).metr.stream
        ((stMeter [] MetrS.init []).metrInput 3 k)).take 2 = [5, 9])
    ∧ ((stCalc MetrS.init).evIn = [] ∧ (stCalc MetrS.init).isStandby = false ∧ (stCalc MetrS.init).wrote = [] ∧ (stCalc MetrS.init).rd R.METR_CTRL_EN = 1
      ∧ (∀ g < 4, (stCalc MetrS.init).rd (R.METR_GgCTRL_EN g) = 0)
      ∧ (∀ d < 8, (stCalc MetrS.init).rd (R.METR_TCc_CTRL_EN d) = if d = (7 : Fin 8).val then 1 else 0)
      ∧ (stCalc MetrS.init).rd (R.METR_TCc_STAT_RUN 7) = 1 ∧ (stCalc MetrS.init).rd (R.METR_TCc_CFG_FSRC 7) = 0) := by
  decide +kernel
theorem witness_MeteringCommands_keep :
    (let s := { stMeter [(R.METR_CTRL_SAVEN, 1)] MetrS.init [] with tick := 2000 };
      s.rd R.METR_STAT_RUN = 1 ∧ s.rd R.METR_CTRL_SAVEN = 1 ∧ s.boundary 2 = true ∧ s.rd R.METR_SVST_SBUSY = 0)
    ∧ (stMeter [(R.METR_SVST_SBUSY, 1)] MetrS.init []).rd R.METR_SVST_SBUSY = 1
    ∧ (stMeter [] { MetrS.init with save := some (0x20600000, 4, [5]) } []).metr.save = some (0x20600000, 4, [5])
    ∧ (stMeter [] { MetrS.init with op := some (2, 3) } []).metr.op = some (2, 3)
    ∧ ((runAt 1009 []).savedAt 0x20600000 = none ∧ (stMeter [] { MetrS.init with op := some (1, 3), opArea := 0x20600000 } []).metr.op = some (1, 3))
    ∧ (let s := stMeter [] { MetrS.init with po := [(15, pulseFar)] } []
      s.poRun 15 = true ∧ s.poS 15 = pulseFar ∧ pulseFar.owed ≠ 0 ∧ pulseFar.due ≤ 10000 * s.tick.toNat + 0
      ∧ pulseFar.start - 1 + 2 * s.pulseWidth 15 0 ≤ 10000 * s.tick.toNat + 0)
    ∧ ((PoS.init).owed = 0 ∧ 10000 * 1009 + 9999 < { pulseFar with due := 10100000 }.due)
    ∧ ({ pulseFar with on := true, start := 10090001, width := 9999 }.start - 1 + 9999 < 10000 * (1009 + 1)
      ∧ 10000 * (1009 + 1) ≤ { pulseFar with on := true, start := 10090001, width := 10000 }.start - 1 + 10000)
    ∧ (let s := stMeter [(R.METR_PBASE_PBASE, 261888)] MetrS.init []
      s.rd R.METR_STAT_RUN = 1 ∧ s.tick.toNat % 10 = 9 ∧ s.rd R.METR_PBASE_PBASE + 256 ≤ 262144
      ∧ s.rd (R.TIER_SRCs_STAT_USED 21) + 2056 ≤ 4096)
    ∧ ((runAt 1009 []).rd R.METR_STAT_RUN = 0 ∧ 1000 % 10 ≠ 9)
    ∧ ((stMeter [] MetrS.init []).unitRuns (.output 15) = true ∧ (stMeter [] MetrS.init []).unitRuns (.group 2) = false) := by
  decide +kernel
theorem savedTail_length : savedTail.length = 423 := by rw [savedTail, List.length_map, List.length_range]
theorem saved_valid (a : Nat) : copyGen (savedAt a) a 424 0x4D53 = some 4 := by
  have h := copyGen_copyClose [] a (0x4D53 + 2 ^ 16 + 2 ^ 32 * 4) savedTail 4 0x4D53 (by decide +kernel)
    (by rw [savedTail_length]; decide) (by decide) rfl
  rw [savedTail_length] at h; exact h
theorem saved_alone : copyGen (savedAt 0x20600000) (0x20600000 + 0x1000) 424 0x4D53 = none := by
  have h : memRead (savedAt 0x20600000) (0x20600000 + 0x1000) 2 = 0 := by
    have hl : savedWords.length = 424 := by rw [savedWords, List.length_cons, savedTail_length]
    unfold savedAt copyClose
    rw [hl, memRead_memWrite_other _ _ _ _ _ _ (by decide), memRead_memPutWords_other _ _ _ _ _ (by rw [hl]; decide)]; rfl
  unfold copyGen
  rw [h]; simp
theorem chosen_of (s : State) (m : NMap Byte) (a : Nat) (g h : Option Nat) (hm : s.mem = m)
    (h0 : copyGen m a 424 0x4D53 = g) (h1 : copyGen m (a + 0x1000) 424 0x4D53 = h) : s.savedAt a = chooseCopy g h := by
  subst hm; subst h0; subst h1; rfl
theorem stMeter_mem (fs : List (FieldRef × Nat)) (m : MetrS) (mem : NMap Byte) : (stMeter fs m mem).mem = mem := rfl
def stRestore : State := stMeter [] { MetrS.init with op := some (1, 3), opArea := 0x20600000 } (savedAt 0x20600000)
/-- A whole copy is chosen beside an area of zeros. -/
theorem witness_MeteringCommands_restore : stRestore.metr.opArea = 0x20600000 ∧ stRestore.savedAt 0x20600000 = some (0, 4) := by
  have hm : stRestore.mem = savedAt 0x20600000 := stMeter_mem _ _ _
  rw [chosen_of stRestore (savedAt 0x20600000) 0x20600000 (some 4) none hm (saved_valid _) saved_alone]; exact ⟨rfl, rfl⟩

/-! ### Analogue inputs -/

/-- The sequencers run at tick 1009; converter 1 converts channels 47 and 59, converter 0 channel 0. -/
def stAdc (fs : List (FieldRef × Nat)) (x : AdcsS) : State :=
  { runAt 1009 ([(R.ADCS_STAT_RUN, 1), (R.ADCS_NENT_N0, 1), (R.ADCS_NENT_N1, 2), (R.ADCS_SEQk_e_CH 0 0, 0), (R.ADCS_SEQk_e_DIV 0 0, 1),
      (R.ADCS_SEQk_e_CH 1 0, 47), (R.ADCS_SEQk_e_DIV 1 0, 10), (R.ADCS_SEQk_e_PHASE 1 0, 9), (R.ADCS_SEQk_e_CH 1 1, 59),
      (R.ADCS_SEQk_e_DIV 1 1, 1), (R.ADCS_CHn_CFG_EN 47, 1), (R.ADCS_CHn_CFG_RANGE 47, 1), (R.ADCS_CHn_CFG_EN 0, 1),
      (R.ADCS_CALe_GAIN_GAIN 95, 0x1F4001), (R.ADCS_CALe_ZOFF_ZOFF 95, 2 ^ 32 - 77), (R.ADCS_WINn_LO_LO 47, 2 ^ 32 - 100),
      (R.ADCS_WINn_HI_HI 47, 1000), (R.ADCS_CBASE_CBASE, 0x600000)] ++ fs) with
    adcs := x, shadow := planeWr (planeWr [] (R.ADCS_CALe_GAIN_GAIN 95) 0x1F0000) (R.ADCS_CALe_ZOFF_ZOFF 95) 3 }
def ptsA (f : Int × Int) : CalPts := ⟨47, 1, some (0, 0), some f⟩
def capA (left : Nat) : CapRun := ⟨47, 1, 2, 4, left, -7, 1000, 13⟩
def calTail : List Nat := (List.range 199).map fun i => if i = 7 then 0x4E2111 + 2 ^ 32 * 9 else if i = 198 then 2 ^ 48 + 5 else 0
def calHeld (a : Nat) : NMap Byte := copyClose [] a ((0x4143 + 2 ^ 16 + 2 ^ 32 * 0xFFFFFFFF) :: calTail)
def commitAt (w : Nat) : AdcsS := { AdcsS.init with commit := [(47, w)] }
def stAdcSeal (w : Word) : State := { stAdc [(R.ADCS_STAT_RUN, 0)] AdcsS.init with coll := [(R.ADCS_CHn_CFG 59, w)] }
theorem witness_AnalogueInputCommands :
    (let s := stAdc [] AdcsS.init;
      s.evIn = [] ∧ s.rd R.ADCS_STAT_RUN = 1 ∧ s.isStandby = false ∧ (s.ownList 1)[NMap.get 0 s.adcs.done 1]? = some 47
      ∧ s.adcs.held = none ∧ s.wrote = [] ∧ (s.setCycle 1800).endsOnZero 47 = false ∧ s.adcs.winOld = [] ∧ s.serves poA = true
      ∧ NMap.get 0 s.adcs.commit 47 = 0 ∧ NMap.get 0 s.adcs.win 47 ≠ 1 ∧ NMap.get 0 s.adcs.win 47 ≠ 2)
    ∧ NMap.get 0 (stAdc [] (commitAt 60541200)).adcs.commit 47 = 60541199 + 1 ∧ 60541199 + 600 < 60000 * 1009 + 1800
    ∧ (let s := stAdc [] { AdcsS.init with done := [(1, 1)], urg := [(1, some (59, 13, 1000))] };
      (s.ownList 1)[NMap.get 0 s.adcs.done 1]? = some 59 ∧ NMap.get none s.adcs.urg 1 = some (59, 13, 1000) ∧ s.isTarget 13 = true)
    ∧ ((runAt 1009 []).rd R.ADCS_STAT_RUN = 0 ∧ stNotOwn.isStandby = true ∧ stNotOwn.onSnapshot = true)
    ∧ (let s := stAdc [(R.PAIR_STAT_STRAP, 1), (R.PAIR_STAT_STATE, 2)] { AdcsS.init with urg := [(1, some (59, 13, 1000))] }
      s.isStandby = true ∧ (s.ownList 1)[NMap.get 0 s.adcs.done 1]? = some 59 ∧ NMap.get none s.adcs.urg 1 = some (59, 13, 1000))
    ∧ (let s := stAdc [] { AdcsS.init with urg := [(1, some (59, 13, 51800))] };
      NMap.get none s.adcs.urg 1 = some (59, 13, 51800) ∧ 51800 = 50000 + 1800 ∧ 0 < s.physOf 13 ∧ s.adcBusy 1 50000 = true)
    ∧ (let s := stAdc [] AdcsS.init;
      s.rd (R.ADCS_CHn_CFG_EN 47) = 1 ∧ s.adcBusy 1 50000 = false ∧ s.adcBusy 1 58200 = false ∧ ¬ (60 : BitVec 6).toNat < 60) := by
  decide +kernel
theorem witness_AnalogueInputCommands_calibrate :
    (let s := stAdc [] AdcsS.init;
      s.listed 47 = true ∧ (1 : BitVec 1).toNat = s.rd (R.ADCS_CHn_CFG_RANGE 47) ∧ s.rd R.ADCS_CALST_BUSY = 0
      ∧ 4 ≤ (16 : BitVec 5).toNat ∧ (16 : BitVec 5).toNat ≤ 16 ∧ 16 < (17 : BitVec 5).toNat ∧ 48 ≤ (48 : BitVec 6).toNat)
    ∧ ((stAdc [] { AdcsS.init with pts := some (ptsA (2048000, 2 ^ 24)) }).adcs.pts = some ⟨47, 1, some (0, 0), some (2048000, 2 ^ 24)⟩
      ∧ 2 ^ 23 ≤ ((2 : Int) ^ 24 - 0).natAbs ∧ Int.fdiv (2 * (2 ^ 24 * (2048000 - 0)) + 2 ^ 24) (2 * 2 ^ 24) = 0x1F4000
      ∧ ¬ 100 * Int.fdiv (2 * (2 ^ 24 * (3000000 - 0)) + 2 ^ 24) (2 * 2 ^ 24) ≤ 105 * 0x1F4000 ∧ ¬ 2 ^ 23 ≤ ((100 : Int) - 0).natAbs)
    ∧ ((stAdc [] { AdcsS.init with cap := some (capA 0) }).adcs.cap = some (capA 0) ∧ (capA 0).left = 0 ∧ (capA 1).left ≠ 0)
    ∧ ((stAdc [] AdcsS.init).rd R.ADCS_STAT_LBUSY = 0 ∧ (stAdc [(R.ADCS_STAT_RUN, 0)] AdcsS.init).rd R.ADCS_STAT_RUN = 0
      ∧ (stAdc [(R.ADCS_STAT_LBUSY, 1)] AdcsS.init).rd R.ADCS_STAT_LBUSY = 1)
    ∧ ((stAdc [] { AdcsS.init with op := some (1, 13) }).adcs.op = some (1, 13)
      ∧ (stAdc [] { AdcsS.init with op := some (2, 13) }).adcs.op = some (2, 13) ∧ (stAdc [] AdcsS.init).calChosen 0x20600000 = none)
    ∧ ((stAdcSeal 2).evIn = [] ∧ (stAdcSeal 2).coll = [(R.ADCS_CHn_CFG 59, 2)] ∧ (stAdcSeal 2).adcCode ≠ 0)
    ∧ (let s := { stAdc [(R.ADCS_STAT_RUN, 0), (R.ADCS_NENT_N0, 0), (R.ADCS_NENT_N1, 0)] AdcsS.init with coll := [(R.ADCS_CHn_CFG 59, 1)] };
      s.adcCode = 0 ∧ s.rd R.ADCS_STAT_RUN = 0)
    ∧ (let s := stAdc [(R.ADCS_PBASE_PBASE, 262016)] { AdcsS.init with pen := true };
      s.adcs.pen = true ∧ s.tick.toNat % 10 = 9 ∧ s.rd R.ADCS_PBASE_PBASE + 128 ≤ 262144
      ∧ s.rd (R.TIER_SRCs_STAT_USED 23) + 1032 ≤ 4096)
    ∧ AdcsS.init.pen = false := by
  decide +kernel
theorem calTail_length : calTail.length = 199 := by rw [calTail, List.length_map, List.length_range]
theorem cal_valid (a : Nat) : copyGen (calHeld a) a 200 0x4143 = some 0xFFFFFFFF := by
  have h := copyGen_copyClose [] a (0x4143 + 2 ^ 16 + 2 ^ 32 * 0xFFFFFFFF) calTail 0xFFFFFFFF 0x4143 (by decide +kernel)
    (by rw [calTail_length]; decide) (by decide) rfl
  rw [calTail_length] at h; exact h
theorem cal_alone : copyGen (calHeld 0x20600000) (0x20600000 + 0x800) 200 0x4143 = none := by
  have h : memRead (calHeld 0x20600000) (0x20600000 + 0x800) 2 = 0 := by
    have hl : ((0x4143 + 2 ^ 16 + 2 ^ 32 * 0xFFFFFFFF) :: calTail).length = 200 := by rw [List.length_cons, calTail_length]
    unfold calHeld copyClose
    rw [hl, memRead_memWrite_other _ _ _ _ _ _ (by decide), memRead_memPutWords_other _ _ _ _ _ (by rw [hl]; decide)]; rfl
  unfold copyGen
  rw [h]; simp
theorem cal_of (s : State) (m : NMap Byte) (a : Nat) (g h : Option Nat) (hm : s.mem = m)
    (h0 : copyGen m a 200 0x4143 = g) (h1 : copyGen m (a + 0x800) 200 0x4143 = h) : s.calChosen a = chooseCopy g h := by
  subst hm; subst h0; subst h1; rfl
def stCalLoad (m : NMap Byte) : State := { stAdc [] { AdcsS.init with op := some (2, 13), opArea := 0x20600000 } with mem := m }
theorem stCalLoad_mem (m : NMap Byte) : (stCalLoad m).mem = m := rfl
/-- A whole calibration copy is chosen beside an area of zeros. -/
theorem witness_AnalogueInputCommands_load : (stCalLoad (calHeld 0x20600000)).adcs.opArea = 0x20600000
    ∧ (stCalLoad (calHeld 0x20600000)).calChosen 0x20600000 = some (0, 0xFFFFFFFF) := by
  rw [cal_of _ (calHeld 0x20600000) 0x20600000 (some 0xFFFFFFFF) none (stCalLoad_mem _) (cal_valid _) cal_alone]; exact ⟨rfl, rfl⟩

/-! ### The safety channel -/

/-- Ranges that a safety seal accepts. -/
def safeSound : List (FieldRef × Nat) :=
  [(R.SAFE_CFG_GRACE, 1), (R.SAFE_TPCFG_TPPER, 100), (R.SAFE_TPCFG_TPW, 10), (R.SAFE_OTCFG_OTPER, 8000), (R.SAFE_OTCFG_RBT, 5)]
    ++ (List.range 8).flatMap fun c => [(R.SAFE_CONc_CFG_LEN c, 4), (R.SAFE_CONc_CFG_SKEW c, 3), (R.SAFE_CONc_CFG_TXPER c, 100),
      (R.SAFE_CONc_TMO_TMO c, 50), (R.SAFE_CONc_TMO_NCLR c, 2)]
/-- The channel in a state at tick 1000, connection 7 receiving and connection 0 sending. -/
def stSafe (state : Nat) (fs : List (FieldRef × Nat)) (x : SafeS) : State :=
  { runAt 1000 (safeSound ++ [(R.SAFE_STAT_STATE, state), (R.DIOP_RSTAT_WHOLD, 0), (R.SAFE_OUT_EN, 0x83),
      (R.SAFE_CONc_CFG_EN 7, 1), (R.SAFE_CONc_CFG_PSEL 7, 1), (R.SAFE_CONc_RXID_ID 7, 0x80000001), (R.SAFE_CONc_DMACL_DMACL 7, 0x55667788),
      (R.SAFE_CONc_DMACH_DMACH 7, 0x3344), (R.SAFE_CONc_SEQ_SEQ 7, 2 ^ 32 - 1), (R.SAFE_CONc_CFG_EN 0, 1), (R.SAFE_CONc_CFG_DIR 0, 1)]
      ++ fs) with
    safe := x, cores := [(7, coreA), (13, coreA)],
    eth := [(0, { EthS.init with isSealed := true }), (1, { EthS.init with isSealed := true })] }
def safeQuiet : SafeS := { SafeS.init with cmd := 0x83, con := [(7, { ConS.init with fresh := true })] }
def conHeld (x : ConS) : SafeS := { SafeS.init with cmd := 0x83, con := [(7, x)], armed := true }
def winA (seq : Nat) (net : Bool) (body : List Nat) : PairWin := ⟨seq, net, body, [9, 8, 7, 255], 1000⟩
def jobSafe (fs : List (FieldRef × Nat)) (x : SafeS) : State :=
  { stSafe 0 ([(R.TIER_JOBn_CFG_CORE 127, 7), (R.SAFE_STAT_SEALED, 1), (R.SAFE_CONc_CFG_EN 0, 0)] ++ fs) x with
    tier := { TierS.init with jobs := [(127, { JobS.init with isSealed := true, lastOk := true })] } }
def bodyOf (net : Bool) (seq : Nat) : List Nat :=
  ([1, b2n net, 0x83, 4] ++ beBytes 4 0x80000001 ++ beBytes 4 seq ++ beBytes 8 5 ++ [9, 8, 7, 255]).drop 2
theorem witness_SafetyChannelCommands :
    (let s := stSafe 2 [] safeQuiet;
      s.evIn = [] ∧ s.isStandby = false ∧ s.onSnapshot = false ∧ s.safeCmd = 0x83 ∧ s.safe.cmd = 0x83 ∧ NMap.get 0 s.safe.changed 7 = 0
      ∧ (∀ o < 8, ((0x8383 : BitVec 16).getLsbD o && (0x8383 : BitVec 16).getLsbD (8 + o)) = s.safeCmd.testBit o)
      ∧ (∀ o < 8, (((0x0383 : BitVec 16).getLsbD o && (0x0383 : BitVec 16).getLsbD (8 + o)) = s.safeCmd.testBit o ↔ o ≠ 7))
      ∧ s.safeCmd.testBit 2 = false ∧ ((0x8787 : BitVec 16).getLsbD 2 && (0x8787 : BitVec 16).getLsbD 10) = true)
    ∧ (stNotOwn.isStandby = true ∧ stNotOwn.onSnapshot = true ∧ stNotOwn.evIn = [])
    ∧ (let s := stSafe 2 [] safeQuiet;
      s.tick.toNat % s.rd R.SAFE_OTCFG_OTPER = (1 : Fin 8).val * (s.rd R.SAFE_OTCFG_OTPER / 8) ∧ s.safeCmd.testBit 1 = true
      ∧ NMap.get 0 s.safe.tests 1 < 2 ∧ s.tick.toNat % s.rd R.SAFE_OTCFG_OTPER ≠ (7 : Fin 8).val * (s.rd R.SAFE_OTCFG_OTPER / 8)
      ∧ s.rd (ostatBit 8 1) = 0)
    ∧ (let s := stSafe 2 [] { safeQuiet with graceEnd := 1000, prevD := 4 };
      s.rd R.SAFE_STAT_STATE = 2 ∧ s.safe.graceEnd ≤ s.tick.toNat ∧ s.safe.prevD ≠ 0 ∧ (stSafe 1 [] safeQuiet).rd R.SAFE_STAT_STATE ≠ 2)
    ∧ ((stSafe 1 [] safeQuiet).partOf 7 = 8 ∧ (stSafe 1 [] safeQuiet).serves ⟨7, 2000⟩ = true
      ∧ (stSafe 1 [] safeQuiet).partOf 13 ≠ 8 ∧ (stSafe 1 [] safeQuiet).serves ⟨13, 2000⟩ = true)
    ∧ (let s := jobSafe [(R.SAFE_CONc_CFG_EN 7, 0)] { safeQuiet with armFirst := some 990, started := true };
      s.safe.armFirst = some 990 ∧ s.tick.toNat ≤ 990 + 10 ∧ ¬ s.tick.toNat ≤ 989 + 10 ∧ s.rd R.SAFE_STAT_STATE = 0
      ∧ s.safe.started = true ∧ safeQuiet.started = false ∧ s.rd R.SAFE_STAT_SEALED = 1 ∧ s.safe.detected = 0 ∧ s.causes = 0
      ∧ s.safetyJobs ≠ [] ∧ (∀ n ∈ s.safetyJobs, (s.job n).lastOk = true) ∧ (∀ i < 16, s.untested i = false)
      ∧ ∀ c ∈ s.receivers, s.unpaired c = false)
    ∧ (let s := { stSafe 0 [(R.SAFE_CONc_CFG_EN 7, 0), (R.SAFE_CONc_CFG_EN 0, 0)] safeQuiet with coll := [(R.SAFE_INi_CFG 15, 0xFF1)] };
      s.rd R.SAFE_STAT_STATE = 0 ∧ s.safeCode = 0
      ∧ { stSafe 0 [(R.SAFE_CFG_GRACE, 0)] safeQuiet with coll := [(R.SAFE_INi_CFG 15, 0xFF1)] }.safeCode = 1)
    ∧ (let s := stSafe 0 [] safeQuiet;
      s.rd (R.SAFE_CONc_CFG_EN 0) = 1 ∧ s.rd (R.SAFE_CONc_CFG_DIR 0) = 1 ∧ s.gated = false ∧ s.portSealed 0 = true ∧ s.portSealed 2 = true
      ∧ s.rd (R.SAFE_CONc_CFG_DIR 7) ≠ 1 ∧ (s.conS 0).txAt = 0 ∧ s.rd R.SAFE_STAT_STATE = 0
      ∧ (runAt 1000 [(R.PAIR_STAT_STRAP, 1)]).gated = true)
    ∧ (let s := stSafe 2 [] safeQuiet;
      s.rd (R.SAFE_CONc_CFG_EN 7) = 1 ∧ s.rd (R.SAFE_CONc_CFG_DIR 7) = 0 ∧ s.isStandby = false
      ∧ s.portSealed (s.rd (R.SAFE_CONc_CFG_PSEL 7) + 2 * b2n true) = true ∧ s.rd (R.SAFE_CONc_CFG_LEN 7) = [9, 8, 7, 255].length
      ∧ (0x334455667788 : BitVec 48).toNat = s.conDmac 7 ∧ (s.conS 7).win = none ∧ (s.conS 7).acc = 0 ∧ (s.conS 7).fresh = true
      ∧ s.rd (R.SAFE_CONc_SEQ_SEQ 7) = 2 ^ 32 - 1 ∧ (0 + 2 ^ 32 - (2 ^ 32 - 1)) % 2 ^ 32 = 1
      ∧ s.copySound 7 true 0x334455667788 [1] = false ∧ s.portSealed (s.rd (R.SAFE_CONc_CFG_PSEL 7) + 2 * b2n true) = true
      ∧ s.portSealed (s.rd (R.SAFE_CONc_CFG_PSEL 7) + 2 * b2n false) = true
      ∧ (runAt 1000 []).portSealed 0 = false)
    ∧ (let s := stSafe 2 [] (conHeld { ConS.init with acc := 900, tmo := 951 });
      (s.conS 7).acc ≠ 0 ∧ (s.conS 7).fresh = false ∧ ¬ (1 ≤ (5 + 2 ^ 32 - (2 ^ 32 - 1)) % 2 ^ 32 ∧ (2 ^ 31 + 2 ^ 32 - (2 ^ 32 - 1)) % 2 ^ 32 < 2 ^ 31)
      ∧ s.safe.armed = true ∧ (s.conS 7).tmo + s.rd (R.SAFE_CONc_TMO_TMO 7) ≤ s.tick.toNat + 1
      ∧ s.tick.toNat + 1 < 952 + s.rd (R.SAFE_CONc_TMO_TMO 7))
    ∧ (let w := winA 0 false (bodyOf false 0);
      (winA 0 false (bodyOf false 0)).seq = (0 : Word).toNat ∧ w.net ≠ true ∧ w.body = bodyOf true 0 ∧ (winA 0 false [5]).body ≠ bodyOf true 0
      ∧ w.seq < 2 ^ 32 ∧ w.data.length ≤ 64 ∧ (∀ b ∈ w.data, b < 256) ∧ (1 + 2 ^ 32 - w.seq) % 2 ^ 32 = 1 ∧ w.last ≤ 1000
      ∧ 1000 < { w with last := 1001 }.last) := by
  refine ⟨by decide +kernel, by decide, by decide +kernel, by decide +kernel, by decide +kernel, by decide +kernel, by decide +kernel,
    by decide +kernel, by decide +kernel, by decide +kernel, by decide +kernel⟩

/-! ### Ethernet, time and the backup clock -/

/-- A frame to all from 01:02:03:04:05:06 with an EtherType and a payload. -/
def frameTo (dest type : Nat) (payload : List Nat) : List Nat :=
  beBytes 6 dest ++ [1, 2, 3, 4, 5, 6] ++ beBytes 2 type ++ payload
def plainFrame : List Nat := frameTo 0xFFFFFFFFFFFF 0x0800 [9, 8, 7, 255]
/-- The same with a redundancy trailer: sequence number 77 and a LanId. -/
def prpFrame (lan : Nat) : List Nat := plainFrame ++ beBytes 2 77 ++ beBytes 2 (4096 * lan + 10) ++ [0x88, 0xFB]
/-- Interfaces 1 and 2 pass frames; their receive rings are at 0x40000 with a buffer at 0x50000, transmit rings at 0x48000. -/
def stNet (tick : DWord) (fs : List (FieldRef × Nat)) (rx : Nat) (tx : List Nat) (e : EthS) : State :=
  { runAt tick ([(R.ETHN_iCTRL_EN 1, 1), (R.ETHN_iCTRL_EN 2, 1), (R.ETHN_pSTAT_LINK 1, 1), (R.ETHN_pSTAT_LINK 3, 1), (R.ETHN_pSTAT_LINK 4, 1),
      (R.ETHN_PRP_LCI, 200), (R.ETHN_PRP_EFT, 40), (R.ETHN_iRXR_BASE 1, 0x40000), (R.ETHN_iRXN_N 1, 4), (R.ETHN_iSTAT_RXNEXT 1, 3),
      (R.ETHN_iRXR_BASE 2, 0x40030), (R.ETHN_iRXN_N 2, 2), (R.ETHN_iTXR_BASE 1, 0x48000), (R.ETHN_iTXN_N 1, 2), (R.ETHN_iSTAT_TXNEXT 1, 1),
      (R.ETHN_pMACL_MAC 1, 0x11), (R.ETHN_pMACL_MAC 3, 0x11)] ++ fs) with
    eth := [(1, { e with isSealed := true }), (2, { e with isSealed := true })],
    mem := putWords (putWords (putWords [] 0x40030 [rx]) 0x48010 tx) 0x50000 (txData ++ [carryWord txData]) }
where
  txData : List Nat := [0x1111, 0x2222, 0x3333, 0x4444, 0x5555, 0x6666, 0x7777, 0x8888]
/-- A transmit descriptor word for port 1 of interface 1: length 60, and the bits given. -/
def txWord (len mask flags off : Nat) : Nat :=
  0x50000 + 2 ^ 23 + 2 ^ 24 * len + 2 ^ 35 * mask + 2 ^ 40 * flags + 2 ^ 44 * off
def sealNet (base : Nat) (w : Word) : State :=
  { runAt 1000 [(R.ETHN_iRXR_BASE 2, base), (R.ETHN_iTXR_BASE 2, 0x48000), (R.ETHN_iTXN_N 2, 1), (R.ETHN_pMACL_MAC 4, 5)] with
    coll := [(R.ETHN_iRXN 2, w)] }
def stClock (fs : List (FieldRef × Nat)) (x : PtptS) (r : RtcbS) : State :=
  { runAt 1000 fs with ptpt := x, rtcb := r }
def netBusy : EthS := { EthS.init with busy := true, supAt := 1, lanA := 1, lanB := 900, dup := [⟨0x010203040506, 77, 700⟩] }
theorem witness_NetworkAndClockCommands_receive :
    (let s := stNet 1000 [] (0x50000 + 2 ^ 23) [] EthS.init;
      s.evIn = [] ∧ (s.ethOf 1).isSealed = true ∧ s.rd (R.ETHN_iCTRL_EN 1) = 1 ∧ s.rd (R.ETHN_pSTAT_LINK 3) = 1 ∧ s.isStandby = false
      ∧ s.wrote = [] ∧ s.serves poA = true ∧ stNotOwn.isStandby = true ∧ (s.ethOf 0).isSealed = false ∧ s.rd (R.ETHN_iRXR_BASE 1) + 16 * s.rd (R.ETHN_iSTAT_RXNEXT 1) = 0x40030)
    ∧ (etherType (frameTo 0x11 0x8808 [1]) = 0x8808 ∧ etherType (frameTo 0x11 0x88B5 []) = 0x88B5 ∧ etherType plainFrame = 0x0800
      ∧ (stNet 1000 [] 0 [] EthS.init).passes 3 (beAt plainFrame 0 6) = true
      ∧ (stNet 1000 [] 0 [] EthS.init).passes 3 (beAt (frameTo 0x5 0x0800 []) 0 6) = false)
    ∧ (rctOf plainFrame = none ∧ rctOf (prpFrame 11) = some (77, 11) ∧ rctOf (prpFrame 10) = some (77, 10) ∧ (prpFrame 11).length = 24
      ∧ 1522 < (frameTo 0x11 0x0800 (List.replicate 1509 7)).length)
    ∧ (let m := (stNet 1000 [] (0x50000 + 2 ^ 23) [] EthS.init).mem; let w0 := memRead m 0x40030 8;
      w0 % 2 ^ 23 = 0x50000 ∧ w0.testBit 23 = true ∧ 0x50000 + (8 * ((18 + 7) / 8) + 8) ≤ 0x800000 ∧ 0x40030 + 16 ≤ 0x50000
      ∧ (memRead (stNet 1000 [] 0x50000 [] EthS.init).mem 0x40030 8).testBit 23 = false)
    ∧ ((stNet 1000 [] 0 [] EthS.init).liveDup { netBusy with isSealed := true } = [⟨0x010203040506, 77, 700⟩]
      ∧ (stNet 1100 [] 0 [] EthS.init).liveDup { netBusy with isSealed := true } = []
      ∧ beAt (prpFrame 11) 6 6 = 0x010203040506 ∧ (stNet 1000 [] 0 [] EthS.init).wordMark (0x40030 / 8) = .clean) := by
  refine ⟨by decide +kernel, by decide +kernel, by decide +kernel, by decide +kernel, by decide +kernel⟩

theorem witness_NetworkAndClockCommands_transmit :
    (let s := stNet 1000 [] 0 [txWord 60 2 0 0, 7] netBusy;
      s.evIn = [] ∧ (s.ethOf 1).busy = true ∧ (s.ethOf 1).isSealed = true ∧ s.rd (R.ETHN_iCTRL_EN 1) = 1 ∧ s.txHeld = false
      ∧ s.rd (R.ETHN_iTXR_BASE 1) + 16 * s.rd (R.ETHN_iSTAT_TXNEXT 1) = 0x48010 ∧ (txWord 60 2 0 0).testBit 23 = true
      ∧ s.wordMark (0x48010 / 8) = .clean ∧ s.wordMark (0x48010 / 8 + 1) = .clean ∧ s.wrote = [] ∧ s.serves poA = true
      ∧ { s with cmns := { CmnsS.init with err := [(0x48018 / 8, .poisoned)] } }.wordMark (0x48010 / 8 + 1) = .poisoned)
    ∧ (memRead (stNet 1000 [] 0 [txWord 60 2 0 0, 7] netBusy).mem 0x48010 8 = txWord 60 2 0 0
      ∧ (memRead (stNet 1000 [] 0 [0, 0] netBusy).mem 0x48010 8).testBit 23 = false)
    ∧ ((txDesc (txWord 60 2 0 0)).bad 1 = false ∧ (txDesc (txWord 13 2 0 0)).bad 1 = true ∧ (txDesc (txWord 60 10 1 0)).bad 1 = false
      ∧ (txDesc (txWord 60 10 1 0)).prp = true ∧ (txDesc (txWord 60 2 2 10)).onestep = true ∧ (txDesc (txWord 60 2 2 10)).bad 1 = false
      ∧ (txDesc (txWord 60 2 2 10)).udp = false ∧ (txDesc (txWord 60 2 2 10)).prp = false)
    ∧ ((maskPorts (txDesc (txWord 60 2 0 0)).pmask).filter (stNet 1000 [] 0 [] netBusy).linkUp ≠ []
      ∧ (maskPorts (txDesc (txWord 60 2 0 0)).pmask).filter (stNet 1000 [(R.ETHN_pSTAT_LINK 1, 0)] 0 [] netBusy).linkUp = [])
    ∧ stNet.txData.length = ((txDesc (txWord 60 2 0 0)).len + 7) / 8
    ∧ verifyCheck (stNet.txData.map (· + 1)) (carryWord stNet.txData) ≠ 0 := by
  refine ⟨by decide +kernel, by decide +kernel, by decide +kernel, by decide +kernel, by decide, by decide +kernel⟩
theorem witness_NetworkAndClockCommands_buffer :
    (stNet 1000 [] 0 [txWord 60 2 0 0, 7] netBusy).buffer true 0x50000 stNet.txData :=
  buffer_holds _ _ _ _ rfl rfl (by decide +kernel) (by decide +kernel)

theorem witness_NetworkAndClockCommands_clocks :
    (let s := stNet 1000 [] 0 [] netBusy;
      s.gated = false ∧ (s.ethOf 1).supAt + 10 * s.rd R.ETHN_PRP_LCI ≤ 2001 ∧ ¬ (900 + 10 * s.rd R.ETHN_PRP_LCI ≤ 1001)
      ∧ ¬ max 1 (s.ethOf 1).lanA + 30 * s.rd R.ETHN_PRP_LCI ≤ 1001 ∧ max 1 1 + 30 * s.rd R.ETHN_PRP_LCI ≤ 6001
      ∧ (s.ethOf 1).lanB ≠ 0 ∧ s.rd (R.ETHN_iPRPST_LANAS 1) = 0 ∧ ¬ max 1 900 + 30 * s.rd R.ETHN_PRP_LCI ≤ 6001)
    ∧ ((stNet 1000 [] 0 [] netBusy).rd (R.ETHN_pSTAT_LINK 4) = b2n true ∧ (stNet 1000 [] 0 [] netBusy).rd (R.ETHN_pSTAT_LINK 0) ≠ b2n true)
    ∧ ((sealNet 0x40000 1).rd (R.ETHN_iCTRL_EN 2) = 0 ∧ (sealNet 0x40000 1).serves poA = true ∧ (sealNet 0x40000 1).ethCode 2 = 0 ∧ (sealNet 0x40001 1).ethCode 2 = 1
      ∧ (sealNet 0x40000 1).coll = [(R.ETHN_iRXN 2, 1)])
    ∧ (((stClock [] PtptS.init RtcbS.init).setCycle 59999).counterRaw < 2 ^ 64
      ∧ 2 ^ 64 ≤ ((stClock [] { PtptS.init with base := 2 ^ 64 - 10 } RtcbS.init).setCycle 100).counterRaw)
    ∧ ((stClock [] PtptS.init RtcbS.init).phase = .running
      ∧ PtptS.init.clk ≤ ((stClock [] PtptS.init RtcbS.init).setCycle 100).counterClocks 100
      ∧ PtptS.init.stepAt ≤ ((stClock [] PtptS.init RtcbS.init).setCycle 100).counterClocks 100
      ∧ ((stClock [] PtptS.init RtcbS.init).setCycle 100).counterClocks 100 < { PtptS.init with stepAt := 42 }.stepAt
      ∧ ¬ (-1000000000 ≤ (0x80000000 : Word).toInt) ∧ (1000000000 : Word).toInt ≤ 1000000000)
    ∧ (((stClock [] PtptS.init RtcbS.init).setCycle 100).counterRaw + (stClock [] PtptS.init RtcbS.init).counterStep
          + (0xC4653600 : Word).toInt * 2 ^ 32 < 0
      ∧ 2 ^ 64 ≤ ((stClock [] { PtptS.init with base := 2 ^ 64 - 10, clk := 41 } RtcbS.init).setCycle 100).counterRaw + (stClock [] PtptS.init RtcbS.init).counterStep
          + (5 : Word).toInt * 2 ^ 32)
    ∧ ((runAt 1000 []).rd R.RTCB_STAT_BUSY = 0 ∧ (runAt 1000 [(R.RTCB_STAT_BUSY, 1)]).rd R.RTCB_STAT_BUSY = 1 ∧ stNotOwn.isStandby = true)
    ∧ ({ RtcbS.init with crossing := [(R.RTCB_SET, (5 : BitVec 48).toNat % 2 ^ 32), (R.RTCB_SET + 4, (5 : BitVec 48).toNat / 2 ^ 32)] }.crossing
        = [(R.RTCB_SET, 5), (R.RTCB_SET + 4, 0)] ∧ RtcbS.init.crossing = [] ∧ RtcbS.init.setTo = none ∧ RtcbS.init.dst = false)
    ∧ ((32768 : Int) ≤ ↑(min 65535 (0 + 32768)) + trimPulses 0 0 ∧ ¬ (32768 : Int) ≤ ↑(min 65535 (0 + 32768)) + trimPulses (-4096) 5
      ∧ (stClock [(R.RTCB_STAT_SUMMER, 1)] PtptS.init RtcbS.init).rd R.RTCB_STAT_SUMMER = 1
      ∧ (stClock [] PtptS.init RtcbS.init).rd R.RTCB_STAT_SUMMER = 0
      ∧ (stClock [(R.RTCB_ALMk_ARM 1, 1)] PtptS.init RtcbS.init).rd (R.RTCB_ALMk_ARM 1) = 1)
    ∧ (RtcbS.init.onVbak = false ∧ 2699 < 2700 ∧ { RtcbS.init with onVbak := true }.onVbak = true ∧ 2700 + 100 ≤ 2800) := by
  refine ⟨by decide +kernel, by decide +kernel, by decide +kernel, by decide +kernel, by decide, by decide +kernel, by decide,
    by decide, by decide +kernel, by decide⟩

/-! ### The pair and its referee -/

/-- A module with a strap (1 A, 2 B, 3 referee) in a state of the pair, the registers given, and the pair's own state. -/
def stPair (strap state : Nat) (tick : DWord) (fs : List (FieldRef × Nat)) (x : PairS) : State :=
  { runAt tick ([(R.PAIR_STAT_STRAP, strap), (R.PAIR_STAT_STATE, state), (R.PAIR_CFG_LOCALMAX, 5), (R.PAIR_RCFG_MISSN, 3),
      (R.PAIR_RCFG_HWFN, 2), (R.PAIR_RCFG_ROLEWAIT, 3)] ++ fs) with pair := x }
/-- A link that is up, sealed, with a hash of the tick's end. -/
def linked : PairS :=
  { PairS.init with
    trained := true, broken := false, sealedP := true, sealedR := true, keyL := 77, keyR := 99, nonceOwn := 5, noncePeer := 6,
    own := some (9, 12345), msgSeq := 2 ^ 32 - 1, refSeq := 10, refSeen := 995, heart := 40, peer := 3 }
/-- The standby's snapshot: one item of each kind for tick 1000. -/
def itemOf (kind unit : Nat) : SnapItem := ⟨1000, kind, unit, 500⟩
def stFollowing (it : SnapItem) : State := stPair 2 2 1000 [(R.PAIR_STAT_INSTEP, 1), (R.DIOP_DIFILT_DIFILT, 1)] { linked with items := [it, ⟨1001, 1, 0, 7⟩], hiTick := 1001, hiCyc := 600 }
/-- Key slots 1 and 2 with keys for the pair, and the group of the pair written but not sealed. -/
def stPairSeal (w rw : Word) (keyed : Bool) : State :=
  let s := runAt 0 [(R.TRST_SLOTs_STATE 1, 1), (R.TRST_SLOTs_STATE 2, 1), (R.PAIR_STAT_STRAP, 1)]
  { s with
    phase := .setup, coll := if rw = 0 then [(R.PAIR_CFG, w)] else [(R.PAIR_RCFG, rw)],
    trst := { s.trst with
      slots := if keyed then [(2, ⟨2, 64, 0, 2, 1, 55, s.wrapKey 1 0, false⟩), (4, ⟨2, 64, 3, 3, 1, 66, s.wrapKey 2 3, false⟩)] else [] } }
/-- The two members as a referee sees them: both answered, with the states given. -/
def seenAs (state : Nat) (answered : Bool) (missed : Nat) : RefMember :=
  { seq := 20, seen := 1000, health := state, answered := answered, missed := missed, hwf := 0 }
def stReferee (tick : DWord) (view : Nat) (a b : RefMember) : State :=
  stPair 3 7 tick [(R.PAIR_RSTAT_VIEW, view), (R.PAIR_RCFG_PREF, 1)] { linked with memA := a, memB := b, poll := 33 }
/-- A slot whose copy A is valid and whose copy B is blank opens as copy A. -/
theorem keyTransfer_of (s : State) (slot bit : Nat) (c : SlotCopy) (ha : s.slotCopy (2 * slot) = c)
    (hb : s.slotCopy (2 * slot + 1) = SlotCopy.zero) (hs : s.rd (R.TRST_SLOTs_STATE slot) = 1) (ht : c.torn = false)
    (hg : (c.gen != 0) = true) (hw : c.wrap = s.wrapKey slot c.bind) (hu : c.typ = 2 ∧ c.use.testBit bit = true) :
    s.keyTransfer slot bit = some c.key := by
  have hv : s.copyValid slot c = true := by simp [State.copyValid, ht, hg, hw]
  have hz : s.copyValid slot SlotCopy.zero = false := by simp [State.copyValid, SlotCopy.zero]
  have hc : s.chosenCopy slot = some 0 := by simp [State.chosenCopy, ha, hb, hv, hz]
  simp [State.keyTransfer, State.openSlot, hs, hc, ha, hu]
theorem wrapKey_congr {s u : State} (h : s.mr = u.mr) (slot bind : Nat) : s.wrapKey slot bind = u.wrapKey slot bind := by
  simp only [State.wrapKey, State.deriveKey, State.mrSalt, h]
theorem pairCode_of (s : State) (a b la lb : Nat) (ha : s.rdColl R.PAIR_CFG_KSLOT = la) (hb : s.rdColl R.PAIR_CFG_RKSLOT = lb)
    (hl : s.rdColl R.PAIR_CFG_LOCALMAX ≠ 0) (h1 : s.keyTransfer la 1 = some a) (h2 : s.keyTransfer lb 1 = some b) :
    s.pairCode = 0 := by
  simp [State.pairCode, ha, hb, hl, h1, h2]
theorem pairCode_sealable : (stPairSeal 0xA081 0 true).pairCode = 0 :=
  pairCode_of _ 55 66 1 2 (by decide +kernel) (by decide +kernel) (by decide +kernel)
    (keyTransfer_of _ 1 1 ⟨2, 64, 0, 2, 1, 55, _, false⟩ rfl rfl (by decide +kernel) rfl rfl (wrapKey_congr rfl _ _) (by decide))
    (keyTransfer_of _ 2 1 ⟨2, 64, 3, 3, 1, 66, _, false⟩ rfl rfl (by decide +kernel) rfl rfl (wrapKey_congr rfl _ _) (by decide))

theorem witness_PairAndRefereeCommands_seal :
    (stPairSeal 0xA081 0 true).coll = [(R.PAIR_CFG, 0xA081)] ∧ (stPairSeal 0xA081 0 true).pairCode = 0
    ∧ (stPairSeal 0xA081 0 true).phase ≠ .running ∧ (stPairSeal 0xA081 0 true).evIn = []
    ∧ (stPairSeal 0xA081 0 false).coll = [(R.PAIR_CFG, 0xA081)] ∧ (stPairSeal 0xA081 0 false).pairCode = 1
    ∧ (stPairSeal 0 0x30323 true).coll = [(R.PAIR_RCFG, 0x30323)] ∧ (stPairSeal 0 0x30323 true).pairRCode = 0 := by
  refine ⟨rfl, pairCode_sealable, by decide, by decide, rfl, by decide +kernel, rfl, by decide +kernel⟩

theorem witness_PairAndRefereeCommands_link :
    (let s := stPair 1 1 1000 [(R.PAIR_STAT_RLINK, 1)] linked;
      s.phase = .running ∧ s.rd R.PAIR_STAT_STRAP = 1 ∧ s.rd R.PAIR_STAT_STATE = 1 ∧ s.evIn = [] ∧ s.pair.own = some (9, 12345)
      ∧ s.mayAnswer = true ∧ s.pair.strapIn ≠ (1 : Fin 4).val ∧ s.pair.hashAt ≠ s.tick.toNat + 1
      ∧ s.pair.statAt ≠ s.tick.toNat / 10 + 1 ∧ s.serves poA = true ∧ s.dutiesOf 7 = [6, 12] ∧ s.isTarget 6 = true ∧ s.rd R.PAIR_STAT_RLINK = 1)
    ∧ (linked.trained = true ∧ linked.broken = false ∧ linked.rxSeq < 2 ^ 32 ∧ PairS.init.trained = false
      ∧ { linked with own := none }.own = none)
    ∧ ((stPair 1 1 1000 [] linked).blockSound [1, 0, 0, 0] = false ∧ (List.replicate 64 (3 : Byte)).length = 64
      ∧ (stPair 2 3 1000 [] linked).rd R.PAIR_STAT_STATE = 3 ∧ (stPair 0 6 1000 [] linked).rd R.PAIR_STAT_STRAP = 0
      ∧ (stPair 2 5 1000 [] linked).rd R.PAIR_STAT_STATE = 5 ∧ (stPair 2 5 1000 [] PairS.init).mayAnswer = false) := by
  refine ⟨by decide +kernel, by decide, by decide +kernel⟩

/-- An active whose encoder 3 has counted in cycle 500 and whose digital inputs were sampled in cycle 4,500. -/
def stTaking : State := stPair 1 1 1000 [] { linked with taken := [itemOf 3 3, ⟨1000, 1, 0, 4500⟩] }
theorem witness_PairAndRefereeCommands_send :
    (stTaking.blockDue 16 4096 false = true
      ∧ (sentItems 1000 16 ([3, 3] ++ leBytes 2 4 ++ leBytes 2 500 ++ [0, 0] ++ leBytes 8 7)).bind (stTaking.itemsLeft · 4096)
        = some [⟨1000, 1, 0, 4500⟩])
    ∧ ((sentItems 1000 8 ([3, 2] ++ leBytes 2 0 ++ leBytes 2 500 ++ [0, 0])).bind (stTaking.itemsLeft · 4096) = none
      ∧ stTaking.blockDue 8 4096 false = true)
    ∧ (stTaking.blockDue 0 59999 true = true ∧ stTaking.blockDue 0 4097 false = false ∧ 4032 % 8 = 0) := by decide +kernel
/-- A standby on local inputs holds one input of each kind for tick 1000. -/
def stLocal (d : LocalData) : State :=
  stPair 2 2 1000 [(R.PAIR_STAT_LOCALIN, 1), (R.DIOP_DIFILT_DIFILT, 1), (R.ADCS_STAT_RUN, 1)]
    { linked with locals := [⟨1001, 7, d⟩, ⟨1000, 500, d⟩] }
theorem witness_PairAndRefereeCommands_local :
    (∀ d ∈ [LocalData.din 5, .encoder 3 .forward, .conversion 59 7 7 none, .conversion 59 7 7 (some 13)],
      let s := stLocal d
      s.evIn = [] ∧ s.isStandby = true ∧ s.onSnapshot = false
        ∧ (s.pair.locals.filter fun i => i.tag == s.tick.toNat).head? = some ⟨1000, 500, d⟩)
    ∧ ((stLocal (.din 5)).rd R.DIOP_DIFILT_DIFILT ≤ 1 ∧ (stLocal (.din 5)).rd R.ADCS_STAT_RUN = 1)
    ∧ (∀ i ∈ (stPair 2 2 1000 [(R.PAIR_STAT_LOCALIN, 1)] { linked with locals := [⟨1001, 7, .din 5⟩] }).pair.locals, i.tag ≠ 1000) := by
  decide +kernel

theorem witness_PairAndRefereeCommands_snapshot :
    (∀ k, k ∈ [(1, 0), (2, 31), (3, 3), (4, 1), (5, 59), (10, 3)] →
      let s := stFollowing (itemOf k.1 k.2)
      s.evIn = [] ∧ s.isStandby = true ∧ s.onSnapshot = true ∧ (s.pair.items.filter fun i => i.tick == s.tick.toNat % 2 ^ 32).head? = some (itemOf k.1 k.2))
    ∧ ((stFollowing (itemOf 1 0)).rd R.DIOP_DIFILT_DIFILT ≤ 1 ∧ (itemOf 1 0).kind ≠ snapKind (.load 0))
    ∧ ((∀ i ∈ (stFollowing ⟨7, 1, 0, 3⟩).pair.items, i.tick ≠ 1000) ∧ (stPair 1 1 1000 [] linked).isStandby = false)
    ∧ (let s := stFollowing (itemOf 1 0);
      s.onSnapshot = true ∧ s.rd R.PAIR_STAT_STATE = 2 ∧ s.pair.broken = false ∧ s.pair.hiTick = s.tick.toNat % 2 ^ 32 + 1
      ∧ s.pair.hiCyc < 601 ∧ 600 ≤ s.pair.hiCyc)
    ∧ (let s := stPair 2 2 1000 [(R.PAIR_STAT_LOCALIN, 1)] { linked with localAt := 950 };
      s.rd R.PAIR_STAT_LOCALIN = 1 ∧ s.pair.localAt + 10 * s.rd R.PAIR_CFG_LOCALMAX = s.tick.toNat) := by
  refine ⟨by decide +kernel, by decide +kernel, by decide +kernel, by decide +kernel, by decide +kernel⟩

theorem witness_PairAndRefereeCommands_states :
    ((stPair 1 4 1000 [] linked).rd R.PAIR_STAT_STATE = 4 ∧ (stPair 1 4 1000 [] linked).serves poA = true
      ∧ (let s := stPair 1 1 3000 [(R.PAIR_HTICK_H, 4000)] linked;
        s.rd R.PAIR_HTICK_H = 4000 ∧ s.tick.toNat % 1000 < 990 ∧ (4000 + 2 ^ 32 - s.tick.toNat % 2 ^ 32) % 2 ^ 32 = 1000 ∧ (s.tick.toNat + 1000) % 1000 = 0)
      ∧ (let s := stPair 1 1 3000 [(R.PAIR_HTICK_H, 3000)] linked; (3000 + 2 ^ 32 - s.tick.toNat % 2 ^ 32) % 2 ^ 32 = 0))
    ∧ (let s := stPair 1 0 1000 [] linked; s.rd R.PAIR_STAT_STATE = 0 ∧ s.rd R.PAIR_STAT_REFPRES = 0 ∧ s.rd R.PAIR_STAT_RLINK = 0
      ∧ (stPair 1 0 1000 [(R.PAIR_STAT_REFPRES, 1)] linked).rd R.PAIR_STAT_REFPRES = 1)
    ∧ (let s := stPair 1 1 3000 [(R.PAIR_SYNC_PHASE, 1), (R.PAIR_STAT_RLINK, 1)]
        { linked with passDone := true, handReq := some (3000, 7), peer := 0xC2 - 0x80 };
      s.tick.toNat % 1000 = 0 ∧ s.rd R.PAIR_SYNC_PHASE = 1 ∧ s.pair.passDone = true ∧ 512 ≤ 512 ∧ 64 ≤ 64
      ∧ s.pair.handReq = some (3000, 7) ∧ 3000 ≤ s.tick.toNat ∧ s.rd R.PAIR_STAT_RLINK = 1 ∧ s.pair.peer % 8 = 2
      ∧ s.pair.peer.testBit 6 = true ∧ s.pair.peer.testBit 7 = false)
    ∧ (let s := stPair 1 1 1000 [] linked; s.pair.peer % 8 = 3 ∧ s.rd R.PAIR_SYNC_PHASE ≠ 2 ∧ s.rd R.PAIR_SYNC_PHASE ≠ 1
      ∧ s.pair.handReq = none)
    ∧ (let s := stPair 2 3 1000 [] { linked with join := some 1000 }; let y := (stPair 1 1 1000 [] linked).toBody;
      s.pair.join = some 1000 ∧ 1000 = y.tick.toNat % 2 ^ 32 ∧ y.evIn = [] ∧ Memory.wf s.mem = true ∧ linked.join = none)
    ∧ (let s := stPair 2 2 1000 [] { linked with handAt := some 1000 }; s.pair.handAt = some 1000 ∧ 1000 = s.tick.toNat % 2 ^ 32)
    ∧ (let s := stPair 1 0 3000 [(R.PAIR_STAT_RLINK, 1)] { linked with noRef := 2701 };
      s.rd R.PAIR_STAT_PEERACT = 0 ∧ s.pair.noRef + 300 = s.tick.toNat + 1) := by
  refine ⟨by decide +kernel, by decide +kernel, by decide +kernel, by decide +kernel, by decide +kernel, by decide +kernel,
    by decide +kernel⟩

theorem witness_PairAndRefereeCommands_referee :
    ((let s := stPair 2 2 1000 [] linked; s.pair.sealedP = true ∧ s.pair.sealedR = true ∧ s.phase ≠ .off ∧ s.pair.refSeen ≠ 0
        ∧ ¬ s.pair.refSeen + 30 ≤ s.tick.toNat + 1 ∧ s.pair.heart < 2 ^ 32 ∧ s.rd R.PAIR_STAT_REFPRES = 0)
      ∧ (let d := ((11 : Word).toNat + 2 ^ 32 - linked.refSeq) % 2 ^ 32; d = 1)
      ∧ (let d := ((10 : Word).toNat + 2 ^ 32 - linked.refSeq) % 2 ^ 32; d = 0)
      ∧ (let d := ((0x8000000A : Word).toNat + 2 ^ 32 - linked.refSeq) % 2 ^ 32; d = 2 ^ 31))
    ∧ (let s := stReferee 1000 1 (seenAs 1 true 0) (seenAs 2 true 0); s.evIn = [] ∧ s.rd R.PAIR_STAT_STATE = 7 ∧ s.tick.toNat % 10 = 0 ∧ s.pair.pollAt ≠ s.tick.toNat + 1
      ∧ ¬ (s.pair.memA.seen + 30 ≤ s.tick.toNat + 1) ∧ (21 + 2 ^ 32 - s.pair.memA.seq) % 2 ^ 32 = 1)
    ∧ (let s := stReferee 1005 1 (seenAs 1 true 0) (seenAs 2 true 0); s.evIn = [] ∧ s.tick.toNat % 10 = 5 ∧ s.pair.evalAt ≠ s.tick.toNat + 1 ∧ s.rd R.PAIR_RCFG_MISSN = 3
      ∧ s.rd R.PAIR_RSTAT_VIEW = 0 + 1 ∧ s.pair.memA.answered = true ∧ s.pair.memA.health % 8 = 1 ∧ s.pair.memB.health % 8 = 2
      ∧ s.pair.memB.health.testBit 3 = false)
    ∧ (let s := stReferee 1005 1 (seenAs 1 false 2) (seenAs 2 true 0); s.pair.memA.answered = false
      ∧ s.rd R.PAIR_RCFG_MISSN = s.pair.memA.missed + 1 ∧ s.pair.memA.health.testBit 13 = false ∧ s.rd (fenceF 0) = 0)
    ∧ (let s := stReferee 1005 0 (seenAs 0 true 0) (seenAs 0 true 0); s.rd R.PAIR_RSTAT_VIEW = 0 ∧ s.pair.memB.health % 8 = 0)
    ∧ ((stReferee 1001 1 (seenAs 1 true 0) (seenAs 2 true 0)).tick.toNat % 10 ≠ 0) := by
  refine ⟨by decide +kernel, by decide +kernel, by decide +kernel, by decide +kernel, by decide +kernel, by decide +kernel⟩

/-! ### Keys and trust -/

/-- A request block at 0x1000 with IN at 0x2000 and room for OUT at 0x8000, the fields in the block's order. -/
def trBlock (code arg0 arg1 len cap loadid chk : Nat) : List Nat :=
  wordsOf 8 [(0, 4, code), (4, 4, arg0), (8, 4, arg1), (12, 4, 0x2000), (16, 4, len), (20, 4, 0x8000), (24, 4, cap), (32, 2, loadid), (34, 1, chk)]
def bytesWords (bs : List Nat) : List Nat := (List.range ((bs.length + 7) / 8)).map fun j => leAt bs (8 * j) 8
def reqOf (code : Nat) : TrReq := ⟨code, 0x1000, 13, 7, none⟩
/-- A module with a root and an owner, a request in front of the trust core's queue and another behind it. -/
def stTrust (code arg0 arg1 cap loadid : Nat) (chk : Bool) (bs : List Nat) (fs : List (FieldRef × Nat)) (x : TrstS) : State :=
  { runAt 1000 ([(R.TRST_STAT_ROOTOK, 1)] ++ fs) with
    trst := { x with queue := [reqOf code, reqOf 3] },
    mem := putWords (putWords [] 0x1000 (trBlock code arg0 arg1 bs.length cap loadid (b2n chk))) 0x2000
      (bytesWords bs ++ if chk then [carryWord (bytesWords bs)] else []) }
def owned : TrstS := { TrstS.init with owner := 4 :: List.replicate 132 9, cseq := 5, svnMin := 2 }
/-- A working key of a type for the loader with LOADID 3. -/
def working (typ use : Nat) : TrstS := { owned with work := some ⟨12345, typ, 1, use, 3, 6⟩ }
/-- A signed command (R522): its sequence number, target, payload and the last byte of its signature. -/
def envOf (seq target : Nat) (p : List Nat) (sig : Nat) : List Nat :=
  [0x43, 0x4D, 1, 0] ++ beBytes 4 p.length ++ beBytes 8 seq ++ beBytes 32 target ++ List.replicate 16 0 ++ p ++ List.replicate 131 0 ++ [sig]
/-- Code of version 2: one segment of two words from word 16 of a core. -/
def codeOf (core : Nat) : List Nat := beBytes 4 2 ++ beBytes 4 1 ++ [core, 0] ++ beBytes 2 16 ++ beBytes 2 2 ++ beBytes 4 7 ++ beBytes 4 8
def keyOf (typ klen : Nat) : List Nat := List.replicate 133 4 ++ [typ, klen, 0, 31] ++ List.replicate (klen + 16) 6
def inBytes : List Nat := [1, 2, 3, 4, 5, 6, 7, 8, 9]
def slotOne : TrstS := { working 1 4 with slots := [(2, ⟨2, 64, 0, 2, 1, 55, 3, false⟩)] }
/-- The request in front is of the code given, its block is clean, and its fields are as it says. -/
def Ready (s : State) (code len cap : Nat) : Prop :=
  s.trst.queue = [reqOf code, reqOf 3] ∧ (∀ k, k < 8 → s.wordMark (0x1000 / 8 + k) = .clean)
  ∧ (∀ k, k < 29 → memRead s.mem (0x1000 + 35 + k) 1 = 0) ∧ memRead s.mem (0x1000 + 34) 1 ≤ 1
  ∧ memRead s.mem (0x1000 + 12) 4 = 0x2000 ∧ memRead s.mem (0x1000 + 16) 4 = len ∧ memRead s.mem (0x1000 + 20) 4 = 0x8000
  ∧ memRead s.mem (0x1000 + 24) 4 = cap ∧ (∀ k, k < 64 → s.wordMark (0x8000 / 8 + k) = .clean)

theorem witness_TrustRequests_block :
    Ready (stTrust 1 0 1 136 3 false [] [] owned) 1 0 136 ∧ Ready (stTrust 8 0 1 72 3 true inBytes [] (working 2 8)) 8 9 72
    ∧ Ready (stTrust 4 0 1 64 3 false (envOf 6 0 [1, 2] 0) [] owned) 4 198 64
    ∧ memRead (stTrust 8 0 1 72 3 true inBytes [] (working 2 8)).mem (0x1000 + 34) 1 = 1
    ∧ memRead (stTrust 8 0 1 72 3 true inBytes [] (working 2 8)).mem (0x1000 + 32) 2 = 3
    ∧ memBytes (stTrust 8 0 1 72 3 true inBytes [] (working 2 8)).mem 0x2000 9 = inBytes
    ∧ memBytes (stTrust 4 0 1 64 3 false (envOf 6 0 [1, 2] 0) [] owned).mem 0x2000 198 = envOf 6 0 [1, 2] 0
    ∧ memRead (stTrust 13 63 1 0 3 false [] [] owned).mem (0x1000 + 4) 4 = 63
    ∧ 2 ≤ memRead (putWords [] 0x1000 [3, 0, 0, 0, 2 ^ 17, 0, 0, 0]) (0x1000 + 34) 1 + 2 := by
  unfold Ready
  refine ⟨by decide +kernel, by decide +kernel, by decide +kernel, by decide +kernel, by decide +kernel, by decide +kernel,
    by decide +kernel, by decide +kernel, by decide +kernel⟩
theorem witness_TrustRequests_carried :
    (stTrust 8 0 1 72 3 true inBytes [] (working 2 8)).buffer true 0x2000
      ((List.range ((9 + 7) / 8)).map fun j => memRead (stTrust 8 0 1 72 3 true inBytes [] (working 2 8)).mem (0x2000 + 8 * j) 8) := by
  refine buffer_holds _ _ _ _ rfl rfl ?_ (by decide +kernel)
  decide +kernel

theorem witness_TrustRequests_keys :
    ((stTrust 1 0 1 136 3 false [] [] owned).phase = .running ∧ (stTrust 1 0 1 136 3 false [] [] owned).rd R.TRST_STAT_ROOTOK = 1 ∧ owned.owner ≠ [] ∧ TrstS.init.owner = []
      ∧ (stTrust 1 0 1 136 3 false [] [(R.TRST_STAT_ROOTOK, 0)] owned).rd R.TRST_STAT_ROOTOK = 0)
    ∧ ((stTrust 6 1 1 0 3 false [] [(R.TRST_SLOTs_STATE 1, 1)] slotOne).rd (R.TRST_SLOTs_STATE 1) = 1
      ∧ (stTrust 6 1 1 0 3 false [] [] slotOne).rd (R.TRST_SLOTs_STATE 1) = 0)
    ∧ ((working 2 8).work = some ⟨12345, 2, 1, 8, 3, 6⟩ ∧ (8 : Nat).testBit 3 = true ∧ (4 : Nat).testBit 2 = true ∧ (16 : Nat).testBit 4 = true
      ∧ (0 : Nat).testBit 3 = false ∧ (List.replicate 12 (8 : Nat)).length = 12 ∧ (List.replicate 16 (8 : Nat)).length = 16)
    ∧ ((stTrust 13 1 1 0 3 false [] [] slotOne).slotGen 1 < 0xFFFFFFFE) := by
  refine ⟨by decide +kernel, by decide +kernel, by decide, by decide +kernel⟩

theorem witness_TrustRequests_commands :
    (envLaid (envOf 6 0 [1, 2] 0) = true ∧ beAt (envOf 6 0 [1, 2] 0) 8 8 = 6 ∧ beAt (envOf 6 0 [1, 2] 0) 16 32 = 0
      ∧ beAt (envOf 6 5 [1, 2] 0) 16 32 ≠ 0 ∧ slice (envOf 6 0 [1, 2] 0) 64 (beAt (envOf 6 0 [1, 2] 0) 4 4) = [1, 2])
    ∧ (codeSegs (beAt (codeOf 0) 4 4) ((codeOf 0).drop 8) = some [⟨0, 16, [7, 8]⟩] ∧ owned.svnMin ≤ beAt (codeOf 0) 0 4
      ∧ (stTrust 15 0 1 0 3 false [] [] owned).segOk ⟨0, 16, [7, 8]⟩ = true ∧ (stTrust 15 0 1 0 3 false [] [] owned).segOk ⟨1, 16, [7, 8]⟩ = false
      ∧ codeSegs (beAt (codeOf 1) 4 4) ((codeOf 1).drop 8) = some [⟨1, 16, [7, 8]⟩])
    ∧ (beAt (keyOf 2 64) 133 1 = 2 ∧ beAt (keyOf 2 64) 134 1 = 64 ∧ beAt (keyOf 2 64) 136 1 < 32 ∧ (keyOf 2 64).length = 153 + 64)
    ∧ (owned.owner.length = 133 ∧ owned.owner.head? = some 4)
    ∧ ({ reqOf 3 with fin := some (17, 5, some 70000) }.fin = some (17, 5, some 70000) ∧ (reqOf 17).code = 17 ∧ (reqOf 17).fin = none) := by
  refine ⟨by decide +kernel, by decide +kernel, by decide +kernel, by decide +kernel, by decide⟩

set_option maxRecDepth 2000 in
/-- SHA-512 of "abc" (the example of FIPS 180-4). -/
theorem test_sha512 : sha512 [97, 98, 99] =
    0xddaf35a193617abacc417349ae20413112e6fa4e89a97ea20a9eeee64b55d39a2192992a274fc1a836ba3c23a3feebbd454d4423643ce80e2a9ac94fa54ca49f := by
  unfold sha512; decide

set_option maxRecDepth 2000 in
/-- AES-256-GCM of 16 zeros under a key and a nonce of zeros (the standard's test case 14). -/
theorem test_gcm : gcmCrypt 0 0 (List.replicate 16 0) = beBytes 16 0xcea7403d4d606b6e074ec5d3baf39d18
    ∧ gcmTag 0 0 [] (beBytes 16 0xcea7403d4d606b6e074ec5d3baf39d18) = 0xd0d1c8a799996bf0265b98b5d48ab919 := by
  unfold gcmCrypt gcmTag; decide

/-! ### Recorder, monitors and bench -/

def recOf (code : Nat) : Rec := ⟨code, 0x41, 2, 123456789, 1000, 7, 8⟩
def stRec (q : List Rec) (lost : Nat) (fs : List (FieldRef × Nat)) : State :=
  { runAt 1000 ([(R.RECD_CTRL_EN, 1), (R.RECD_NEXT_NEXT, 131072 * 3 + 5)] ++ fs) with recd := ⟨q, lost, 0, 0⟩ }
/-- Core 13 with a record in its argument registers. -/
def stProgram (code : Word) (q : List Rec) (fs : List (FieldRef × Nat)) : State :=
  let s := stRec q 0 fs
  { s with cores := NMap.set CoreS.off s.cores 13 { CoreS.off with on := true, wcode := code, wp0 := 5, wp1 := 6 } }
def stMoni (kind log : Nat) (fs : List (FieldRef × Nat)) : State :=
  runAt 1000 ([(R.MONI_mCTRL_EN 33, 1), (R.MONI_mCFG_KIND 33, kind), (R.MONI_mCFG_LOG 33, log), (R.MONI_mCFG_SH 33, 2),
    (R.MONI_mLO_LO 33, 2 ^ 32 - 100), (R.MONI_mALO_ALO 33, 2 ^ 32 - 10), (R.MONI_mAHI_AHI 33, 50), (R.MONI_mMIN_MIN 33, 5), (R.MONI_mMAX_MAX 33, 7)] ++ fs)
def stMoniSeal (kind : Nat) : State := { runAt 1000 [(R.MONI_mCFG_KIND 33, kind)] with coll := [(R.MONI_mLO 33, 77)] }
/-- Core 11 on the bench, the bench lane, spare rows, sectors and the spare oscillator free. -/
def stBench (fs : List (FieldRef × Nat)) (x : BnchS) : State :=
  { runAt 1000 ([(R.CORE_SVC_BENCH, 0x0800), (R.SOLV_LANEk_STATE 0, 1), (R.SOLV_LANEk_STATE 1, 1), (R.SOLV_LANEk_STATE 2, 1),
      (R.SOLV_LANEk_STATE 3, 1), (R.BNCH_SPARE_SROWS, 3), (R.BNCH_SPARE_SECT, 2), (R.BNCH_SPARE_PLL, 1), (R.BNCH_SPARE_LANE, 1)] ++ fs) with
    bnch := x }
def planOf (kind unit tick mode : Nat) : BnchS := { BnchS.init with subs := [⟨kind, unit, tick, mode⟩] }

theorem witness_RecorderMonitorAndBenchCommands_records :
    ((stRec [recOf 0x777] 0 []).recd.queue = [recOf 0x777] ∧ (stRec [recOf 0x777] 0 []).recd.lost = 0
      ∧ (stRec [recOf 0x777] 5 []).recd.lost ≠ 0 ∧ (List.replicate 63 (recOf 1)).length < 64 ∧ (stRec [] 0 []).recd.queue = []
      ∧ (stRec [recOf 0x777] 0 []).dutiesOf 7 = [6, 12] ∧ (stRec [recOf 0x777] 0 []).isTarget 6 = true)
    ∧ (let s := stProgram 0x30100 [] []; s.evIn = [] ∧ s.rd R.RECD_CTRL_EN = 1 ∧ (s.core 13).wcode.toNat % 65536 = 0x100
      ∧ s.recd.queue.length < 64 ∧ s.dutyOf 13 = 13 ∧ s.isTarget 13 = true ∧ s.serves ⟨13, 100⟩ = true ∧ s.wrote = []
      ∧ ¬ (s.recd.since = 60000 * s.tick.toNat + 100 ∧ 0 < s.recd.fresh))
    ∧ (let s := { stProgram 0x30100 [] [] with recd := ⟨[recOf 0x777], 0, 60000100, 1⟩ };
      s.recd.since = 60000 * s.tick.toNat + 100 ∧ s.recd.fresh = 1 ∧ s.recd.queue = [] ++ [recOf 0x777])
    ∧ ((stProgram 0xFEFF (List.replicate 64 (recOf 1)) []).recd.queue.length = 64
      ∧ ((stProgram 0xFEFF [] []).core 13).wcode.toNat % 65536 = 0xFEFF ∧ ((stProgram 0xFFFF [] []).core 13).wcode.toNat % 65536 = 0xFFFF
      ∧ ((stProgram 0xFF [] []).core 13).wcode.toNat % 65536 = 0xFF ∧ (stProgram 0xFF [] [(R.RECD_CTRL_EN, 0)]).rd R.RECD_CTRL_EN = 0) := by
  refine ⟨by decide +kernel, by decide +kernel, by decide +kernel, by decide +kernel⟩

theorem witness_RecorderMonitorAndBenchCommands_monitors :
    (let s := stMoni 5 0 []; s.evIn = [] ∧ s.serves poA = true ∧ s.wrote = [] ∧ s.rd (R.MONI_mCTRL_EN 33) = 1 ∧ s.rd (R.MONI_mCFG_KIND 33) = 5
      ∧ ((0x80000000 : Word).toInt < s.rdI (R.MONI_mALO_ALO 33) ∧ s.rdI (R.MONI_mAHI_AHI 33) < (51 : Word).toInt)
      ∧ ¬ ((50 : Word).toInt < s.rdI (R.MONI_mALO_ALO 33) ∨ s.rdI (R.MONI_mAHI_AHI 33) < (50 : Word).toInt)
      ∧ s.rd ⟨R.MONI_ALMLOw 1, 1, 1⟩ = 0)
    ∧ ((stMoni 5 1 []).rd (R.MONI_mCFG_LOG 33) = 1 ∧ (stMoni 4 0 []).rd (R.MONI_mCFG_KIND 33) ≠ 5
      ∧ (stMoni 5 0 [(⟨R.MONI_ALMLOw 1, 1, 1⟩, 1)]).rd ⟨R.MONI_ALMLOw 1, 1, 1⟩ = 1)
    ∧ ((stMoniSeal 5).rd (R.MONI_mCTRL_EN 33) = 0 ∧ (stMoniSeal 5).coll = [(R.MONI_mLO 33, 77)] ∧ (stMoniSeal 5).monitorCode 33 = 0
      ∧ (stMoniSeal 9).monitorCode 33 = 1) := by
  refine ⟨by decide +kernel, by decide +kernel, by decide +kernel⟩

/-- The two modules joined, in a state of the pair. -/
def pairUp (state : Nat) : List (FieldRef × Nat) := [(R.PAIR_STAT_STRAP, 1), (R.PAIR_STAT_STATE, state), (R.PAIR_STAT_RLINK, 1)]
theorem witness_RecorderMonitorAndBenchCommands_wear :
    (let s := stBench [] { BnchS.init with cfg := 0x44101E00 };
      (∀ k, k ∈ [(1, 3), (2, 3), (3, 300), (4, 300), (5, 255), (6, 0), (7, 3)] →
        k.2 < benchUnits k.1 ∧ s.inUse k.1 k.2 = true ∧ s.wearMet k.1 201 1000 false = true ∧ s.wornOf k.1 k.2 ≠ 1
        ∧ s.hasSpare k.1 k.2 = true ∧ s.benchReqCode k.1 k.2 = 0)
      ∧ s.benchCfg R.BNCH_CFG_AUTO = 0 ∧ s.serves poA = true ∧ s.benchPaired = false ∧ s.inUse 1 11 = false ∧ s.wearMet 1 0 0 false = false ∧ s.evIn = [])
    ∧ ((stBench [(R.CORE_SVC_BENCH, 0)] BnchS.init).hasSpare 1 3 = false
      ∧ (stBench [(R.CORE_SVC_BENCH, 0)] BnchS.init).benchCfg R.BNCH_CFG_AUTO = 1
      ∧ (stBench [] BnchS.init).benchReqCode 0 0 = 1)
    ∧ (let s := stBench (pairUp 1) BnchS.init; s.benchPaired = true ∧ s.rd R.PAIR_STAT_STATE = 1
      ∧ (0x00200032 : Word).toNat / 16 % 65536 = 3 ∧ 3 < benchUnits ((0x00200032 : Word).toNat % 16))
    ∧ ((stBench (pairUp 2) BnchS.init).rd R.PAIR_STAT_STATE ≠ 1 ∧ 1000 / 1000 < 2 ∧ 2 ≤ 1000 / 1000 + 4096
      ∧ 2 % 4096 = (0x00200032 : Word).toNat / 2 ^ 20 ∧ 4097 % 4096 = (0x00100032 : Word).toNat / 2 ^ 20) := by
  refine ⟨by decide +kernel, by decide +kernel, by decide +kernel, by decide +kernel⟩

theorem witness_RecorderMonitorAndBenchCommands_bench :
    ((stBench [] (planOf 1 3 1000 1)).bnch.subs = [⟨1, 3, 1000, 1⟩]
      ∧ (stBench [] (planOf 1 3 1000 1)).dutyOf ((stBench [] (planOf 1 3 1000 1)).physOf 3) = 3
      ∧ (stBench [(R.BNCH_SPARE_SECT, 0)] BnchS.init).hasSpare 5 0 = false ∧ (stBench [] BnchS.init).rd (R.BNCH_DRVo_ACT 7) = 0 ∧ ¬ (stBench [] (planOf 1 3 1000 1)).tick.toNat < 1000
      ∧ (stBench [] (planOf 1 3 1001 1)).tick.toNat < 1001)
    ∧ (let s := stBench [] (planOf 1 3 1000 1); s.stoppedForGood (s.physOf 3) = false ∧ s.spareCore (s.physOf 3) = some 11
      ∧ 11 ≠ s.physOf 3)
    ∧ (let s := { stBench [(R.CORE_nTRAP_STOP 3, 5)] (planOf 1 3 1000 1) with cores := [(3, { CoreS.off with stopped := true })] };
      s.stoppedForGood (s.physOf 3) = true)
    ∧ (let s := stBench [] (planOf 2 3 1000 1); s.spareLane = some 4 ∧ 1 ≤ s.rd R.BNCH_SPARE_SROWS ∧ 1 ≤ s.rd R.BNCH_SPARE_SECT)
    ∧ BnchS.init.subs = [] := by
  refine ⟨by decide +kernel, by decide +kernel, by decide +kernel, by decide +kernel, rfl⟩

theorem witness_CommandsKeepToTheirBlocks :
    (stPair 1 4 1000 [] linked).evIn = [] ∧ (stPair 1 4 1000 [] linked).wrote = [] ∧ (∃ t, exec (.resync ⟨13, 100⟩) (stPair 1 4 1000 [] linked) = .next t)
    ∧ (∃ t, exec (.safetyTrip ⟨13, 100⟩) (stSafe 1 [] safeQuiet) = .next t) ∧ (∃ t, exec (.dst ⟨13, 100⟩) (runAt 1000 []) = .next t)
    ∧ (∃ t, exec (.backupDomainReset) (runAt 1000 []) = .next t) ∧ (∃ t, exec (.subst 0x21) (stBench [] BnchS.init) = .next t) :=
  ⟨by decide, by decide, ⟨_, rfl⟩, ⟨_, rfl⟩, ⟨_, rfl⟩, ⟨_, rfl⟩, ⟨_, rfl⟩⟩

end Sys2Proof.Tests
end

section
/-! PROOFS. Writes of block registers: a store as a register write, and the writes of a live and of a sealed word
(00_scope R5 to R8; 02 R85). -/

namespace Sys2Proof.Machine

/-! ## A program's access to the block registers -/

/-- A core that serves has its access served. -/
theorem State.byCore_served (s : State) (p : Port) (f : State → State) (h : s.serves p = true) :
    s.byCore p f = f (s.atCycle p.cyc) := if_pos h

/-- A core that has not started, or is stopped, accesses nothing (R5). -/
theorem State.byCore_unserved (s : State) (p : Port) (f : State → State) (h : s.serves p = false) :
    s.byCore p f = s.atCycle p.cyc := if_neg (by rw [← State.serves, h]; decide)

/-- A correction of the fetched word leaves the cores' on and stopped bits. -/
theorem State.fetchFix_running (s : State) (p q : Nat) :
    ((s.fetchFix p).core q).on = (s.core q).on ∧ ((s.fetchFix p).core q).stopped = (s.core q).stopped := by
  unfold State.fetchFix
  dsimp only
  split
  · rw [State.inc_eq, State.incBy_eq, State.core_wr, State.core_noteHw]
    by_cases h : q = p
    · subst h
      rw [State.core_setCore_same]
      exact ⟨rfl, rfl⟩
    · rw [State.core_setCore_other _ _ h]
      exact ⟨rfl, rfl⟩
  · exact ⟨rfl, rfl⟩

/-- A core that executes an instruction serves, in the instruction's cycle, the accesses of its program. -/
theorem State.serves_during (s : State) (i : Issue) (h : s.ready i = true) (he : (s.during i).evIn = []) :
    (s.during i).serves ⟨i.core, i.cyc⟩ = true := by
  obtain ⟨hon, hstop⟩ := State.fetchFix_running (s.atCycle i.cyc) i.core.val i.core.val
  simp only [State.ready, CoreS.executes, Bool.and_eq_true, Bool.not_eq_true'] at h
  unfold State.serves
  rw [State.atCycle_quiet _ _ he, State.core_setCycle, State.during, hon, hstop, h.1.1.1.1.1.1, h.1.1.1.1.1.2]
  rfl

/-! ## A store to a block register -/

/-- What a store to a block register does in the cycle it leaves. -/
theorem execRegisterWrite_served (p : Port) (a : BitVec 32) (size : Size) (v : DWord) (s : State) (h : s.serves p = true)
    (ha : a.toNat % size.bytes = 0) (hn : namesRegisters a.toNat size.bytes = true) :
    execRegisterWrite p a size v s
      = .next ((s.atCycle p.cyc).blockStore p.core.val a.toNat size.bytes (v.toNat % 2 ^ (8 * size.bytes))) := by
  simp [execRegisterWrite, ha, hn, State.byCore_served _ _ _ h]

theorem regionOf_block (a : Nat) (h0 : 0x40000000 ≤ a) (h1 : a < 0x40160000) : regionOf a = .block := by
  unfold regionOf localBase
  dsimp only
  iterate 6 rw [if_neg (by simp; omega)]
  rw [if_pos (by simp; omega)]

/-- An aligned store to registers meets no trap. -/
theorem storeCands_block (c : CoreS) (a n : Nat) (hr : c.runsOut = false) (h0 : 0x40000000 ≤ a) (h1 : a < 0x40160000)
    (ha : a % n = 0) (hn : namesRegisters a n = true) : storeCands c a n = [] := by
  simp [storeCands, accessCands, meetsNothing, candIf, regionOf_block a h0 h1, hr, ha, hn]

/-- A store of an unchecked core to a block register takes its effect in the cycle of the issue, and 4 cycles. -/
theorem State.storeN_block (s : State) (i : Issue) (ra : BitVec 6) (imm : BitVec 14) (n : Nat) (v : CoreS → Nat)
    (h : s.ready i = true) (hr : (s.doing i).runsOut = false) (hp : i.core.val < 12)
    (h0 : 0x40000000 ≤ (s.doing i).ea ra.toNat imm) (h1 : (s.doing i).ea ra.toNat imm < 0x40160000)
    (ha : (s.doing i).ea ra.toNat imm % n = 0) (hn : namesRegisters ((s.doing i).ea ra.toNat imm) n = true) :
    s.storeN i true ra imm n v = s.ended i
      (let t := ((s.during i).setCycle i.cyc).blockStore i.core.val ((s.doing i).ea ra.toNat imm) n (v (s.doing i))
       t.finish i.core.val (t.core i.core.val) 4) := by
  have hc : isChecked i.core.val = false := by simp only [isChecked, decide_eq_false_iff_not]; omega
  unfold State.storeN
  rw [State.runInstr_ready _ _ _ h]
  simp only [storeCands_block _ _ _ hr h0 h1 ha hn, firstTrap, regionOf_block _ h0 h1, State.release, hc, storeCost, holdCost,
    State.storeOut, Bool.false_and, Bool.false_eq_true, if_false, Nat.add_zero, reduceCtorEq]

theorem State.ended_frame (s t : State) (i : Issue) :
    (s.ended i t).regs = t.regs ∧ (s.ended i t).coll = t.coll ∧ (s.ended i t).shadow = t.shadow ∧ (s.ended i t).mem = t.mem
      ∧ (s.ended i t).cores = t.cores := by
  unfold State.ended State.noteBegan
  dsimp only
  split
  · exact ⟨rfl, rfl, rfl, rfl, rfl⟩
  · exact ⟨rfl, rfl, rfl, rfl, rfl⟩

/-- A store to a block register has the effect of the register write of the same bytes (R5). -/
theorem State.storeN_as_registerWrite (s : State) (i : Issue) (ra : BitVec 6) (imm : BitVec 14) (size : Size) (v : CoreS → Nat)
    (x : DWord) (h : s.ready i = true) (hr : (s.doing i).runsOut = false) (hp : i.core.val < 12) (he : (s.during i).evIn = [])
    (h0 : 0x40000000 ≤ (s.doing i).ea ra.toNat imm) (h1 : (s.doing i).ea ra.toNat imm < 0x40160000)
    (ha : (s.doing i).ea ra.toNat imm % size.bytes = 0)
    (hn : namesRegisters ((s.doing i).ea ra.toNat imm) size.bytes = true)
    (hv : v (s.doing i) = x.toNat % 2 ^ (8 * size.bytes)) :
    ∃ u, exec (.registerWrite ⟨i.core, i.cyc⟩ (BitVec.ofNat 32 ((s.doing i).ea ra.toNat imm)) size x) (s.during i) = .next u
      ∧ let t := s.storeN i true ra imm size.bytes v
        t.regs = u.regs ∧ t.coll = u.coll ∧ t.shadow = u.shadow ∧ t.mem = u.mem ∧ (t.core i.core.val).cost = 4 := by
  have hw := execRegisterWrite_served ⟨i.core, i.cyc⟩ ((s.doing i).reg ra.toNat + sextImm imm) size x _
    (State.serves_during s i h he) ha hn
  rw [State.atCycle_quiet _ _ he] at hw
  refine ⟨_, by rw [CoreS.ea, BitVec.ofNat_toNat, BitVec.setWidth_eq]; exact hw, ?_⟩
  rw [State.storeN_block s i ra imm size.bytes v h hr hp h0 h1 ha hn, hv]
  dsimp only
  obtain ⟨hregs, hcoll, hshadow, hmem, hcores⟩ := State.ended_frame s
    (State.finish (((s.during i).setCycle i.cyc).blockStore i.core.val ((s.doing i).ea ra.toNat imm) size.bytes
      (x.toNat % 2 ^ (8 * size.bytes))) i.core.val _ 4) i
  rw [hregs, hcoll, hshadow, hmem, State.core_congr hcores, State.finish, State.core_setCore_same]
  exact ⟨rfl, rfl, rfl, rfl, rfl⟩

/-! ## A register write of up to four bytes -/

/-- The part of its 32-bit word that a store of fewer than 8 bytes covers. -/
def storeWord (a n v : Nat) : WordWr :=
  ⟨a / 4 * 4, laneMask a n, BitVec.ofNat 32 (v * 2 ^ (8 * (a % 4))) &&& laneMask a n⟩

theorem storeWords_narrow (a n v : Nat) (h : n ≠ 8) : storeWords a n v = [storeWord a n v] := if_neg h

/-- Registers that a write before tick 0 can redirect (R547). -/
def redirects (base : Nat) : Bool :=
  [R.CORE_nBIND 0, R.CORE_nENTRY 0, R.CORE_nSEAL 0, R.CORE_nVEC 0, R.TIER_JOBn_CFG 0].contains base

theorem State.redirect_none (s : State) (w : WordWr) (h : RegHit) (hf : findReg w.addr = some h)
    (hr : redirects h.fam.base = false) : s.redirect w = w := by
  simp only [redirects, List.contains_cons, List.contains_nil, Bool.or_false, Bool.or_eq_false_iff, beq_eq_false_iff_ne] at hr
  simp [State.redirect, hf, hr]

/-- Windows 4 to 19 hold the registers whose stores are treated apart; a word of the others lies in none of them. -/
theorem inWindow_apart (k a : Nat) (hk : 4 ≤ k ∧ k < 20) (ha : a < 0x40040000 ∨ 0x40140000 ≤ a) : inWindow k a = false := by
  simp only [inWindow, Bool.and_eq_false_iff, decide_eq_false_iff_not]
  omega

theorem word64_ne_sampleWord (a : Nat) (ha : a < 0x40040000 ∨ 0x40140000 ≤ a) : a / 8 * 8 ≠ R.FUSA_SMP := by
  unfold R.FUSA_SMP
  omega

/-- A store of up to four bytes outside windows 4 to 19: refused where the word's group runs, and otherwise the fields take it
and its actions follow (R6 to R8). -/
theorem State.blockStore_narrow (s : State) (p a n v : Nat) (h : RegHit) (hn : n ≠ 8) (hf : findReg (a / 4 * 4) = some h)
    (hr : redirects h.fam.base = false) (ha : a < 0x40040000 ∨ 0x40140000 ≤ a) :
    s.blockStore p a n v = (s.runningGroup (a / 4 * 4)).elim
      (s.action p (s.fieldWrite (storeWord a n v)) (storeWord a n v)) (fun g => s.groupRefused g.1 g.2 p) := by
  have h10 : inWindow 10 (storeWord a n v).addr = false :=
    inWindow_apart 10 _ (by decide) (by dsimp only [storeWord]; omega)
  have haddr : (storeWord a n v).addr = a / 4 * 4 := rfl
  unfold State.blockStore
  simp only [inWindow_apart 9 a (by decide) ha, inWindow_apart 13 a (by decide) ha, word64_ne_sampleWord a ha,
    storeWords_narrow _ _ _ hn, State.when, List.map_cons, List.map_nil, State.redirect_none s (storeWord a n v) h hf hr, h10,
    Bool.not_false, Bool.true_or, List.filter_cons, List.filter_nil, if_true, if_false, Bool.false_eq_true, List.length_cons,
    List.length_nil, Nat.lt_irrefl, decide_false, List.filterMap_cons, List.filterMap_nil]
  generalize storeWord a n v = w at haddr
  rw [haddr]
  cases s.runningGroup (a / 4 * 4) with
  | none => simp
  | some g => simp [List.eraseDups_cons]

/-! ## Two registers: event masks, live, and job lengths, sealed -/

/-- The family of the event mask words (R79). -/
def eventMaskFam : RegFam := ⟨0x40141020, 16, 128, 8, 4, false, none, [⟨31, 0, .live, .rw, 0xffffffff, false⟩]⟩

/-- The family of the job length words (R45). -/
def jobLenFam : RegFam := ⟨0x40001008, 128, 32, 1, 32, false, some .tierJob, [⟨18, 0, .sealed, .rw, 0, false⟩]⟩

theorem findReg_eventMask (d w : Nat) (hd : d < 16) (hw : w < 8) :
    findReg (R.EVNT_nMASKw d w) = some ⟨eventMaskFam, d, w, 0⟩ :=
  (by decide +kernel : ∀ d < 16, ∀ w < 8, findReg (R.EVNT_nMASKw d w) = some ⟨eventMaskFam, d, w, 0⟩) d hd w hw

theorem findReg_jobLen (n : Fin 128) : findReg (R.TIER_JOBn_LEN n.val) = some ⟨jobLenFam, n.val, 0, 0⟩ :=
  (by decide +kernel : ∀ n : Fin 128, findReg (R.TIER_JOBn_LEN n.val) = some ⟨jobLenFam, n.val, 0, 0⟩) n


/-- Bits of a register word that a test of its fields selects do not depend on the element. -/
theorem eventMask_bits (d w : Nat) (q : FieldDef → Bool) :
    RegHit.bits ⟨eventMaskFam, d, w, 0⟩ q = if q ⟨31, 0, .live, .rw, 0xffffffff, false⟩ then 0xFFFFFFFF else 0 := by
  unfold RegHit.bits eventMaskFam
  cases hq : q ⟨31, 0, .live, .rw, 0xffffffff, false⟩
  · simp [hq]
  · simp [hq]

theorem jobLen_bits (n : Nat) (q : FieldDef → Bool) :
    RegHit.bits ⟨jobLenFam, n, 0, 0⟩ q = if q ⟨18, 0, .sealed, .rw, 0, false⟩ then 0x7FFFF else 0 := by
  unfold RegHit.bits jobLenFam
  cases hq : q ⟨18, 0, .sealed, .rw, 0, false⟩
  · simp [hq]
  · simp [hq]

theorem allOnes_and (x : Word) : 0xFFFFFFFF#32 &&& x = x := BitVec.allOnes_and

theorem and_allOnes (x : Word) : x &&& 0xFFFFFFFF#32 = x := BitVec.and_allOnes

/-- An event mask takes the bits a store covers, at once (R6). -/
theorem State.fieldWrite_eventMask (s : State) (w : WordWr) (d k : Nat) (hf : findReg w.addr = some ⟨eventMaskFam, d, k, 0⟩)
    (hm : w.mask ≠ 0#32) :
    s.fieldWrite w
      = (s.noteWrote w.addr w.mask 0 w.val).setWord w.addr (mergeBits (s.word w.addr) w.val w.mask) := by
  have hk : keepsWritten eventMaskFam.base = false := by decide
  have hh : hookOnly eventMaskFam.base = false := by decide
  simp [State.fieldWrite, woMask, hf, hk, hh, eventMask_bits, allOnes_and, and_allOnes, hm]

/-- A job length collects what a whole store brings, and stays as it was (R6, R7). -/
theorem State.fieldWrite_jobLen (s : State) (w : WordWr) (n : Nat) (hf : findReg w.addr = some ⟨jobLenFam, n, 0, 0⟩)
    (hm : w.mask = 0xFFFFFFFF) :
    s.fieldWrite w = { s with
      coll := NMap.put s.coll w.addr (mergeBits ((s.coll.at? w.addr).getD (s.word w.addr)) w.val 0x7FFFF) } := by
  have hk : keepsWritten jobLenFam.base = false := by decide
  have hh : hookOnly jobLenFam.base = false := by decide
  simp [State.fieldWrite, woMask, hf, hk, hh, jobLen_bits, hm]

/-- No action follows a write of an event mask or of a job length. -/
theorem State.action_eventMask (s t : State) (p : Nat) (w : WordWr) (d k : Nat) (hd : d < 16) (hk : k < 8)
    (ha : w.addr = R.EVNT_nMASKw d k) : s.action p t w = t := by
  have hwin : (w.addr - 0x40000000) / 0x10000 = 20 := by rw [ha]; unfold R.EVNT_nMASKw; omega
  simp [State.action, ha, findReg_eventMask d k hd hk]
  simp [← ha, hwin]

theorem State.action_jobLen (s t : State) (p : Nat) (w : WordWr) (n : Fin 128) (ha : w.addr = R.TIER_JOBn_LEN n.val) :
    s.action p t w = t := by
  have hwin : (w.addr - 0x40000000) / 0x10000 = 0 := by rw [ha]; unfold R.TIER_JOBn_LEN; omega
  simp [State.action, ha, findReg_jobLen]
  simp [← ha, hwin, State.tierAction, jobLenFam]

/-! ## Bits of a merged word -/

theorem getLsbD_mergeBits (w x m : Word) (j : Nat) :
    (mergeBits w x m).getLsbD j = if m.getLsbD j then x.getLsbD j else w.getLsbD j := by
  unfold mergeBits
  rw [BitVec.getLsbD_or, BitVec.getLsbD_and, BitVec.getLsbD_and, BitVec.getLsbD_not]
  by_cases hj : j < 32
  · cases m.getLsbD j <;> simp [hj]
  · simp [BitVec.getLsbD_of_ge _ _ (Nat.le_of_not_lt hj)]

theorem mergeBits_all (w x : Word) : mergeBits w x 0xFFFFFFFF#32 = x := by
  simp [mergeBits, and_allOnes]

theorem ofNat_toNat_mod (v : DWord) (n : Nat) : BitVec.ofNat n (v.toNat % 2 ^ n) = v.setWidth n := by
  apply BitVec.eq_of_toNat_eq
  simp

/-- A store of a whole word covers it. -/
theorem storeWord_word (a v : Nat) (ha : a % 4 = 0) : storeWord a 4 v = ⟨a, 0xFFFFFFFF#32, BitVec.ofNat 32 v⟩ := by
  have h : a / 4 * 4 = a := by omega
  simp [storeWord, laneMask, h, ha, and_allOnes]

/-- The bits that a byte store at byte k of its word covers. -/
theorem getLsbD_laneMask_byte (a j : Nat) (hj : j < 32) :
    (laneMask a 1).getLsbD j = decide (8 * (a % 4) ≤ j ∧ j < 8 * (a % 4) + 8) := by
  rw [laneMask, if_neg (by decide), BitVec.getLsbD_ofNat, Nat.testBit_mul_two_pow, Nat.testBit_two_pow_sub_one,
    decide_eq_true hj, Bool.true_and, Bool.decide_and]
  congr 1
  apply decide_eq_decide.mpr
  omega

/-- Byte j of a word into which a store of v has gone at byte k. -/
theorem extractByte_mergeBits (w : Word) (a v k j : Nat) (hk : k < 4) (hj : j < 4) (ha : a % 4 = 0) :
    (mergeBits w (storeWord (a + k) 1 v).val (storeWord (a + k) 1 v).mask).extractLsb' (8 * j) 8
      = if j = k then BitVec.ofNat 8 v else w.extractLsb' (8 * j) 8 := by
  have hak : (a + k) % 4 = k := by omega
  apply BitVec.eq_of_getLsbD_eq
  intro b hb
  simp only [BitVec.getLsbD_extractLsb', getLsbD_mergeBits, storeWord, BitVec.getLsbD_and,
    getLsbD_laneMask_byte _ _ (by omega : 8 * j + b < 32), BitVec.getLsbD_ofNat, Nat.testBit_mul_two_pow, hak]
  by_cases hjk : j = k
  · subst hjk
    have h32 : 8 * j + b < 32 := by omega
    rw [if_pos rfl, BitVec.getLsbD_ofNat]
    simp [hb, h32]
  · have : ¬ (8 * k ≤ 8 * j + b ∧ 8 * j + b < 8 * k + 8) := by omega
    simp [hb, hjk, this]

/-! ## An event reaches the duties it is raised to -/

theorem State.latch_all_evIn (e : Nat) (l : List Nat) (s : State) :
    (l.foldl (State.latch e) s).evIn = s.evIn ++ l.map (fun d => ⟨s.now + 2, d, e⟩) := by
  induction l generalizing s with
  | nil => simp
  | cons d r ih =>
    rw [List.foldl_cons, ih]
    simp [State.latch, State.now]

/-- What a raise without record puts on its way: the event, to each of its targets, 2 cycles later (R74). -/
theorem State.raiseQuiet_evIn (s : State) (e : Nat) (ds : List Nat) (sup : Bool) :
    (s.raiseQuiet e ds sup).evIn = s.evIn ++ (s.targets e ds sup).map (fun d => ⟨s.now + 2, d, e⟩) := by
  unfold State.raiseQuiet
  dsimp only
  split
  · exact State.latch_all_evIn e _ (s.inc R.EVNT_STAT_NOSUP)
  · exact State.latch_all_evIn e _ s

/-- The record of a raise withdraws nothing that is on its way. -/
theorem State.mem_raise_of_raiseQuiet (s : State) (e : Nat) (ds : List Nat) (sup : Bool) (x : EvIn)
    (h : x ∈ (s.raiseQuiet e ds sup).evIn) : x ∈ (s.raise e ds sup).evIn := by
  unfold State.raise
  dsimp only
  split
  · generalize State.mkRec _ _ _ _ _ _ = y
    obtain ⟨hw, r, rc, hq, -⟩ := State.queueRec_eq (s.raiseQuiet e ds sup) y
    split
    · rw [State.raiseQuiet_evIn, hq]
      exact List.mem_append_left _ h
    · rw [hq]
      exact h
  · exact h

/-- An event raised to a duty that can be a target is on its way to it. -/
theorem State.raise_mem_evIn (s : State) (e d : Nat) (sup : Bool) (hd : d < 16) (ht : s.isTarget d = true) :
    (⟨s.now + 2, d, e⟩ : EvIn) ∈ (s.raise e [d] sup).evIn := by
  apply State.mem_raise_of_raiseQuiet
  rw [State.raiseQuiet_evIn]
  refine List.mem_append_right _ (List.mem_map_of_mem ?_)
  simp [State.targets, hd, ht]

/-! ## Register writes of the two -/

theorem State.runningGroup_eventMask (s : State) (d w : Nat) (hd : d < 16) (hw : w < 8) :
    s.runningGroup (R.EVNT_nMASKw d w) = none := by
  simp [State.runningGroup, findReg_eventMask d w hd hw, eventMaskFam]

theorem State.runningGroup_jobLen (s : State) (n : Fin 128) :
    s.runningGroup (R.TIER_JOBn_LEN n.val) = if (s.job n.val).run = true then some (.tierJob, n.val) else none := by
  cases h : (s.job n.val).run with
  | false => simp [State.runningGroup, findReg_jobLen, jobLenFam, State.groupRuns, h]
  | true => simp [State.runningGroup, findReg_jobLen, jobLenFam, State.groupRuns, h]

theorem registerWrite_unserved (s : State) (p : Port) (a : BitVec 32) (size : Size) (v : DWord) (he : s.evIn = [])
    (h : s.serves p = false) (ha : a.toNat % size.bytes = 0) (hn : namesRegisters a.toNat size.bytes = true) :
    exec (.registerWrite p a size v) s = .next (s.setCycle p.cyc) := by
  show execRegisterWrite p a size v s = _
  simp [execRegisterWrite, ha, hn, State.byCore_unserved _ _ _ h, State.atCycle_quiet _ _ he]

/-- A register write of up to four bytes within one word, in a window whose stores are not treated apart. -/
theorem registerWrite_narrow (s : State) (p : Port) (a : Nat) (size : Size) (v : DWord) (h : RegHit) (he : s.evIn = [])
    (hs : s.serves p = true) (hn : size.bytes ≠ 8) (h32 : a < 2 ^ 32) (ha : a % size.bytes = 0)
    (hf : findReg (a / 4 * 4) = some h) (hr : redirects h.fam.base = false) (hw : a < 0x40040000 ∨ 0x40140000 ≤ a) :
    exec (.registerWrite p (BitVec.ofNat 32 a) size v) s = .next
      (let w := storeWord a size.bytes (v.toNat % 2 ^ (8 * size.bytes))
       let u := s.setCycle p.cyc
       (u.runningGroup (a / 4 * 4)).elim (u.action p.core.val (u.fieldWrite w) w)
         (fun g => u.groupRefused g.1 g.2 p.core.val)) := by
  have hname : namesRegisters a size.bytes = true := by simp [namesRegisters, coveredWords, hn, hf]
  have hto : (BitVec.ofNat 32 a).toNat = a := by simpa using Nat.mod_eq_of_lt h32
  have := execRegisterWrite_served p (BitVec.ofNat 32 a) size v s hs (by rw [hto]; exact ha) (by rw [hto]; exact hname)
  rw [hto, State.atCycle_quiet _ _ he, State.blockStore_narrow _ _ _ _ _ h hn hf hr hw] at this
  exact this

/-- A write of up to four bytes of an event mask changes the bits it covers, at once, and no other register. -/
theorem registerWrite_eventMask (s : State) (p : Port) (d w k : Nat) (size : Size) (v : DWord) (he : s.evIn = [])
    (hs : s.serves p = true) (hd : d < 16) (hw : w < 8) (hk : k < 4) (hn : size.bytes ≠ 8)
    (hsize : (R.EVNT_nMASKw d w + k) % size.bytes = 0)
    (hm : laneMask (R.EVNT_nMASKw d w + k) size.bytes ≠ 0#32) :
    Answers (.registerWrite p (BitVec.ofNat 32 (R.EVNT_nMASKw d w + k)) size v) s fun t =>
      (let x := storeWord (R.EVNT_nMASKw d w + k) size.bytes (v.toNat % 2 ^ (8 * size.bytes))
       t.word (R.EVNT_nMASKw d w) = mergeBits (s.word (R.EVNT_nMASKw d w)) x.val x.mask)
      ∧ (∀ b, b ≠ R.EVNT_nMASKw d w → t.word b = s.word b) ∧ t.coll = s.coll ∧ t.evIn = [] ∧ t.mem = s.mem
      ∧ t.cores = s.cores ∧ t.cycle = p.cyc := by
  have hword : (R.EVNT_nMASKw d w + k) / 4 * 4 = R.EVNT_nMASKw d w := by unfold R.EVNT_nMASKw; omega
  have haddr : R.EVNT_nMASKw d w + k < 2 ^ 32 ∧ 0x40140000 ≤ R.EVNT_nMASKw d w + k := by unfold R.EVNT_nMASKw; omega
  have hf := findReg_eventMask d w hd hw
  refine ⟨_, registerWrite_narrow s p _ size v ⟨eventMaskFam, d, w, 0⟩ he hs hn haddr.1 hsize
    (by rw [hword]; exact hf) (show redirects eventMaskFam.base = false by decide) (.inr haddr.2), ?_⟩
  have hx : (storeWord (R.EVNT_nMASKw d w + k) size.bytes (v.toNat % 2 ^ (8 * size.bytes))).addr = R.EVNT_nMASKw d w := hword
  dsimp only
  rw [hword, State.runningGroup_eventMask _ d w hd hw, Option.elim_none, State.action_eventMask _ _ _ _ d w hd hw hx,
    State.fieldWrite_eventMask _ _ d w (by rw [hx]; exact hf) hm, hx]
  refine ⟨State.word_setWord_same _ _ _, fun b hb => ?_, rfl, he, rfl, rfl, rfl⟩
  rw [State.word_setWord_other _ _ hb]
  rfl

/-- A write of an event mask's word. -/
theorem registerWrite_eventMask_word (s : State) (p : Port) (d w : Nat) (v : DWord) (he : s.evIn = [])
    (hs : s.serves p = true) (hd : d < 16) (hw : w < 8) :
    Answers (.registerWrite p (BitVec.ofNat 32 (R.EVNT_nMASKw d w)) .word v) s fun t =>
      t.word (R.EVNT_nMASKw d w) = v.setWidth 32 ∧ (∀ b, b ≠ R.EVNT_nMASKw d w → t.word b = s.word b) ∧ t.coll = s.coll
      ∧ t.evIn = [] ∧ t.mem = s.mem ∧ t.cores = s.cores ∧ t.cycle = p.cyc := by
  have h4 : (R.EVNT_nMASKw d w + 0) % 4 = 0 := by unfold R.EVNT_nMASKw; omega
  obtain ⟨t, ht, hv, hrest⟩ := registerWrite_eventMask s p d w 0 .word v he hs hd hw (by decide) (by decide) h4
    (show 0xFFFFFFFF#32 ≠ 0#32 by decide)
  refine ⟨t, ht, hv.trans ?_, hrest⟩
  rw [show Size.bytes .word = 4 from rfl, storeWord_word _ _ h4, mergeBits_all, ofNat_toNat_mod]

/-- A write of byte k of an event mask. -/
theorem registerWrite_eventMask_byte (s : State) (p : Port) (d w k : Nat) (v : DWord) (he : s.evIn = [])
    (hs : s.serves p = true) (hd : d < 16) (hw : w < 8) (hk : k < 4) :
    Answers (.registerWrite p (BitVec.ofNat 32 (R.EVNT_nMASKw d w + k)) .byte v) s fun t =>
      (∀ j : Fin 4, (t.word (R.EVNT_nMASKw d w)).extractLsb' (8 * j.val) 8 =
        if j.val = k then v.setWidth 8 else (s.word (R.EVNT_nMASKw d w)).extractLsb' (8 * j.val) 8)
      ∧ (∀ b, b ≠ R.EVNT_nMASKw d w → t.word b = s.word b) ∧ t.coll = s.coll
      ∧ t.evIn = [] ∧ t.mem = s.mem ∧ t.cores = s.cores ∧ t.cycle = p.cyc := by
  have h4 : R.EVNT_nMASKw d w % 4 = 0 := by unfold R.EVNT_nMASKw; omega
  have hm : laneMask (R.EVNT_nMASKw d w + k) 1 ≠ 0#32 := fun h => by
    have := getLsbD_laneMask_byte (R.EVNT_nMASKw d w + k) (8 * k) (by omega)
    rw [h, show (R.EVNT_nMASKw d w + k) % 4 = k by omega] at this
    simp at this
  obtain ⟨t, ht, hv, hrest⟩ := registerWrite_eventMask s p d w k .byte v he hs hd hw hk (by decide) (Nat.mod_one _) hm
  refine ⟨t, ht, fun j => ?_, hrest⟩
  rw [hv, show Size.bytes .byte = 1 from rfl, extractByte_mergeBits _ _ _ _ _ hk j.isLt h4,
    ofNat_toNat_mod]

/-! ### Job lengths -/

/-- A write of a job length is refused while the job runs (R8), and else collected (R7). -/
theorem registerWrite_jobLen (s : State) (p : Port) (n : Fin 128) (v : DWord) (he : s.evIn = []) (hs : s.serves p = true) :
    exec (.registerWrite p (BitVec.ofNat 32 (R.TIER_JOBn_LEN n.val)) .word v) s = .next
      (let a := R.TIER_JOBn_LEN n.val
       let u := s.setCycle p.cyc
       if (s.job n.val).run then u.raiseCore 14 p.core.val
       else { u with coll := NMap.put s.coll a (mergeBits ((s.coll.at? a).getD (s.word a)) (v.setWidth 32) 0x7FFFF) }) := by
  have ha : R.TIER_JOBn_LEN n.val % 4 = 0 ∧ R.TIER_JOBn_LEN n.val < 0x40040000 := by unfold R.TIER_JOBn_LEN; omega
  have hword : R.TIER_JOBn_LEN n.val / 4 * 4 = R.TIER_JOBn_LEN n.val := by omega
  have hf := findReg_jobLen n
  rw [registerWrite_narrow s p _ .word v ⟨jobLenFam, n.val, 0, 0⟩ he hs (by decide) (by omega) ha.1
    (by rw [hword]; exact hf) (show redirects jobLenFam.base = false by decide) (.inl ha.2)]
  simp only [Size.bytes, storeWord_word _ _ ha.1, hword, State.runningGroup_jobLen, ofNat_toNat_mod]
  rw [State.action_jobLen _ _ _ _ n rfl, State.fieldWrite_jobLen _ _ n.val hf rfl]
  have hjob : (s.setCycle p.cyc).job n.val = s.job n.val := rfl
  rw [hjob]
  cases (s.job n.val).run with
  | false => rfl
  | true => rfl

theorem bitsOf_mergeBits_low (w x : Word) : bitsOf (mergeBits w x 0x7FFFF#32).toNat 18 0 = x.toNat % 2 ^ 19 := by
  apply Nat.eq_of_testBit_eq
  intro j
  have hmask : (0x7FFFF#32).getLsbD j = decide (j < 19) := by
    rw [show 0x7FFFF#32 = BitVec.ofNat 32 (2 ^ 19 - 1) from rfl, BitVec.getLsbD_ofNat, Nat.testBit_two_pow_sub_one,
      ← Bool.decide_and]
    exact decide_eq_decide.mpr (by omega)
  rw [testBit_bitsOf, Nat.testBit_mod_two_pow, Nat.zero_add, BitVec.testBit_toNat, BitVec.testBit_toNat, getLsbD_mergeBits,
    hmask]
  by_cases hj : j < 19
  · simp [hj]
  · simp [hj]

/-- The collected value a job length would take. -/
theorem State.rdColl_jobLen (s : State) (n : Nat) (w x : Word)
    (h : s.coll.at? (R.TIER_JOBn_LEN n) = some (mergeBits w x 0x7FFFF)) :
    s.rdColl (R.TIER_JOBn_LEN_LEN n) = x.toNat % 2 ^ 19 := by
  show bitsOf (((s.coll.at? (R.TIER_JOBn_LEN n)).getD _).toNat + 0) 18 0 = _
  rw [h, Option.getD_some, Nat.add_zero]
  exact bitsOf_mergeBits_low w x

/-- A refusal to core p's duty changes no word but the counters of events and records, and its event is on its way. -/
theorem State.raiseCore_refusal (s : State) (e p a : Nat) (h1 : a ≠ R.EVNT_STAT) (h2 : a ≠ R.RECD_STAT) :
    (s.raiseCore e p).coll = s.coll ∧ (s.raiseCore e p).word a = s.word a
      ∧ ((s.raiseCore e p).mem = s.mem ∧ (s.raiseCore e p).cores = s.cores ∧ (s.raiseCore e p).cycle = s.cycle)
      ∧ ∀ d, d = s.dutyOf p → d < 16 → s.isTarget d = true → ⟨s.now + 2, d, e⟩ ∈ (s.raiseCore e p).evIn := by
  unfold State.raiseCore
  refine ⟨by simp, by simp [h1, h2], by simp, fun d hd hlt ht => ?_⟩
  rw [← hd]
  exact State.raise_mem_evIn s e d false hlt ht

/-- Settles O33: a store is the register write of its bytes, and the two registers' writes follow their classes. -/
theorem registerStores : Obligations.RegisterStores := by
  unfold Obligations.RegisterStores
  refine ⟨fun s i rd ra imm hready hruns _ hcore hev => ?_, fun s p v hev => ?_⟩
  · intro c a same x names h0 h1
    have store (size : Size) (f : CoreS → Nat) (y : DWord) (hn : names size.bytes)
        (hv : f c = y.toNat % 2 ^ (8 * size.bytes)) :=
      State.storeN_as_registerWrite s i ra imm size f y hready hruns hcore hev h0 h1 hn.1 hn.2 hv
    have hx : x.toNat = c.regN rd.toNat := BitVec.toNat_setWidth_of_le (by decide)
    refine ⟨fun hn => ?_, fun hn => ?_, fun hn => ?_, fun hn hpair => ?_⟩
    · obtain ⟨u, hu⟩ := store .byte (fun c => c.regN rd.toNat % 2 ^ 8) x hn (by rw [hx]; rfl)
      exact ⟨_, u, rfl, hu⟩
    · obtain ⟨u, hu⟩ := store .half (fun c => c.regN rd.toNat % 2 ^ 16) x hn (by rw [hx]; rfl)
      exact ⟨_, u, rfl, hu⟩
    · obtain ⟨u, hu⟩ := store .word (fun c => c.regN rd.toNat) x hn
        (by rw [hx]; exact (Nat.mod_eq_of_lt (c.reg rd.toNat).isLt).symm)
      exact ⟨_, u, rfl, hu⟩
    · obtain ⟨u, hu⟩ := store .dword (fun c => (c.pair rd.toNat).toNat) (c.pair rd.toNat) hn
        (Nat.mod_eq_of_lt (c.pair rd.toNat).isLt).symm
      have hlegal : isPair rd = true := by simp [isPair, hpair]
      exact ⟨_, u, by show execSdd i rd ra imm s = _; rw [execSdd, hlegal]; rfl, hu⟩
  · intro kept
    refine ⟨fun a size hs ha hn => registerWrite_unserved s p a size v hev hs ha hn, fun hs => ⟨?_, fun n => ?_⟩⟩
    · exact fun d w k hd hw hk => ⟨registerWrite_eventMask_word s p d w v hev hs hd hw,
        registerWrite_eventMask_byte s p d w k v hev hs hd hw hk⟩
    · have hw := registerWrite_jobLen s p n v hev hs
      intro a
      refine ⟨fun hrun => ⟨_, hw, ?_⟩, fun hrun => ⟨_, hw, ?_⟩⟩
      · simp only [hrun, Bool.false_eq_true, if_false]
        refine ⟨(State.rdColl_jobLen _ _ _ _ (NMap.at?_put_same _ _ _)).trans ?_, rfl, hev, rfl, rfl, rfl⟩
        simp
      · simp only [hrun, if_true]
        obtain ⟨hcoll, hword, hkept, hsent⟩ := State.raiseCore_refusal (s.setCycle p.cyc) 14 p.core.val a
          (by unfold a R.TIER_JOBn_LEN R.EVNT_STAT; omega) (by unfold a R.TIER_JOBn_LEN R.RECD_STAT; omega)
        refine ⟨hcoll, hword, hkept, fun d hd hlt ht => ?_⟩
        have hnow : (s.setCycle p.cyc).now = 60000 * s.tick.toNat + p.cyc := by
          simp [State.now, State.setCycle, Config.cyclesPerTick, Nat.mul_comm]
        rw [← hnow]
        exact hsent d hd hlt ht
end Sys2Proof.Machine
end

section
/-! PROOFS. Evaluations of a running loop that nothing disturbs, its stop, and the post of the output slots
(10_loop_engine R283 to R288, R294 to R298; 01 R23, R24). -/

namespace Sys2Proof.Machine

/-! ## Fields of one word -/

/-- A field lies in one 32-bit word. -/
def FieldRef.short (f : FieldRef) : Bool := decide (f.lo ≤ f.hi) && decide (f.hi < 32)

/-- A short field in another word, or beside the one written, reads as before. -/
theorem State.rd_wr_apart (s : State) (f g : FieldRef) (x : Nat) (hf : f.short = true) (hg : g.short = true)
    (h : f.addr ≠ g.addr ∨ f.hi < g.lo ∨ g.hi < f.lo) : (s.wr f x).rd g = s.rd g := by
  simp only [FieldRef.short, Bool.and_eq_true, decide_eq_true_eq] at hf hg
  refine State.rd_wr_other s f g x ?_ ?_ ?_
  · simp only [FieldRef.ok, Bool.and_eq_true, decide_eq_true_eq]
    omega
  · simp only [FieldRef.ok, Bool.and_eq_true, decide_eq_true_eq]
    omega
  · simp only [FieldRef.apart, Bool.or_eq_true, Bool.and_eq_true, beq_iff_eq, bne_iff_ne, ne_eq, decide_eq_true_eq]
    omega

/-- The same of fields written out, for the simplifier, and what the field written reads. -/
theorem State.rd_wr_mk_apart (s : State) (a hi lo x a' hi' lo' : Nat) (hf : lo ≤ hi ∧ hi < 32) (hg : lo' ≤ hi' ∧ hi' < 32)
    (h : a ≠ a' ∨ hi < lo' ∨ hi' < lo) : (s.wr ⟨a, hi, lo⟩ x).rd ⟨a', hi', lo'⟩ = s.rd ⟨a', hi', lo'⟩ :=
  State.rd_wr_apart s _ _ x (by simpa [FieldRef.short] using hf) (by simpa [FieldRef.short] using hg) h

theorem State.rd_wr_mk_same (s : State) (a hi lo x : Nat) (hf : lo ≤ hi ∧ hi < 32) :
    (s.wr ⟨a, hi, lo⟩ x).rd ⟨a, hi, lo⟩ = x % 2 ^ (hi + 1 - lo) :=
  State.rd_wr_same s _ x (by simp only [FieldRef.ok, Bool.and_eq_true, decide_eq_true_eq]; omega)

theorem State.rd_wrI_mk_apart (s : State) (a hi lo : Nat) (x : Int) (a' hi' lo' : Nat) (hf : lo ≤ hi ∧ hi < 32)
    (hg : lo' ≤ hi' ∧ hi' < 32) (h : a ≠ a' ∨ hi < lo' ∨ hi' < lo) :
    (s.wrI ⟨a, hi, lo⟩ x).rd ⟨a', hi', lo'⟩ = s.rd ⟨a', hi', lo'⟩ := State.rd_wr_mk_apart s _ _ _ _ _ _ _ hf hg h

theorem State.rd_wrBit_mk_apart (s : State) (a k : Nat) (b : Bool) (a' hi' lo' : Nat) (hf : k < 32)
    (hg : lo' ≤ hi' ∧ hi' < 32) (h : a ≠ a' ∨ k < lo' ∨ hi' < k) :
    (s.wrBit ⟨a, k, k⟩ b).rd ⟨a', hi', lo'⟩ = s.rd ⟨a', hi', lo'⟩ :=
  State.rd_wr_mk_apart s _ _ _ _ _ _ _ ⟨Nat.le_refl k, hf⟩ hg h

theorem State.rd_inc_mk_apart (s : State) (a hi lo a' hi' lo' : Nat) (hf : lo ≤ hi ∧ hi < 32)
    (hg : lo' ≤ hi' ∧ hi' < 32) (h : a ≠ a' ∨ hi < lo' ∨ hi' < lo) :
    (s.inc ⟨a, hi, lo⟩).rd ⟨a', hi', lo'⟩ = s.rd ⟨a', hi', lo'⟩ :=
  (State.rd_wr_mk_apart _ _ _ _ _ _ _ _ hf hg h).trans (State.rd_noteHw s _ _ _ _ _)

theorem State.rd_wrBit_mk_same (s : State) (a k : Nat) (b : Bool) (hk : k < 32) :
    (s.wrBit ⟨a, k, k⟩ b).rd ⟨a, k, k⟩ = b2n b := by
  rw [State.wrBit_eq, State.rd_wr_mk_same _ _ _ _ _ ⟨Nat.le_refl k, hk⟩, show k + 1 - k = 1 by omega]
  cases b with
  | false => rfl
  | true => rfl

theorem bit_lt_two (s : State) (a k : Nat) : s.rd ⟨a, k, k⟩ < 2 := by
  unfold State.rd planeRd bitsOf
  rw [show k + 1 - k = 1 by omega]
  exact Nat.mod_lt _ (by decide)

theorem State.rdBit_eq_false {s : State} {f : FieldRef} (h : s.rd f = 0) : s.rdBit f = false := by
  simp [State.rdBit, h]

theorem State.rdBit_eq_true {s : State} {f : FieldRef} (h : s.rd f = 1) : s.rdBit f = true := by
  simp [State.rdBit, h]

/-! ## Two's complement -/

theorem signedOf_range (v : Nat) : -2 ^ 31 ≤ signedOf 32 v ∧ signedOf 32 v < 2 ^ 31 := by
  unfold signedOf
  dsimp only
  split
  · omega
  · omega

theorem clampBits_of_range (x : Int) (h0 : -2 ^ 31 ≤ x) (h1 : x < 2 ^ 31) : clampBits 32 x = x := by
  unfold clampBits clampInt
  rw [if_neg (by omega), if_neg (by omega)]

theorem signedOf_patternOf (x : Int) (h0 : -2 ^ 31 ≤ x) (h1 : x < 2 ^ 31) : signedOf 32 (patternOf 32 x) = x := by
  unfold signedOf patternOf
  dsimp only
  split
  · omega
  · omega

theorem patternOf_lt (x : Int) : patternOf 32 x < 2 ^ 32 := by
  unfold patternOf
  omega

theorem State.rd_wrI_mk_same (s : State) (a : Nat) (x : Int) : (s.wrI ⟨a, 31, 0⟩ x).rd ⟨a, 31, 0⟩ = patternOf 32 x :=
  (State.rd_wr_mk_same _ _ _ _ _ (by decide)).trans (Nat.mod_eq_of_lt (patternOf_lt x))

theorem clampInt_range (lo hi x : Int) (h : lo ≤ hi) : lo ≤ clampInt lo hi x ∧ clampInt lo hi x ≤ hi := by
  unfold clampInt
  split
  · omega
  · split
    · omega
    · omega

/-! ## What the laws keep and give -/

/-- What a law takes as given and leaves: the descriptor and the active bank. -/
def LoopS.given (l : LoopS) : List Nat × LoopBank := (l.desc, l.act)

theorem LoopS.f_congr {l m : LoopS} (h : l.given = m.given) (o n : Nat) : l.f o n = m.f o n := by
  have hdesc : l.desc = m.desc := congrArg Prod.fst h
  rw [LoopS.f, LoopS.f, hdesc]

theorem ite_of_both {α β : Type} (g : α → β) (p : Prop) [Decidable p] {a b : α} {d : β} (ha : g a = d) (hb : g b = d) :
    g (if p then a else b) = d := by
  split
  · exact ha
  · exact hb

theorem lawHead_given (l : LoopS) (r y : Int) : (lawHead l r y).l.given = l.given :=
  have hfirst (e : Int) : (if l.first then { l with eprev := e, yprev := y } else l).given = l.given :=
    ite_of_both LoopS.given _ rfl rfl
  ite_of_both (fun h : LawHead => h.l.given) _ (hfirst _) (hfirst _)

theorem sectionsFrom_given (k q : Nat) (l : LoopS) (v : Int) : (sectionsFrom l k q v).1.given = l.given := by
  induction k generalizing q l v with
  | zero => rfl
  | succ k ih => exact ih _ _ _

theorem trackSections_given (t : Int) (k q : Nat) (l : LoopS) : (trackSections t k q l).1.given = l.given := by
  induction k generalizing q l with
  | zero => rfl
  | succ k ih => exact ih _ _

theorem trackLaw_given (l : LoopS) (r y t : Int) : (trackLaw l r y t).l.given = l.given := by
  have hhead := lawHead_given l r y
  unfold trackLaw
  generalize lawHead l r y = h at hhead
  dsimp only
  refine (trackSections_given _ _ _ _).trans ?_
  exact ite_of_both LoopS.given _ hhead (ite_of_both LoopS.given _ hhead hhead)

theorem computeLaw_given (l : LoopS) (r y inj : Int) : (computeLaw l r y inj).l.given = l.given := by
  have hhead := lawHead_given l r y
  unfold computeLaw
  generalize lawHead l r y = h at hhead
  have hx (v : Int) : (if h.l.f 0 1 = 2 then { h.l with x := v } else h.l).given = l.given :=
    ite_of_both LoopS.given _ hhead hhead
  extract_lets
  refine ite_of_both LoopS.given _ ?_ ?_
  all_goals exact (sectionsFrom_given _ _ _ _).trans (hx _)

theorem computeLaw_outprev (l : LoopS) (r y inj : Int) :
    (computeLaw l r y inj).l.outprev = (computeLaw l r y inj).out := rfl

/-- A computed output is within the limits of the active bank (R295). -/
theorem computeLaw_out_range (l : LoopS) (r y inj : Int) (h : l.act.umin ≤ l.act.umax) :
    l.act.umin ≤ (computeLaw l r y inj).out ∧ (computeLaw l r y inj).out ≤ l.act.umax := by
  have hact : (computeLaw l r y inj).l.act = l.act := congrArg Prod.snd (computeLaw_given l r y inj)
  obtain ⟨v, hv⟩ : ∃ v, (computeLaw l r y inj).out
      = clampInt (computeLaw l r y inj).l.act.umin (computeLaw l r y inj).l.act.umax v := ⟨_, rfl⟩
  rw [hv, hact]
  exact clampInt_range _ _ v h

/-! ## Reads that the status bits of a loop do not touch -/

/-- A raise that does not fall due only clears its flag. -/
theorem State.riseSup_false (s : State) (f : FieldRef) (e : Nat) : s.riseSup f false e = s.wr f 0 := by
  simp [State.riseSup, State.wrBit_eq, b2n]

/-- Tests that agree on a list find the same. -/
theorem find?_of_agree {α : Type} {p q : α → Bool} {xs : List α} (h : ∀ x ∈ xs, p x = q x) : xs.find? p = xs.find? q := by
  induction xs with
  | nil => rfl
  | cons x xs ih =>
    rw [List.find?_cons, List.find?_cons, h x List.mem_cons_self, ih fun y hy => h y (List.mem_cons_of_mem x hy)]

/-- What injector acts on a loop depends on the injectors and on their registers. -/
theorem State.injOf_congr {s t : State} (n : Nat) (hi : s.loops.inj = t.loops.inj) (hn : s.now = t.now)
    (hr : ∀ k, k < 8 → s.rd (R.LOOP_INJk_CFG_LOOP k) = t.rd (R.LOOP_INJk_CFG_LOOP k)
      ∧ s.rd (R.LOOP_INJk_STAT_ACT k) = t.rd (R.LOOP_INJk_STAT_ACT k)) : s.injOf n = t.injOf n := by
  unfold State.injOf
  refine find?_of_agree fun k hk => ?_
  obtain ⟨hloop, hact⟩ := hr k (List.mem_range.mp hk)
  simp only [State.injS, State.injActive, State.rdBit, hi, hn, hloop, hact]

/-- A field of the loops' own words, above the injectors' registers and below the other windows. -/
def FieldRef.ofLoop (f : FieldRef) : Bool := f.short && decide (0x40058000 ≤ f.addr) && decide (f.addr < 0x40060000)

theorem FieldRef.ofLoop_iff (f : FieldRef) :
    f.ofLoop = true ↔ f.short = true ∧ 0x40058000 ≤ f.addr ∧ f.addr < 0x40060000 := by
  simp [FieldRef.ofLoop, and_assoc]

theorem State.injOf_wr (s : State) (f : FieldRef) (x n : Nat) (hf : f.ofLoop = true) : (s.wr f x).injOf n = s.injOf n := by
  obtain ⟨hs, h0, -⟩ := f.ofLoop_iff.mp hf
  refine State.injOf_congr n rfl rfl fun k hk => ⟨?_, ?_⟩
  · exact State.rd_wr_apart s f _ x hs rfl (.inl (by show _ ≠ 0x40050400 + 32 * k; omega))
  · exact State.rd_wr_apart s f _ x hs rfl (.inl (by show _ ≠ 0x4005041C + 32 * k; omega))

/-- A write of a field does to both of two planes what it does to one, from an address on that the field lies above. -/
theorem planeGet_planeWr_congr (m m' : NMap Word) (f : FieldRef) (x b : Nat)
    (h : ∀ a, b ≤ a → planeGet m a = planeGet m' a) (hf : b ≤ f.addr) (a : Nat) (ha : b ≤ a) :
    planeGet (planeWr m f x) a = planeGet (planeWr m' f x) a := by
  rw [planeGet_planeWr, planeGet_planeWr, planeWide, planeWide, h f.addr hf, h (f.addr + 4) (by omega), h a ha]

theorem State.beforeHw_congr {s t : State} (q : Nat → Bool) (b : Nat) (hh : s.hw = t.hw) (hn : s.now = t.now)
    (hq : ∀ a, q a = true → b ≤ a) (h : ∀ a, b ≤ a → s.word a = t.word a) (a : Nat) (ha : b ≤ a) :
    (s.beforeHw q).word a = (t.beforeHw q).word a := by
  have hl : ∀ e ∈ s.hw.filter (fun e => e.t == s.now && q e.addr), b ≤ e.addr := fun e he => by
    obtain ⟨-, he⟩ := List.mem_filter.mp he
    exact hq _ (Bool.and_eq_true_iff.mp he).2
  unfold State.beforeHw
  rw [← hh, ← hn]
  generalize s.hw.filter (fun e => e.t == s.now && q e.addr) = l at hl
  clear hh hn
  induction l generalizing s t with
  | nil => exact h a ha
  | cons e r ih =>
    exact ih (planeGet_planeWr_congr s.regs t.regs _ _ b h (hl e List.mem_cons_self))
      (fun x hx => hl x (List.mem_cons_of_mem _ hx))

/-- A field depends on the words it can lie in. -/
theorem State.rd_of_words {s t : State} (f : FieldRef) (h0 : s.word f.addr = t.word f.addr)
    (h4 : s.word (f.addr + 4) = t.word (f.addr + 4)) : s.rd f = t.rd f := by
  unfold State.word at h0 h4
  unfold State.rd planeRd planeWide
  rw [h0, h4]

/-- A channel's accumulator depends on the registers from the converters' window on. -/
theorem State.accOf_congr {s t : State} (ch : Nat) (hh : s.hw = t.hw) (hn : s.now = t.now)
    (h : ∀ a, 0x40090000 ≤ a → s.word a = t.word a) : s.accOf ch = t.accOf ch := by
  have hw := State.beforeHw_congr (fun a => a == R.ADCS_ACCn ch) 0x40090000 hh hn
    (fun a ha => by rw [beq_iff_eq.mp ha]; unfold R.ADCS_ACCn; omega) h
  have h0 := hw (0x40090400 + 8 * ch) (by omega)
  have h4 := hw (0x40090400 + 8 * ch + 4) (by omega)
  rw [State.accOf, State.accOf]
  exact congr (congrArg AccRead.mk (State.rd_of_words _ h0 h4)) (State.rd_of_words _ h0 h4)

theorem State.keepAcc_wr (s : State) (f : FieldRef) (x : Nat) (l : LoopS) (hf : f.ofLoop = true) :
    (s.wr f x).keepAcc l = s.keepAcc l := by
  obtain ⟨hs, -, h1⟩ := f.ofLoop_iff.mp hf
  simp only [FieldRef.short, Bool.and_eq_true, decide_eq_true_eq] at hs
  have hacc (ch : Nat) : (s.wr f x).accOf ch = s.accOf ch :=
    State.accOf_congr ch rfl rfl fun a ha => State.word_wr_other s f x a (by omega) (by omega)
  simp only [State.keepAcc, hacc]

/-! ## What a loop tracks -/

/-- Bit b of `LOOP_nSTAT`. -/
def statusBit (n b : Nat) : FieldRef := ⟨0x4005801C + 64 * n, b, b⟩

/-- What the inner loop tracks depends on no cascade-lost or feedback-lost bit. -/
theorem State.innerTrack_wr (s : State) (n b x m : Nat) (hb : b = 3 ∨ b = 9) :
    (s.wr (statusBit n b) x).innerTrack m = s.innerTrack m := by
  have hs (k : Nat) : (s.wr (statusBit n b) x).rd (R.LOOP_nSEAL_SEALED k) = s.rd (R.LOOP_nSEAL_SEALED k) := by
    simp (disch := omega) only [statusBit, R.LOOP_nSEAL_SEALED, State.rd_wr_mk_apart]
  have hr (k : Nat) : (s.wr (statusBit n b) x).rd (R.LOOP_nSTAT_RUN k) = s.rd (R.LOOP_nSTAT_RUN k) := by
    simp (disch := omega) only [statusBit, R.LOOP_nSTAT_RUN, State.rd_wr_mk_apart]
  have ht (k : Nat) : (s.wr (statusBit n b) x).rd (R.LOOP_nSTAT_TRACK k) = s.rd (R.LOOP_nSTAT_TRACK k) := by
    simp (disch := omega) only [statusBit, R.LOOP_nSTAT_TRACK, State.rd_wr_mk_apart]
  have ha (k : Nat) : (s.wr (statusBit n b) x).rd (R.LOOP_nSTAT_REACT k) = s.rd (R.LOOP_nSTAT_REACT k) := by
    simp (disch := omega) only [statusBit, R.LOOP_nSTAT_REACT, State.rd_wr_mk_apart]
  have hp (k : Nat) : (s.wr (statusBit n b) x).rd (R.LOOP_nRSP_RSP k) = s.rd (R.LOOP_nRSP_RSP k) := by
    simp (disch := omega) only [statusBit, R.LOOP_nRSP_RSP, State.rd_wr_mk_apart]
  unfold State.innerTrack
  simp only [State.loopSealed, State.loopRun, State.rdBit, State.rdI, hs, hr, ht, ha, hp]
  rfl

/-- A loop without a destination is not forced. -/
theorem State.loopForced_none (s : State) (l : LoopS) (hd : l.f 15 1 = 0) : s.loopForced l = false := by
  simp [State.loopForced, hd]

theorem State.loopTrack_wr (s : State) (n b x : Nat) (l : LoopS) (back : Bool) (hb : b = 3 ∨ b = 9) (hd : l.f 15 1 = 0) :
    (s.wr (statusBit n b) x).loopTrack n l back = s.loopTrack n l back := by
  have hr : (s.wr (statusBit n b) x).rd (R.LOOP_nSTAT_REACT n) = s.rd (R.LOOP_nSTAT_REACT n) := by
    simp (disch := omega) only [statusBit, R.LOOP_nSTAT_REACT, State.rd_wr_mk_apart]
  have ho : (s.wr (statusBit n b) x).rd (R.LOOP_nOUT_OUT n) = s.rd (R.LOOP_nOUT_OUT n) := by
    simp (disch := omega) only [statusBit, R.LOOP_nOUT_OUT, State.rd_wr_mk_apart]
  have hm : (s.wr (statusBit n b) x).rd (R.LOOP_nMODE_MODE n) = s.rd (R.LOOP_nMODE_MODE n) := by
    simp (disch := omega) only [statusBit, R.LOOP_nMODE_MODE, State.rd_wr_mk_apart]
  have hv : (s.wr (statusBit n b) x).rd (R.LOOP_nMANOUT_MANOUT n) = s.rd (R.LOOP_nMANOUT_MANOUT n) := by
    simp (disch := omega) only [statusBit, R.LOOP_nMANOUT_MANOUT, State.rd_wr_mk_apart]
  simp only [State.loopTrack, State.loopForced_none _ l hd, State.destValue, hd, State.rdI, State.rdBit, hr, ho, hm, hv,
    State.innerTrack_wr s n b x n hb]

/-- In manual mode a loop without a reaction tracks MANOUT (R296, R297). -/
theorem State.loopTrack_manual (s : State) (n : Nat) (l : LoopS) (hd : l.f 15 1 = 0) (hr : s.rd (R.LOOP_nSTAT_REACT n) = 0)
    (hm : s.rd (R.LOOP_nMODE_MODE n) = 0) : s.loopTrack n l false = some (s.rdI (R.LOOP_nMANOUT_MANOUT n)) := by
  simp [State.loopTrack, State.loopForced_none s l hd, hr, State.rdBit, hm]

/-- In automatic a loop without a reaction, a waiting outer loop and a first evaluation tracks nothing (R297). -/
theorem State.loopTrack_auto (s : State) (n : Nat) (l : LoopS) (hd : l.f 15 1 = 0) (hr : s.rd (R.LOOP_nSTAT_REACT n) = 0)
    (hm : s.rd (R.LOOP_nMODE_MODE n) = 1) (hi : s.innerTrack n = none) (hf : l.first = false) :
    s.loopTrack n l false = none := by
  simp [State.loopTrack, State.loopForced_none s l hd, hr, State.rdBit, hm, hi, hf]

/-! ## Supervision without a model -/

/-- The loop after a law that supervision lets pass, without a model: its output enters the history. -/
def Law.passed (w : Law) : LoopS :=
  { w.l with minit := false, hist := (w.out :: w.l.hist).take 256, outside := 0 }

/-- A loop without a model, with its feedback and under no reaction, passes supervision: the law stands, and the flags of
supervision are clear (R305 to R307). -/
theorem State.supervise_quiet (s : State) (n : Nat) (before : LoopS) (w : Law) (r y : Int) (track : Bool)
    (hmodel : w.l.f 60 1 = 0) (hr : s.rd (R.LOOP_nSTAT_REACT n) = 0) :
    s.supervise n before w r y false track =
      ⟨{ w with l := w.passed }, 0, track,
        ((s.wrI (R.LOOP_nRES_RES n) 0).wr (R.LOOP_nSTAT_SUSP n) 0).wr (R.LOOP_nSTAT_DCLAMP n) 0⟩ := by
  have hsusp : s.suspended w.l = false := by simp [State.suspended, hmodel]
  have hstep : s.loopModel w.l y w.out
      = ({ w.l with minit := false, hist := (w.out :: w.l.hist).take 256 }, 0, false) := by
    simp [State.loopModel, hmodel]
  have hreact : (((s.wrI (R.LOOP_nRES_RES n) 0).wr (R.LOOP_nSTAT_SUSP n) 0).wr (R.LOOP_nSTAT_DCLAMP n) 0).rd
      (R.LOOP_nSTAT_REACT n) = 0 := by
    simp (disch := omega) only [State.wrI_eq, R.LOOP_nRES_RES, R.LOOP_nSTAT_SUSP, R.LOOP_nSTAT_DCLAMP, R.LOOP_nSTAT_REACT,
      State.rd_wr_mk_apart]
    exact hr
  have hf : ({ w.l with minit := false, hist := (w.out :: w.l.hist).take 256 } : LoopS).f 60 1 = 0 := hmodel
  simp only [State.supervise, hsusp, hstep, State.riseSup_false, hreact, State.countOutside, hf]
  rfl

/-! ## An evaluation that nothing disturbs -/

/-- The flags of lost sources clear (step 4 of R285). -/
def State.sourcesFound (s : State) (n : Nat) : State := (s.wr (R.LOOP_nSTAT_FBLOSS n) 0).wr (R.LOOP_nSTAT_CASLOST n) 0

/-- The feedback and the setpoint in use shown, and the flags of supervision clear (steps 5 and 6). -/
def State.showSources (s : State) (n : Nat) (y r : Int) : State :=
  ((((s.wrI (R.LOOP_nYUSE_YUSE n) y).wrI (R.LOOP_nRSP_RSP n) r).wrI (R.LOOP_nRES_RES n) 0).wr (R.LOOP_nSTAT_SUSP n) 0).wr
    (R.LOOP_nSTAT_DCLAMP n) 0

/-- The status of the evaluation shown, a saturation counted. -/
def State.showStatus (s : State) (n : Nat) (track sat : Bool) : State :=
  (((((s.wrBit (R.LOOP_nSTAT_TRACK n) track).wrBit (R.LOOP_nSTAT_SAT n) sat).wr (R.LOOP_nSTAT_FORCED n) 0).wr
    (R.LOOP_nSTAT_OUTB n) 0).wr (R.LOOP_nSTAT_CASC n) 0).when sat fun t => t.inc (R.LOOP_nCNT_SATS n)

/-- Everything an evaluation does when nothing disturbs it, but for its output. -/
def State.showEvaluation (s : State) (n : Nat) (y r : Int) (l : LoopS) (track sat : Bool) : State :=
  (((s.sourcesFound n).showSources n y r).setLoop n l).showStatus n track sat

/-- The output shown, with no injector (step 7). -/
def State.showOutput (s : State) (n : Nat) (out : Int) : State := (s.wr (R.LOOP_nSTAT_INJ n) 0).wrI (R.LOOP_nOUT_OUT n) out

/-- The loop that an undisturbed evaluation leaves, with its nodes. -/
def LoopS.evaluated (w : Law) (r y : Int) : LoopS :=
  { w.passed with first := false, nodes := lawNodes w.passed { w with l := w.passed } r y 0 0 }

theorem State.sourcesFound_rd_apart (s : State) (n : Nat) (a hi lo : Nat) (hg : lo ≤ hi ∧ hi < 32)
    (ha : a ≠ 0x4005801C + 64 * n ∨ hi < 3 ∨ 9 < lo) : (s.sourcesFound n).rd ⟨a, hi, lo⟩ = s.rd ⟨a, hi, lo⟩ := by
  simp (disch := omega) only [State.sourcesFound, R.LOOP_nSTAT_FBLOSS, R.LOOP_nSTAT_CASLOST, State.rd_wr_mk_apart]

theorem State.showSources_rd_apart (s : State) (n : Nat) (y r : Int) (a hi lo : Nat) (hg : lo ≤ hi ∧ hi < 32)
    (ha : a < 0x4005801C + 64 * n ∨ 0x40058030 + 64 * n ≤ a) :
    (s.showSources n y r).rd ⟨a, hi, lo⟩ = s.rd ⟨a, hi, lo⟩ := by
  simp (disch := omega) only [State.showSources, R.LOOP_nYUSE_YUSE, R.LOOP_nRSP_RSP, R.LOOP_nRES_RES, R.LOOP_nSTAT_SUSP,
    R.LOOP_nSTAT_DCLAMP, State.rd_wr_mk_apart, State.rd_wrI_mk_apart]

/-- The status lies in two words. -/
theorem State.showStatus_rd_apart (s : State) (n : Nat) (track sat : Bool) (a hi lo : Nat) (hg : lo ≤ hi ∧ hi < 32)
    (ha : a ≠ 0x4005801C + 64 * n) (hc : a ≠ 0x40058030 + 64 * n) :
    (s.showStatus n track sat).rd ⟨a, hi, lo⟩ = s.rd ⟨a, hi, lo⟩ := by
  have hcnt (t : State) : (t.when sat fun t => t.inc (R.LOOP_nCNT_SATS n)).rd ⟨a, hi, lo⟩ = t.rd ⟨a, hi, lo⟩ := by
    cases sat with
    | false => rfl
    | true => exact State.rd_inc_mk_apart t _ _ _ _ _ _ (by decide) hg (.inl (Ne.symm hc))
  simp (disch := omega) only [State.showStatus, hcnt, R.LOOP_nSTAT_TRACK,
      R.LOOP_nSTAT_SAT, R.LOOP_nSTAT_FORCED, R.LOOP_nSTAT_OUTB, R.LOOP_nSTAT_CASC, State.rd_wr_mk_apart, State.rd_wrBit_mk_apart]

/-- Words outside `LOOP_nSTAT` to `LOOP_nCNT` are as they were. -/
theorem State.showEvaluation_rd_apart (s : State) (n : Nat) (y r : Int) (l : LoopS) (track sat : Bool) (a hi lo : Nat)
    (hg : lo ≤ hi ∧ hi < 32) (ha : a < 0x4005801C + 64 * n ∨ 0x40058030 + 64 * n < a) :
    (s.showEvaluation n y r l track sat).rd ⟨a, hi, lo⟩ = s.rd ⟨a, hi, lo⟩ := by
  rw [State.showEvaluation, State.showStatus_rd_apart _ _ _ _ _ _ _ hg (by omega) (by omega), State.rd_setLoop,
    State.showSources_rd_apart _ _ _ _ _ _ _ hg (by omega), State.sourcesFound_rd_apart _ _ _ _ _ hg (by omega)]

/-- An update of registers alone, as far as an evaluation and its outcome are concerned. -/
structure State.RegsOnly (s t : State) : Prop where
  loops : t.loops = s.loops
  tick : t.tick = s.tick
  cycle : t.cycle = s.cycle
  mem : t.mem = s.mem
  cores : t.cores = s.cores

theorem State.RegsOnly.trans {s t u : State} (h : s.RegsOnly t) (h' : t.RegsOnly u) : s.RegsOnly u :=
  ⟨h'.loops.trans h.loops, h'.tick.trans h.tick, h'.cycle.trans h.cycle, h'.mem.trans h.mem, h'.cores.trans h.cores⟩

theorem State.RegsOnly.now {s t : State} (h : s.RegsOnly t) : t.now = s.now := by
  rw [State.now, State.now, h.tick, h.cycle]

theorem State.regsOnly_wr (s : State) (f : FieldRef) (x : Nat) : s.RegsOnly (s.wr f x) := ⟨rfl, rfl, rfl, rfl, rfl⟩

theorem State.regsOnly_inc (s : State) (f : FieldRef) : s.RegsOnly (s.inc f) := ⟨rfl, rfl, rfl, rfl, rfl⟩

theorem State.RegsOnly.wr {s t : State} (h : s.RegsOnly t) (f : FieldRef) (x : Nat) : s.RegsOnly (t.wr f x) :=
  h.trans (State.regsOnly_wr t f x)

theorem State.RegsOnly.setLoop {s t : State} (h : s.RegsOnly t) (n : Nat) (l : LoopS) :
    (s.setLoop n l).RegsOnly (t.setLoop n l) :=
  ⟨by simp only [State.setLoop, State.setLoops, h.loops], h.tick, h.cycle, h.mem, h.cores⟩

theorem State.regsOnly_sourcesFound (s : State) (n : Nat) : s.RegsOnly (s.sourcesFound n) :=
  (State.regsOnly_wr s _ _).wr _ _

theorem State.regsOnly_showSources (s : State) (n : Nat) (y r : Int) : s.RegsOnly (s.showSources n y r) :=
  ((((State.regsOnly_wr s _ _).wr _ _).wr _ _).wr _ _).wr _ _

theorem State.regsOnly_showStatus (s : State) (n : Nat) (track sat : Bool) : s.RegsOnly (s.showStatus n track sat) := by
  have h := ((((State.regsOnly_wr s (R.LOOP_nSTAT_TRACK n) (b2n track)).wr (R.LOOP_nSTAT_SAT n) (b2n sat)).wr
    (R.LOOP_nSTAT_FORCED n) 0).wr (R.LOOP_nSTAT_OUTB n) 0).wr (R.LOOP_nSTAT_CASC n) 0
  cases sat with
  | false => exact h
  | true => exact h.trans (State.regsOnly_inc _ _)

theorem State.regsOnly_showOutput (s : State) (n : Nat) (out : Int) : s.RegsOnly (s.showOutput n out) :=
  (State.regsOnly_wr s _ _).wr _ _

/-- An evaluation that nothing disturbs changes, besides registers, its own loop alone. -/
theorem State.regsOnly_showEvaluation (s : State) (n : Nat) (y r : Int) (l : LoopS) (track sat : Bool) :
    (s.setLoop n l).RegsOnly (s.showEvaluation n y r l track sat) := by
  have h := (State.regsOnly_sourcesFound s n).trans (State.regsOnly_showSources (s.sourcesFound n) n y r)
  rw [State.showEvaluation]
  exact (h.setLoop n l).trans (State.regsOnly_showStatus _ n track sat)

/-- What the registers of the status show. -/
theorem State.showStatus_shown (s : State) (n : Nat) (track sat : Bool) :
    (s.showStatus n track sat).rd (R.LOOP_nSTAT_SAT n) = b2n sat
      ∧ (s.showStatus n track sat).rd (R.LOOP_nSTAT_TRACK n) = b2n track := by
  have hcnt (t : State) (k : Nat) (hk : k < 32) :
      (t.when sat fun t => t.inc (R.LOOP_nCNT_SATS n)).rd ⟨0x4005801C + 64 * n, k, k⟩
        = t.rd ⟨0x4005801C + 64 * n, k, k⟩ := by
    cases sat with
    | false => rfl
    | true => exact State.rd_inc_mk_apart t _ _ _ _ _ _ (by decide) ⟨Nat.le_refl k, hk⟩ (.inl (by omega))
  constructor
  · simp (disch := omega) only [State.showStatus, R.LOOP_nSTAT_TRACK, hcnt,
      R.LOOP_nSTAT_SAT, R.LOOP_nSTAT_FORCED, R.LOOP_nSTAT_OUTB, R.LOOP_nSTAT_CASC, State.rd_wr_mk_apart,
      State.rd_wrBit_mk_same]
  · simp (disch := omega) only [State.showStatus, R.LOOP_nSTAT_TRACK, hcnt,
      R.LOOP_nSTAT_SAT, R.LOOP_nSTAT_FORCED, R.LOOP_nSTAT_OUTB, R.LOOP_nSTAT_CASC, State.rd_wr_mk_apart,
      State.rd_wrBit_mk_apart, State.rd_wrBit_mk_same]

theorem State.showSources_shown (s : State) (n : Nat) (y r : Int) :
    (s.showSources n y r).rd (R.LOOP_nYUSE_YUSE n) = patternOf 32 y
      ∧ (s.showSources n y r).rd (R.LOOP_nRSP_RSP n) = patternOf 32 r := by
  constructor
  · simp (disch := omega) only [State.showSources, R.LOOP_nYUSE_YUSE, R.LOOP_nRSP_RSP, R.LOOP_nRES_RES, R.LOOP_nSTAT_SUSP,
      R.LOOP_nSTAT_DCLAMP, State.rd_wr_mk_apart, State.rd_wrI_mk_apart, State.rd_wrI_mk_same]
  · simp (disch := omega) only [State.showSources, R.LOOP_nYUSE_YUSE, R.LOOP_nRSP_RSP, R.LOOP_nRES_RES, R.LOOP_nSTAT_SUSP,
      R.LOOP_nSTAT_DCLAMP, State.rd_wr_mk_apart, State.rd_wrI_mk_apart, State.rd_wrI_mk_same]

theorem State.showOutput_rd_out (s : State) (n : Nat) (out : Int) :
    (s.showOutput n out).rd (R.LOOP_nOUT_OUT n) = patternOf 32 out := State.rd_wrI_mk_same _ _ _

/-- The output and the injector's bit are written, nothing else. -/
theorem State.showOutput_rd_apart (s : State) (n : Nat) (out : Int) (a hi lo : Nat) (hg : lo ≤ hi ∧ hi < 32)
    (ha : a ≠ 0x40058020 + 64 * n) (hs : a ≠ 0x4005801C + 64 * n ∨ hi < 12) :
    (s.showOutput n out).rd ⟨a, hi, lo⟩ = s.rd ⟨a, hi, lo⟩ := by
  simp (disch := omega) only [State.showOutput, R.LOOP_nSTAT_INJ, R.LOOP_nOUT_OUT, State.rd_wrI_mk_apart, State.rd_wr_mk_apart]

/-- What the registers show after an evaluation that nothing disturbs. -/
theorem State.showEvaluation_shown (s : State) (n : Nat) (y r : Int) (l : LoopS) (track sat : Bool) (out : Int) :
    let t := (s.showEvaluation n y r l track sat).showOutput n out
    t.rd (R.LOOP_nYUSE_YUSE n) = patternOf 32 y ∧ t.rd (R.LOOP_nRSP_RSP n) = patternOf 32 r
      ∧ t.rd (R.LOOP_nSTAT_SAT n) = b2n sat ∧ t.rd (R.LOOP_nSTAT_TRACK n) = b2n track := by
  obtain ⟨hsat, htrack⟩ := State.showStatus_shown (((s.sourcesFound n).showSources n y r).setLoop n l) n track sat
  obtain ⟨hy, hr⟩ := State.showSources_shown (s.sourcesFound n) n y r
  refine ⟨?_, ?_, ?_, ?_⟩
  · rw [← hy, R.LOOP_nYUSE_YUSE, State.showOutput_rd_apart _ _ _ _ _ _ (by decide) (by omega) (by omega), State.showEvaluation,
      State.showStatus_rd_apart _ _ _ _ _ _ _ (by decide) (by omega) (by omega), State.rd_setLoop]
  · rw [← hr, R.LOOP_nRSP_RSP, State.showOutput_rd_apart _ _ _ _ _ _ (by decide) (by omega) (by omega), State.showEvaluation,
      State.showStatus_rd_apart _ _ _ _ _ _ _ (by decide) (by omega) (by omega), State.rd_setLoop]
  · rw [← hsat]
    exact State.showOutput_rd_apart _ _ _ _ _ _ (by decide) (by omega) (by omega)
  · rw [← htrack]
    exact State.showOutput_rd_apart _ _ _ _ _ _ (by decide) (by omega) (by omega)

/-- No evaluation changes which injector acts on a loop. -/
theorem State.showEvaluation_injOf (s : State) (n : Fin 512) (y r : Int) (l : LoopS) (track sat : Bool) (m : Nat) :
    (s.showEvaluation n.val y r l track sat).injOf m = s.injOf m := by
  have h := State.regsOnly_showEvaluation s n.val y r l track sat
  refine State.injOf_congr m ((congrArg LoopsS.inj h.loops).trans rfl) h.now fun k hk => ⟨?_, ?_⟩
  · exact State.showEvaluation_rd_apart _ _ _ _ _ _ _ _ _ _ (by decide) (by omega)
  · exact State.showEvaluation_rd_apart _ _ _ _ _ _ _ _ _ _ (by decide) (by omega)

/-- The law of an undisturbed evaluation: tracking what the loop tracks, or computed (R295, R298). -/
def lawOf (l : LoopS) (r y : Int) : Option Int → Law
  | some t => trackLaw l r y t
  | none => computeLaw l r y 0

theorem lawOf_given (l : LoopS) (r y : Int) (t : Option Int) : (lawOf l r y t).l.given = l.given := by
  cases t with
  | none => exact computeLaw_given l r y 0
  | some t => exact trackLaw_given l r y t

theorem statusBit_ofLoop (n : Fin 512) (b : Nat) (hb : b < 32) : (statusBit n.val b).ofLoop = true := by
  refine (FieldRef.ofLoop_iff _).mpr ⟨?_, ?_, ?_⟩
  · simp [FieldRef.short, statusBit, hb]
  · dsimp only [statusBit]
    omega
  · dsimp only [statusBit]
    omega

theorem State.sourcesFound_injOf (s : State) (n : Fin 512) (m : Nat) : (s.sourcesFound n.val).injOf m = s.injOf m :=
  (State.injOf_wr _ _ 0 m (statusBit_ofLoop n 3 (by decide))).trans (State.injOf_wr _ _ 0 m (statusBit_ofLoop n 9 (by decide)))

theorem State.sourcesFound_keepAcc (s : State) (n : Fin 512) (l : LoopS) : (s.sourcesFound n.val).keepAcc l = s.keepAcc l :=
  (State.keepAcc_wr _ _ 0 l (statusBit_ofLoop n 3 (by decide))).trans
    (State.keepAcc_wr _ _ 0 l (statusBit_ofLoop n 9 (by decide)))

theorem State.sourcesFound_loopTrack (s : State) (n : Nat) (l : LoopS) (back : Bool) (hd : l.f 15 1 = 0) :
    (s.sourcesFound n).loopTrack n l back = s.loopTrack n l back :=
  (State.loopTrack_wr _ n 3 0 l back (.inl rfl) hd).trans (State.loopTrack_wr s n 9 0 l back (.inr rfl) hd)

/-- With its setpoint in the register, a loop takes it from there (R291). -/
theorem State.sourcesFound_setpoint (s : State) (n : Nat) (l : LoopS) (h : l.f 12 1 = 0) :
    (s.sourcesFound n).loopSetpoint n l = (s.rdI (R.LOOP_nSP_SP n), false) := by
  simp (disch := omega) [State.loopSetpoint, h, State.sourcesFound, State.rdI, R.LOOP_nSTAT_FBLOSS, R.LOOP_nSTAT_CASLOST,
    R.LOOP_nSP_SP, State.rd_wr_mk_apart]

theorem State.loopTrack_sp (s : State) (n : Nat) (l : LoopS) (x : Int) (back : Bool) :
    s.loopTrack n { l with sp := x } back = s.loopTrack n l back := rfl

theorem State.readModel_none (s : State) (l : LoopS) (h : l.f 60 1 = 0) : s.readModel l = l := by
  simp [State.readModel, h]

theorem State.capRecord_idle (s : State) (n : Nat) (h : s.rd R.LOOP_CAPSTAT_ACT = 0) : s.capRecord n = s := by
  simp [State.capRecord, State.rdBit, h]

theorem State.deliver_none (s : State) (n : Nat) (l : LoopS) (out : Int) (h : l.f 15 1 = 0) :
    s.deliver n l out = s.wrI (R.LOOP_nOUT_OUT n) out := by
  simp [State.deliver, h]

/-- Loop n's setpoint is its register, and it has no destination, no model, no reaction, no injector and no capture. -/
structure State.Undisturbed (s : State) (n : Nat) (l : LoopS) : Prop where
  setpoint : l.f 12 1 = 0
  destination : l.f 15 1 = 0
  model : l.f 60 1 = 0
  acked : l.rack = none
  reaction : s.rd (R.LOOP_nSTAT_REACT n) = 0
  injector : s.injOf n = none
  capture : s.rd R.LOOP_CAPSTAT_ACT = 0

/-- The steps of R285, one fact for each: what is found, the law, and what is shown. -/
theorem State.loopCycle_undisturbed (s : State) (n : Fin 512) (y : Int) (clipped : Bool) (h : s.Undisturbed n.val (s.loopS n.val))
    (hy : s.loopY (s.loopS n.val) = some (y, clipped)) :
    let sp := s.rdI (R.LOOP_nSP_SP n.val)
    let track := s.loopTrack n.val (s.loopS n.val) false
    let w := lawOf (s.keepAcc { s.loopS n.val with sp := sp }) sp y track
    s.loopCycle n.val =
      (s.showEvaluation n.val y sp (LoopS.evaluated w sp y) track.isSome (w.sat || clipped)).showOutput n.val w.out := by
  obtain ⟨hset, hdest, hmodel, hack, hreact, hinj, hcap⟩ := h
  intro sp track w
  have hspr : clampBits 32 sp = sp := clampBits_of_range sp (signedOf_range _).1 (signedOf_range _).2
  have hw : w.l.given = (s.loopS n.val).given := lawOf_given _ _ _ _
  unfold State.loopCycle
  extract_lets l0 acked back s0 l1 l2 fb y' lost s1 inner outerRuns s2 inj s3 smp atOut sp' r0 l3 r track' l4 w0 w1 forced s4 v w2
    s5 l5 lf s6 s7 s8 s9 s10 s11 s12
  have hl0 : l0 = s.loopS n.val := State.readModel_none _ _ hmodel
  have hacked : acked = false := by simp [acked, hl0, hack]
  have hback : back = false := by simp [back, hacked]
  have hs0 : s0 = s := if_neg (by simp [hback])
  have hl2 : l2 = s.loopS n.val := by simp [l2, l1, hacked, hback, hl0]
  have hfb : fb = some (y, clipped) := by simp only [fb, hs0, hl2, hy]
  have hlost : lost = false := by simp [lost, hfb]
  have hy' : y' = y := by simp [y', hfb]
  have hinner : inner = false := by simp [inner, hl2, hset]
  have hs2 : s2 = s.sourcesFound n.val := by simp [s2, s1, hlost, hinner, hs0, State.riseSup_false, State.sourcesFound]
  have hinj' : inj = none := by simp only [inj, hs2, State.sourcesFound_injOf, hinj]
  have hs3 : s3 = s.sourcesFound n.val := by simp only [s3, hinj', hs2]
  have hsmp : smp = 0 := by simp [smp, hinj']
  have hat : atOut = false := by simp [atOut, hinj']
  have hsp : sp' = (sp, false) := by simp only [sp', hs3, hl2, State.sourcesFound_setpoint _ _ _ hset, sp]
  have hl3 : l3 = { s.loopS n.val with sp := sp } := by simp only [l3, r0, hsp, hl2]
  have hr : r = sp := by simp [r, hat, hsmp, r0, hsp, hspr]
  have htrack : track' = track := by
    simp only [track', hs3, hl3, hback, State.loopTrack_sp, State.sourcesFound_loopTrack _ _ _ _ hdest, track]
  have hl4 : l4 = s.keepAcc { s.loopS n.val with sp := sp } := by simp only [l4, hs3, hl3, State.sourcesFound_keepAcc]
  have hw0 : w0 = w := by
    simp only [w0, htrack, hl4, hr, hy', hat, w]
    cases track <;> rfl
  have hw1 : w1 = { w with sat := w.sat || clipped } := by
    simp [w1, hw0, hsp, hfb, hat, hr, r0, hsmp]
  have hforced : forced = false := State.loopForced_none _ _ (by rw [hl4]; exact hdest)
  have hs4 : s4 = ((s.sourcesFound n.val).wrI (R.LOOP_nYUSE_YUSE n.val) y).wrI (R.LOOP_nRSP_RSP n.val) sp := by
    simp only [s4, hs3, hy', hr]
  have hv : v = ⟨{ w with sat := w.sat || clipped, l := w.passed }, 0, track.isSome,
      (s.sourcesFound n.val).showSources n.val y sp⟩ := by
    simp only [v, hw1, hr, hy', hlost, htrack]
    rw [State.supervise_quiet, hs4]
    · rfl
    · exact (LoopS.f_congr hw 60 1).trans hmodel
    · rw [hs4]
      simp (disch := omega) only [State.sourcesFound, State.wrI_eq, R.LOOP_nYUSE_YUSE, R.LOOP_nRSP_RSP, R.LOOP_nSTAT_FBLOSS,
        R.LOOP_nSTAT_CASLOST, R.LOOP_nSTAT_REACT, State.rd_wr_mk_apart]
      exact hreact
  have hlf : lf = LoopS.evaluated w sp y := by
    simp only [lf, l5, w2, hv, hr, hy', hsmp]
    rfl
  have hout : lf.outside = 0 := by rw [hlf]; rfl
  have hs10 : s10 = s.showEvaluation n.val y sp lf track.isSome (w.sat || clipped) := by
    simp only [s10, s9, s8, s7, s6, s5, w2, hv, hforced, hinner, hout, State.showEvaluation, State.showStatus, State.wrBit_eq]
    rfl
  have hs12 : s12 = s10.wr (R.LOOP_nSTAT_INJ n.val) 0 := by
    simp only [s12, s11, hinj', hs10, State.showEvaluation_injOf, hinj]
    rfl
  have hw2 : w2.out = w.out := by simp only [w2, hv]
  have hidle : (s12.deliver n.val lf w2.out).rd R.LOOP_CAPSTAT_ACT = 0 := by
    rw [State.deliver_none _ _ _ _ (by rw [hlf]; exact (LoopS.f_congr hw 15 1).trans hdest), hs12, hs10]
    exact (State.showOutput_rd_apart _ _ _ _ _ _ (by decide) (by omega) (by omega)).trans
      ((State.showEvaluation_rd_apart _ _ _ _ _ _ _ _ _ _ (by decide) (by omega)).trans hcap)
  rw [State.capRecord_idle _ _ hidle, State.deliver_none, hs12, hs10, hlf, hw2]
  · rfl
  · rw [hlf]
    exact (LoopS.f_congr hw 15 1).trans hdest

/-! ## The command -/

/-- Where no write falls in the present cycle, a sample sees the state as it is (R6). -/
theorem State.sampled_unwritten (s : State) (f : State → State) (h : ∀ w ∈ s.wrote, w.t ≠ s.now) : s.sampled f = f s := by
  have hnone : s.wroteNow = [] := List.filter_eq_nil_iff.mpr fun w hw => by simpa using h w hw
  simp [State.sampled, hnone]

theorem exec_loopEvaluation_unwritten (s : State) (n : Fin 512) (he : s.evIn = [])
    (hw : ∀ w ∈ s.wrote, w.t ≠ (s.setCycle (1600 + 100 * n.val)).now) :
    exec (.loopEvaluation n) s = .next ((s.setCycle (1600 + 100 * n.val)).loopEvaluate n.val) := by
  show execLoopEvaluation n s = _
  rw [execLoopEvaluation, State.atCycle_quiet _ _ he, State.sampled_unwritten _ _ hw]

theorem State.applyConsole_empty (s : State) (n since : Nat) (h : s.loops.console = []) : s.applyConsole n since = s := by
  simp [State.applyConsole, h, takeFirst]

theorem State.swapLoop_none (s : State) (n : Nat) (h : s.rd (R.LOOP_nBANK_PEND n) = 0) : s.swapLoop n = s := by
  simp [State.swapLoop, State.rdBit_eq_false h]

theorem State.rdBit_bit_iff (s : State) (a k : Nat) : s.rdBit ⟨a, k, k⟩ = true ↔ s.rd ⟨a, k, k⟩ = 1 := by
  have h := bit_lt_two s a k
  simp only [State.rdBit, bne_iff_ne]
  omega

/-- Loop n is evaluated in the present tick (R283). -/
def State.loopDue (s : State) (n : Nat) : Prop :=
  s.rd (R.LOOP_nSEAL_SEALED n) = 1 ∧ s.tick.toNat % (s.loopS n).f 4 4 = (s.loopS n).f 8 4

theorem State.loopDue_iff (s : State) (n : Nat) :
    (s.loopSealed n && s.tickN % (s.loopS n).f 4 4 == (s.loopS n).f 8 4) = true ↔ s.loopDue n := by
  simp only [Bool.and_eq_true, beq_iff_eq, State.loopSealed, State.loopDue, R.LOOP_nSEAL_SEALED, State.rdBit_bit_iff, State.tickN]

theorem State.injAbort_none (s : State) (n : Nat) (h : s.injOf n = none) : s.injAbort n = s := by
  simp [State.injAbort, h]

/-- A loop that stops without an injector clears two bits and shows the counts (R288). -/
theorem State.loopStop_quiet (s : State) (n : Fin 512) (h : s.injOf n.val = none) :
    s.loopStop n.val = ((s.wr (R.LOOP_nSTAT_RUN n.val) 0).wr (R.LOOP_nSTAT_CASC n.val) 0).showLoops := by
  have hinj : ((s.wr (R.LOOP_nSTAT_RUN n.val) 0).wr (R.LOOP_nSTAT_CASC n.val) 0).injOf n.val = none :=
    (State.injOf_wr _ _ 0 _ (statusBit_ofLoop n 2 (by decide))).trans
      ((State.injOf_wr _ _ 0 _ (statusBit_ofLoop n 0 (by decide))).trans h)
  rw [State.loopStop, State.injAbort_none _ _ hinj]

theorem State.regsOnly_showLoops (s : State) : s.RegsOnly s.showLoops := ((State.regsOnly_wr s _ _).wr _ _).wr _ _

/-- The counts of the loops lie in one word. -/
theorem State.showLoops_rd_apart (s : State) (a hi lo : Nat) (hg : lo ≤ hi ∧ hi < 32) (ha : a ≠ 0x40050000) :
    s.showLoops.rd ⟨a, hi, lo⟩ = s.rd ⟨a, hi, lo⟩ := by
  simp (disch := omega) only [State.showLoops, R.LOOP_STAT_NRUN, R.LOOP_STAT_NQ, R.LOOP_STAT_NB, State.rd_wr_mk_apart]

/-- What a stop without an injector leaves. -/
theorem State.loopStop_shown (s : State) (n : Fin 512) (h : s.injOf n.val = none) :
    (s.loopStop n.val).rd (R.LOOP_nSTAT_RUN n.val) = 0
      ∧ (s.loopStop n.val).rd (R.LOOP_nOUT_OUT n.val) = s.rd (R.LOOP_nOUT_OUT n.val) ∧ s.RegsOnly (s.loopStop n.val) := by
  rw [State.loopStop_quiet s n h, R.LOOP_nSTAT_RUN, R.LOOP_nOUT_OUT, R.LOOP_nSTAT_CASC,
    State.showLoops_rd_apart _ _ _ _ (by decide) (by omega), State.showLoops_rd_apart _ _ _ _ (by decide) (by omega)]
  refine ⟨?_, ?_, ((State.regsOnly_wr s _ _).wr _ _).trans (State.regsOnly_showLoops _)⟩
  · simp (disch := omega) only [State.rd_wr_mk_apart, State.rd_wr_mk_same, Nat.zero_mod]
  · simp (disch := omega) only [State.rd_wr_mk_apart]

section
variable (s : State) (n : Nat) (hrun : s.rd (R.LOOP_nSTAT_RUN n) = 1) (hc : s.loops.console = [])
include hrun

/-- A running loop that is not due does nothing (R284). -/
theorem State.loopEvaluate_notDue (h : ¬s.loopDue n) : s.loopEvaluate n = s := by
  have hdue := mt (s.loopDue_iff n).mp h
  simp only [State.loopEvaluate, State.loopRun, State.rdBit_eq_true hrun, hdue, if_true, Bool.not_false]

/-- A running loop that is due and no longer enabled stops (R288). -/
theorem State.loopEvaluate_disabled (h : s.loopDue n) (hen : s.rd (R.LOOP_nCTRL_EN n) = 0) :
    s.loopEvaluate n = (s.loopStop n).applyConsole n (s.tickN * Config.cyclesPerTick) := by
  have hdue := (s.loopDue_iff n).mpr h
  simp only [State.loopEvaluate, State.loopRun, State.rdBit_eq_true hrun, hdue, State.rdBit_eq_false hen, if_true,
    Bool.not_true, Bool.false_eq_true, if_false, Bool.not_false]

include hc

/-- A running loop that is due and enabled is evaluated (R285). -/
theorem State.loopEvaluate_due (h : s.loopDue n) (hen : s.rd (R.LOOP_nCTRL_EN n) = 1)
    (hp : s.rd (R.LOOP_nBANK_PEND n) = 0) : s.loopEvaluate n = s.loopCycle n := by
  have hdue := (s.loopDue_iff n).mpr h
  simp only [State.loopEvaluate, State.loopRun, State.rdBit_eq_true hrun, hdue, State.rdBit_eq_true hen, if_true,
    Bool.not_true, Bool.false_eq_true, if_false, State.applyConsole_empty s _ _ hc, State.swapLoop_none s _ hp]

end

/-- What an evaluation with a setpoint sp, a feedback y and an output leaves; clipped says that the feedback saturated. -/
def State.Evaluated (s : State) (n : Nat) (y sp : Int) (clipped : Bool) (out : Int) (t : State) : Prop :=
  t.rdI (R.LOOP_nOUT_OUT n) = out ∧ (t.loopS n).outprev = out ∧ (t.loopS n).first = false
    ∧ (clipped = true → t.rd (R.LOOP_nSTAT_SAT n) = 1)
    ∧ t.rd (R.LOOP_nYUSE_YUSE n) = patternOf 32 y ∧ t.rdI (R.LOOP_nRSP_RSP n) = sp
    ∧ (∀ m, m ≠ n → t.loopS m = s.loopS m) ∧ t.mem = s.mem ∧ t.cores = s.cores ∧ t.cycle = s.cycle

theorem State.rdI_of_pattern (s : State) (a : Nat) (x : Int) (h : s.rd ⟨a, 31, 0⟩ = patternOf 32 x)
    (h0 : -2 ^ 31 ≤ x) (h1 : x < 2 ^ 31) : s.rdI ⟨a, 31, 0⟩ = x := by
  rw [State.rdI, h]
  exact signedOf_patternOf x h0 h1

theorem State.loopS_setLoop_same (s : State) (n : Nat) (l : LoopS) : (s.setLoop n l).loopS n = l :=
  NMap.get_set_same LoopS.init s.loops.loops n l

theorem State.loopS_setLoop_other (s : State) (n m : Nat) (l : LoopS) (h : m ≠ n) : (s.setLoop n l).loopS m = s.loopS m :=
  NMap.get_set_other LoopS.init LoopS.init s.loops.loops l h

theorem State.RegsOnly.loopS {s t : State} (h : s.RegsOnly t) (m : Nat) : t.loopS m = s.loopS m := by
  rw [State.loopS, State.loopS, h.loops]

/-- What is shown of a law is what it gives. -/
theorem State.evaluated_of_law (s : State) (n : Nat) (y sp : Int) (clipped track : Bool) (w : Law)
    (hsp : -2 ^ 31 ≤ sp ∧ sp < 2 ^ 31) (hout : -2 ^ 31 ≤ w.out ∧ w.out < 2 ^ 31) (hprev : w.l.outprev = w.out) :
    let t := (s.showEvaluation n y sp (LoopS.evaluated w sp y) track (w.sat || clipped)).showOutput n w.out
    s.Evaluated n y sp clipped w.out t ∧ t.rd (R.LOOP_nSTAT_TRACK n) = b2n track := by
  intro t
  obtain ⟨hyuse, hrsp, hsat, htrack⟩ :=
    State.showEvaluation_shown s n y sp (LoopS.evaluated w sp y) track (w.sat || clipped) w.out
  have hkeep : (s.setLoop n (LoopS.evaluated w sp y)).RegsOnly t :=
    (State.regsOnly_showEvaluation s n y sp (LoopS.evaluated w sp y) track (w.sat || clipped)).trans
      (State.regsOnly_showOutput _ n w.out)
  have hloop : t.loopS n = LoopS.evaluated w sp y := (hkeep.loopS n).trans (State.loopS_setLoop_same s n _)
  refine ⟨⟨?_, ?_, ?_, ?_, hyuse, ?_, ?_, hkeep.mem, hkeep.cores, hkeep.cycle⟩, htrack⟩
  · exact State.rdI_of_pattern _ _ _ (State.showOutput_rd_out _ n w.out) hout.1 hout.2
  · rw [hloop]
    exact hprev
  · rw [hloop]
    rfl
  · intro hclip
    rw [hsat, hclip, Bool.or_true]
    rfl
  · exact State.rdI_of_pattern _ _ _ hrsp hsp.1 hsp.2
  · exact fun m hm => (hkeep.loopS m).trans (State.loopS_setLoop_other s n m _ hm)

theorem State.keepAcc_act (s : State) (l : LoopS) (x : Int) : (s.keepAcc { l with sp := x }).act = l.act := rfl

/-- An undisturbed evaluation leaves what its law gives. -/
theorem State.loopCycle_evaluated (s : State) (n : Fin 512) (y : Int) (clipped : Bool)
    (h : s.Undisturbed n.val (s.loopS n.val)) (hy : s.loopY (s.loopS n.val) = some (y, clipped)) (track : Option Int)
    (ht : s.loopTrack n.val (s.loopS n.val) false = track) (w : Law)
    (hw : lawOf (s.keepAcc { s.loopS n.val with sp := s.rdI (R.LOOP_nSP_SP n.val) }) (s.rdI (R.LOOP_nSP_SP n.val)) y track = w)
    (hout : -2 ^ 31 ≤ w.out ∧ w.out < 2 ^ 31) (hprev : w.l.outprev = w.out) :
    s.Evaluated n.val y (s.rdI (R.LOOP_nSP_SP n.val)) clipped w.out (s.loopCycle n.val)
      ∧ (s.loopCycle n.val).rd (R.LOOP_nSTAT_TRACK n.val) = b2n track.isSome := by
  rw [State.loopCycle_undisturbed s n y clipped h hy, ht, hw]
  exact State.evaluated_of_law s n.val y _ clipped track.isSome w (signedOf_range _) hout hprev

/-- In manual mode an undisturbed evaluation gives MANOUT (R296). -/
theorem State.loopCycle_manual (s : State) (n : Fin 512) (y : Int) (clipped : Bool)
    (h : s.Undisturbed n.val (s.loopS n.val)) (hy : s.loopY (s.loopS n.val) = some (y, clipped))
    (hm : s.rd (R.LOOP_nMODE_MODE n.val) = 0) :
    s.Evaluated n.val y (s.rdI (R.LOOP_nSP_SP n.val)) clipped (s.rdI (R.LOOP_nMANOUT_MANOUT n.val)) (s.loopCycle n.val)
      ∧ (s.loopCycle n.val).rd (R.LOOP_nSTAT_TRACK n.val) = 1 :=
  State.loopCycle_evaluated s n y clipped h hy (some (s.rdI (R.LOOP_nMANOUT_MANOUT n.val)))
    (State.loopTrack_manual s n.val _ h.destination h.reaction hm) _ rfl (signedOf_range _) rfl

/-- In automatic, with nothing to track, an undisturbed evaluation gives what its law computes, within the limits (R295). -/
theorem State.loopCycle_auto (s : State) (n : Fin 512) (y : Int) (clipped : Bool)
    (h : s.Undisturbed n.val (s.loopS n.val)) (hy : s.loopY (s.loopS n.val) = some (y, clipped))
    (hm : s.rd (R.LOOP_nMODE_MODE n.val) = 1) (hi : s.innerTrack n.val = none) (hf : (s.loopS n.val).first = false)
    (hmin : -2 ^ 31 ≤ (s.loopS n.val).act.umin) (hle : (s.loopS n.val).act.umin ≤ (s.loopS n.val).act.umax)
    (hmax : (s.loopS n.val).act.umax < 2 ^ 31) (w : Law)
    (hw : computeLaw (s.keepAcc { s.loopS n.val with sp := s.rdI (R.LOOP_nSP_SP n.val) }) (s.rdI (R.LOOP_nSP_SP n.val)) y 0 = w) :
    s.Evaluated n.val y (s.rdI (R.LOOP_nSP_SP n.val)) clipped w.out (s.loopCycle n.val)
      ∧ (s.loopS n.val).act.umin ≤ w.out ∧ w.out ≤ (s.loopS n.val).act.umax
      ∧ (s.loopCycle n.val).rd (R.LOOP_nSTAT_TRACK n.val) = 0 := by
  have hrange := computeLaw_out_range (s.keepAcc { s.loopS n.val with sp := s.rdI (R.LOOP_nSP_SP n.val) })
    (s.rdI (R.LOOP_nSP_SP n.val)) y 0
  rw [State.keepAcc_act, hw] at hrange
  obtain ⟨hlo, hhi⟩ := hrange hle
  obtain ⟨hran, htrack⟩ := State.loopCycle_evaluated s n y clipped h hy none
    (State.loopTrack_auto s n.val _ h.destination h.reaction hm hi hf) w hw ⟨Int.le_trans hmin hlo, Int.lt_of_le_of_lt hhi hmax⟩
    (by rw [← hw, computeLaw_outprev])
  exact ⟨hran, hlo, hhi, htrack⟩

/-! ## The post of the output slots -/

/-- The output slots two by two, as the words posted (R286). -/
def State.slotWords (s : State) : List Nat :=
  (List.range (s.rd R.LOOP_OREG_ONUM)).map fun i =>
    patternOf 32 (NMap.get 0 s.loops.slots (2 * i)) + 2 ^ 32 * patternOf 32 (NMap.get 0 s.loops.slots (2 * i + 1))

theorem exec_loopOutputPost (s : State) (he : s.evIn = []) :
    exec .loopOutputPost s = .next (if s.rd R.LOOP_STAT_NRUN = 0 then s.setCycle 52800
      else (s.setCycle 52800).postHw 20 (s.rd R.LOOP_OREG_OBASE) s.slotWords) := by
  show execLoopOutputPost s = _
  rw [execLoopOutputPost, State.atCycle_quiet _ _ he]
  rfl

theorem exec_loopOutputPost_running (s : State) (he : s.evIn = []) (hr : s.rd R.LOOP_STAT_NRUN ≠ 0) :
    exec .loopOutputPost s = .next ((s.setCycle 52800).postHw 20 (s.rd R.LOOP_OREG_OBASE) s.slotWords) := by
  rw [exec_loopOutputPost s he, if_neg hr]

/-- A post with room goes to the end of its source's staging buffer (R23, R24). -/
theorem State.postHw_accepted (s : State) (src idx : Nat) (data : List Nat) (hw : idx + data.length ≤ Config.sbWords)
    (hu : s.rd (R.TIER_SRCs_STAT_USED src) + 8 * (data.length + 1) ≤ 4096) :
    s.postHw src idx data =
      (s.wr (R.TIER_SRCs_STAT_USED src) (s.rd (R.TIER_SRCs_STAT_USED src) + 8 * (data.length + 1))).setTier
        { s.tier with staging := NMap.set [] s.tier.staging src (s.staged src ++ [⟨idx, data, false⟩]) } := by
  rw [State.postHw, State.post]
  dsimp only
  rw [if_neg (by omega), if_neg (by omega)]
  rfl

/-- What an accepted post leaves. -/
theorem State.postHw_shown (s : State) (src idx : Nat) (data : List Nat) (hw : idx + data.length ≤ Config.sbWords)
    (hu : s.rd (R.TIER_SRCs_STAT_USED src) + 8 * (data.length + 1) ≤ 4096) :
    (s.postHw src idx data).staged src = s.staged src ++ [⟨idx, data, false⟩]
      ∧ (s.postHw src idx data).rd (R.TIER_SRCs_STAT_USED src) = s.rd (R.TIER_SRCs_STAT_USED src) + 8 * (data.length + 1)
      ∧ (s.postHw src idx data).loops = s.loops ∧ (s.postHw src idx data).mem = s.mem := by
  rw [State.postHw_accepted s src idx data hw hu]
  refine ⟨NMap.get_set_same _ _ _ _, ?_, rfl, rfl⟩
  have hlt : s.rd (R.TIER_SRCs_STAT_USED src) + 8 * (data.length + 1) < 2 ^ 13 := by omega
  rw [State.rd_setTier]
  generalize s.rd (R.TIER_SRCs_STAT_USED src) + 8 * (data.length + 1) = x at hlt
  rw [R.TIER_SRCs_STAT_USED, State.rd_wr_mk_same _ _ _ _ _ (by decide)]
  exact Nat.mod_eq_of_lt hlt

/-- Settles O48: an undisturbed evaluation of a running loop is worked out once, as a law and what is shown of it
(`loopCycle_undisturbed`); manual and automatic are its two cases. -/
theorem loopEvaluations : Obligations.LoopEvaluations := by
  unfold Obligations.LoopEvaluations
  intro s n he hrun hcons u hwrote l due en sp law
  have hexec : exec (.loopEvaluation n) s = .next (u.loopEvaluate n.val) := exec_loopEvaluation_unwritten s n he hwrote
  refine ⟨?_, ?_, ?_, ?_, ?_⟩
  · intro hdue
    rw [hexec, State.loopEvaluate_notDue u n.val hrun hdue]
  · intro hdue hen hinj
    obtain ⟨hstop, hout, hkeep⟩ := State.loopStop_shown u n hinj
    refine ⟨u.loopStop n.val, ?_, hstop, hout, hkeep.mem, hkeep.cores⟩
    rw [hexec, State.loopEvaluate_disabled u n.val hrun hdue hen,
      State.applyConsole_empty _ _ _ ((congrArg LoopsS.console hkeep.loops).trans hcons)]
  · intro y clipped hdue hen hpend hack hreact hset hdest hmodel hinj hcap hy ran
    have hund : u.Undisturbed n.val (u.loopS n.val) := ⟨hset, hdest, hmodel, hack, hreact, hinj, hcap⟩
    have hcycle : exec (.loopEvaluation n) s = .next (u.loopCycle n.val) := by
      rw [hexec, State.loopEvaluate_due u n.val hrun hcons hdue hen hpend]
    constructor
    · intro hm
      exact ⟨_, hcycle, State.loopCycle_manual u n y clipped hund hy hm⟩
    · intro hm hinner hfirst hmin hle hmax
      obtain ⟨hran, hlo, hhi, htrack⟩ :=
        State.loopCycle_auto u n y clipped hund hy hm hinner hfirst hmin hle hmax (law y 0) rfl
      refine ⟨_, hcycle, hran, ?_, ?_, htrack⟩
      · exact Int.le_trans hlo (Int.le_of_eq hran.1.symm)
      · exact Int.le_trans (Int.le_of_eq hran.1) hhi
  · intro hidle
    rw [exec_loopOutputPost s he, if_pos hidle]
  · intro hruns base num hbase hroom
    have hlen : s.slotWords.length = num := by rw [State.slotWords, List.length_map, List.length_range]
    refine ⟨_, exec_loopOutputPost_running s he hruns, ?_⟩
    have h := State.postHw_shown (s.setCycle 52800) 20 base s.slotWords (by rw [hlen]; exact hbase) (by rw [hlen]; exact hroom)
    rw [hlen] at h
    exact h

end Sys2Proof.Machine
end

section
/-! PROOFS. Missed deadlines: what counting a miss, the watchdog stop and a safety fault change, and what they leave
(01_tiers_and_changeover R34, R35; 16_safety_channel R431). -/

namespace Sys2Proof.Machine

/-! ## Who can be the target of an event -/

/-- A field of one word depends on that word. -/
theorem State.rd_of_word {s t : State} (f : FieldRef) (h32 : f.hi < 32) (h : s.word f.addr = t.word f.addr) :
    s.rd f = t.rd f := by
  unfold State.word at h
  rw [State.rd, State.rd, planeRd, planeRd, planeWide_lo _ _ h32, planeWide_lo _ _ h32, h]

/-- Two states hold the same cores and the same registers from the cores' window on. -/
structure State.SameCores (s t : State) : Prop where
  word : ∀ a, 0x40010000 ≤ a → t.word a = s.word a
  cores : t.cores = s.cores

section
variable {s t : State} (h : s.SameCores t)
include h

theorem State.SameCores.physOf (d : Nat) : t.physOf d = s.physOf d := by
  rw [State.physOf, State.physOf, h.word R.BNCH_MAPLO (by decide), h.word R.BNCH_MAPHI (by decide)]

theorem State.SameCores.inService (p : Nat) : t.inService p = s.inService p := by
  rw [State.inService, State.inService, State.rd_of_word R.CORE_SVC_INSVC (by decide) (h.word _ (by decide))]

theorem State.SameCores.partOf (p : Nat) : t.partOf p = s.partOf p :=
  State.rd_of_word (R.CORE_nBIND_PART p) (show 3 < 32 by decide) (h.word _ (by simp only [R.CORE_nBIND_PART]; omega))

theorem State.SameCores.isTarget (d : Nat) : t.isTarget d = s.isTarget d := by
  simp only [State.isTarget, h.physOf, h.inService, h.partOf, State.core_congr h.cores]

theorem State.SameCores.dutiesOf (part : Nat) : t.dutiesOf part = s.dutiesOf part := by
  simp only [State.dutiesOf, h.physOf, h.inService, h.partOf]

theorem State.SameCores.dutyOf (p : Nat) : t.dutyOf p = s.dutyOf p := by
  simp only [State.dutyOf, h.physOf]

end

/-- An event reaches every duty that its rule names, or the supervisor partition where its rule names that, if the duty can be
a target (R74, R75). -/
theorem State.raise_sends (s : State) (e d : Nat) (ds : List Nat) (sup : Bool) (hd : d < 16) (ht : s.isTarget d = true)
    (hn : d ∈ ds ∨ (sup = true ∧ d ∈ s.dutiesOf 7)) : (⟨s.now + 2, d, e⟩ : EvIn) ∈ (s.raise e ds sup).evIn := by
  have htarget : d ∈ s.targets e ds sup := by
    rcases hn with hn | ⟨hsup, hn⟩
    · simp [State.targets, hd, ht, hn]
    · simp [State.targets, hd, ht, hsup, hn]
  apply State.mem_raise_of_raiseQuiet
  rw [State.raiseQuiet_evIn]
  exact List.mem_append_right _ (List.mem_map_of_mem htarget)

/-- A raise withdraws nothing that is on its way. -/
theorem State.mem_raise_of_mem (s : State) (e : Nat) (ds : List Nat) (sup : Bool) {x : EvIn} (h : x ∈ s.evIn) :
    x ∈ (s.raise e ds sup).evIn := by
  apply State.mem_raise_of_raiseQuiet
  rw [State.raiseQuiet_evIn]
  exact List.mem_append_left _ h

/-! ## Counting a miss -/

/-- Settling a job changes its run bit and the bits that show it. -/
theorem State.settleJob_eq (s : State) (n : Nat) : ∃ m, s.settleJob n = (s.setTier { s.tier with jobs := m }).showJob n
    ∧ (NMap.get JobS.init m n).due = (s.job n).due ∧ (NMap.get JobS.init m n).lastOk = (s.job n).lastOk := by
  unfold State.settleJob
  dsimp only
  split
  · refine ⟨NMap.set JobS.init s.tier.jobs n _, rfl, ?_⟩
    rw [NMap.get_set_same]
    exact ⟨rfl, rfl⟩
  · exact ⟨s.tier.jobs, rfl, rfl, rfl⟩

/-- t is s with a missed deadline of job n counted: besides the job and the words of its counters and its status, both hold the
same. -/
structure State.Missed (s t : State) (n : Nat) : Prop where
  ovr : t.rd (R.TIER_JOBn_CNT_OVR n) = min 65535 (s.rd (R.TIER_JOBn_CNT_OVR n) + 1)
  due : (t.job n).due = false
  lastOk : (t.job n).lastOk = false
  toMark : t.tier.toMark = s.tier.toMark
  mem : t.mem = s.mem
  cores : t.cores = s.cores
  tick : t.tick = s.tick
  now : t.now = s.now
  word : ∀ a, a ≠ R.TIER_JOBn_CNT n → a ≠ R.TIER_JOBn_STAT n → t.word a = s.word a

theorem State.rd_showJob (s : State) (n : Nat) (f : FieldRef) (hf : f.short = true) (ha : f.addr ≠ R.TIER_JOBn_STAT n) :
    (s.showJob n).rd f = s.rd f := by
  rw [State.showJob, State.wrBit_eq, State.wrBit_eq,
    State.rd_wr_apart _ (R.TIER_JOBn_STAT_ACTIVE n) _ _ rfl hf (.inl ha.symm),
    State.rd_wr_apart _ (R.TIER_JOBn_STAT_RUN n) _ _ rfl hf (.inl ha.symm)]

theorem State.word_showJob (s : State) (n a : Nat) (ha : a ≠ R.TIER_JOBn_STAT n) : (s.showJob n).word a = s.word a := by
  rw [State.showJob, State.wrBit_eq, State.wrBit_eq,
    State.word_wr_other _ (R.TIER_JOBn_STAT_ACTIVE n) _ _ ha (fun h => absurd h (by decide : ¬ 32 ≤ 1)),
    State.word_wr_other _ (R.TIER_JOBn_STAT_RUN n) _ _ ha (fun h => absurd h (by decide : ¬ 32 ≤ 0))]

theorem State.showJob_frame (s : State) (n : Nat) : (s.showJob n).mem = s.mem ∧ (s.showJob n).tier = s.tier
    ∧ (s.showJob n).cores = s.cores ∧ (s.showJob n).tick = s.tick ∧ (s.showJob n).now = s.now := by
  simp [State.showJob, State.wrBit_eq, State.now]

/-- A 16-bit counter saturates (R12). -/
theorem State.rd_inc_half (s : State) (a : Nat) : (s.inc ⟨a, 15, 0⟩).rd ⟨a, 15, 0⟩ = min 65535 (s.rd ⟨a, 15, 0⟩ + 1) := by
  rw [State.inc_eq, State.incBy_eq, State.rd_wr_mk_same _ _ _ _ _ (by decide)]
  show satAdd 65535 (s.rd ⟨a, 15, 0⟩) 1 % 65536 = _
  unfold satAdd
  split
  · omega
  · omega

theorem State.countMiss_missed (s : State) (n : Nat) : s.Missed (s.countMiss n) n := by
  unfold State.countMiss
  generalize hu : (s.setJob n { (s.job n) with due := false, lastOk := false }).inc (R.TIER_JOBn_CNT_OVR n) = u
  have hjob : u.job n = { (s.job n) with due := false, lastOk := false } := by
    rw [← hu]
    exact NMap.get_set_same _ _ _ _
  have hovr : u.rd (R.TIER_JOBn_CNT_OVR n) = min 65535 (s.rd (R.TIER_JOBn_CNT_OVR n) + 1) := by
    rw [← hu, R.TIER_JOBn_CNT_OVR, State.rd_inc_half, State.rd_setJob]
  have hword (a : Nat) (ha : a ≠ R.TIER_JOBn_CNT n) : u.word a = s.word a := by
    rw [← hu, State.inc_eq, State.incBy_eq, State.word_wr_other _ (R.TIER_JOBn_CNT_OVR n) _ _ ha
      (fun h => absurd h (by decide : ¬ 32 ≤ 15)), State.word_noteHw, State.word_setJob]
  have hframe : u.mem = s.mem ∧ u.tier.toMark = s.tier.toMark ∧ u.cores = s.cores ∧ u.tick = s.tick ∧ u.now = s.now := by
    rw [← hu]
    exact ⟨rfl, rfl, rfl, rfl, rfl⟩
  clear hu
  obtain ⟨hmem, hmark, hcores, htick, hnow⟩ := hframe
  obtain ⟨m, heq, hdue, hok⟩ := State.settleJob_eq u n
  obtain ⟨hmem', htier', hcores', htick', hnow'⟩ := State.showJob_frame (u.setTier { u.tier with jobs := m }) n
  rw [hjob] at hdue hok
  rw [heq]
  exact {
    ovr := (State.rd_showJob _ n (R.TIER_JOBn_CNT_OVR n) rfl (by simp only [R.TIER_JOBn_CNT_OVR, R.TIER_JOBn_STAT]; omega)).trans
      hovr
    due := by rw [State.job, htier']; exact hdue
    lastOk := by rw [State.job, htier']; exact hok
    toMark := (congrArg TierS.toMark htier').trans hmark
    mem := hmem'.trans hmem
    cores := hcores'.trans hcores
    tick := htick'.trans htick
    now := hnow'.trans hnow
    word := fun a hcnt hstat => (State.word_showJob _ n a hstat).trans (hword a hcnt) }

theorem State.Missed.sameCores {s t : State} {n : Nat} (h : s.Missed t n) (hn : n < 128) : s.SameCores t :=
  ⟨fun a ha => h.word a (by unfold R.TIER_JOBn_CNT; omega) (by unfold R.TIER_JOBn_STAT; omega), h.cores⟩

/-! ## A safety fault -/

/-- From s to t only the safety channel, the events on their way and their records have changed; of the events, no other
than 178 and 179 has been withdrawn (R431 to R433). -/
structure State.SafetyOnly (s t : State) : Prop where
  mem : t.mem = s.mem
  tier : t.tier = s.tier
  word : ∀ a, a ≠ R.EVNT_STAT → a ≠ R.RECD_STAT → (a < 0x400A0000 ∨ 0x400B0000 ≤ a) → t.word a = s.word a
  sent : ∀ x ∈ s.evIn, x.ev ≠ 178 → x.ev ≠ 179 → x ∈ t.evIn

theorem State.SafetyOnly.refl (s : State) : s.SafetyOnly s := ⟨rfl, rfl, fun _ _ _ _ => rfl, fun _ hx _ _ => hx⟩

theorem State.SafetyOnly.trans {s t u : State} (h : s.SafetyOnly t) (h' : t.SafetyOnly u) : s.SafetyOnly u :=
  ⟨h'.mem.trans h.mem, h'.tier.trans h.tier, fun a h1 h2 h3 => (h'.word a h1 h2 h3).trans (h.word a h1 h2 h3),
    fun x hx h1 h2 => h'.sent x (h.sent x hx h1 h2) h1 h2⟩

theorem State.safetyOnly_wr (s : State) (f : FieldRef) (x : Nat) (h32 : f.hi < 32)
    (hf : f.addr = R.EVNT_STAT ∨ f.addr = R.RECD_STAT ∨ (0x400A0000 ≤ f.addr ∧ f.addr < 0x400B0000)) :
    s.SafetyOnly (s.wr f x) :=
  ⟨rfl, rfl, fun a h1 h2 h3 => State.word_wr_other s f x a (by omega) (by omega), fun _ hx _ _ => hx⟩

theorem State.safetyOnly_raise (s : State) (e : Nat) (ds : List Nat) (sup : Bool) : s.SafetyOnly (s.raise e ds sup) :=
  ⟨by simp, by simp, fun a h1 h2 _ => State.raise_word s e ds sup a h1 h2, fun _ hx _ _ => State.mem_raise_of_mem s e ds sup hx⟩

theorem State.safetyOnly_setCycle (s : State) (c : Nat) : s.SafetyOnly (s.setCycle c) :=
  ⟨rfl, rfl, fun _ _ _ _ => rfl, fun _ hx _ _ => hx⟩

theorem State.safetyOnly_setSafe (s : State) (x : SafeS) : s.SafetyOnly (s.setSafe x) :=
  ⟨rfl, rfl, fun _ _ _ _ => rfl, fun _ hx _ _ => hx⟩

theorem State.safetyOnly_withdraw (s : State) : s.SafetyOnly (s.withdraw [178, 179]) := by
  unfold State.withdraw State.syncQlen
  refine State.SafetyOnly.trans ?_ (State.safetyOnly_wr _ R.RECD_STAT_QLEN _ (by decide) (.inr (.inl rfl)))
  refine ⟨rfl, rfl, fun _ _ _ _ => rfl, fun x hx h1 h2 => List.mem_filter.mpr ⟨hx, ?_⟩⟩
  simp [h1, h2]

theorem State.SafetyOnly.when {s t : State} (h : s.SafetyOnly t) (b : Bool) (f : State → State)
    (hf : ∀ u : State, u.SafetyOnly (f u)) : s.SafetyOnly (t.when b f) := by
  unfold State.when
  split
  · exact h.trans (hf t)
  · exact h

/-- The channel enters SAFE with a fault as its last. -/
def State.shutDown (s : State) (k : Nat) : State :=
  let s := ((s.wr R.SAFE_STAT_STATE 0).wr R.SAFE_STAT_LASTF k).wr R.SAFE_GRLEFT_LEFT 0
  s.setSafe { s.safe with started := false, passed := 0, arming := false }

/-- The events of a safety fault, in the cycle after it. -/
def State.tellFault (s : State) : State :=
  (((s.setCycle (s.cycle + 1)).raise 176 ((s.dutiesOf 8).filter s.isTarget) false).raise 177 (s.dutiesOf 1) true).setCycle
    s.cycle

theorem State.safetyFault_eq (s : State) (k : Nat) :
    s.safetyFault k =
      let t := s.wr R.SAFE_FCAUSE_F (s.rd R.SAFE_FCAUSE_F ||| 2 ^ k)
      if t.rd R.SAFE_STAT_STATE = 0 then t
      else ((t.when (t.cycle == 0) (State.withdraw · [178, 179])).shutDown k).tellFault := rfl

theorem State.safetyOnly_shutDown (s : State) (k : Nat) : s.SafetyOnly (s.shutDown k) := by
  have hstate := State.safetyOnly_wr s R.SAFE_STAT_STATE 0 (by decide) (.inr (.inr (by decide)))
  have hlast := State.safetyOnly_wr (s.wr R.SAFE_STAT_STATE 0) R.SAFE_STAT_LASTF k (by decide) (.inr (.inr (by decide)))
  have hgrace := State.safetyOnly_wr ((s.wr R.SAFE_STAT_STATE 0).wr R.SAFE_STAT_LASTF k) R.SAFE_GRLEFT_LEFT 0 (by decide)
    (.inr (.inr (by decide)))
  exact ((hstate.trans hlast).trans hgrace).trans (State.safetyOnly_setSafe _ _)

theorem State.safetyOnly_tellFault (s : State) : s.SafetyOnly s.tellFault :=
  (((State.safetyOnly_setCycle s _).trans (State.safetyOnly_raise _ _ _ _)).trans (State.safetyOnly_raise _ _ _ _)).trans
    (State.safetyOnly_setCycle _ _)

/-- A safety fault changes the safety channel and raises events, and nothing else. -/
theorem State.safetyOnly_safetyFault (s : State) (k : Nat) : s.SafetyOnly (s.safetyFault k) := by
  have hcause := State.safetyOnly_wr s R.SAFE_FCAUSE_F (s.rd R.SAFE_FCAUSE_F ||| 2 ^ k) (by decide) (.inr (.inr (by decide)))
  rw [State.safetyFault_eq]
  dsimp only
  split
  · exact hcause
  · exact ((hcause.when _ _ State.safetyOnly_withdraw).trans (State.safetyOnly_shutDown _ k)).trans
      (State.safetyOnly_tellFault _)

/-! ## The two classes -/

/-- No event and no record writes a job's counters. -/
theorem ovr_quiet (n : Nat) (hn : n < 128) : (R.TIER_JOBn_CNT_OVR n).quiet = true := by
  simp only [FieldRef.quiet, Bool.and_eq_true, bne_iff_ne, ne_eq, R.TIER_JOBn_CNT_OVR, R.EVNT_STAT, R.RECD_STAT]
  omega

theorem exec_classWDeadlineMiss (s : State) (n : Fin 128) (hdue : (s.job n.val).due = true)
    (hclass : s.rd (R.TIER_JOBn_CFG_CLASS n.val) = 0) :
    exec (.classWDeadlineMiss n) s
      = .next ((s.countMiss n.val).watchdogStop (s.partOf (s.rd (R.TIER_JOBn_CFG_CORE n.val)))) := by
  show Host.Outcome.next (s.missW n.val) = _
  rw [State.missW, if_pos (by simp [hdue, hclass])]

/-- The region of job n is to be marked at this changeover. -/
def State.markLater (s : State) (n : Nat) : State :=
  s.setTier { s.tier with toMark := s.tier.toMark
    ++ [(n, ⟨s.rd (R.TIER_JOBn_BASE_BASE n), s.rd (R.TIER_JOBn_LEN_LEN n), s.tickN⟩)] }

theorem State.missR_eq (s : State) (n : Nat) : s.missR n =
    if ((s.job n).due && s.rd (R.TIER_JOBn_CFG_CLASS n) == 1) = true then
      ((s.countMiss n).raise 5 [(s.countMiss n).dutyOf (s.rd (R.TIER_JOBn_CFG_CORE n))] true).markLater n
    else s := rfl

theorem exec_classRDeadlineMiss (s : State) (n : Fin 128) (hdue : (s.job n.val).due = true)
    (hclass : s.rd (R.TIER_JOBn_CFG_CLASS n.val) = 1) :
    exec (.classRDeadlineMiss n) s = .next
      (((s.countMiss n.val).raise 5 [(s.countMiss n.val).dutyOf (s.rd (R.TIER_JOBn_CFG_CORE n.val))] true).markLater n.val) := by
  show Host.Outcome.next (s.missR n.val) = _
  rw [State.missR_eq, if_pos (by simp [hdue, hclass])]

/-- The watchdog stop of a partition (R34): every output at its safe value, and the stop-class event to every duty of the
partition; job counters and memory stay as they are. -/
theorem State.watchdogStop_shown (s : State) (part : Nat) :
    (s.watchdogStop part).mem = s.mem ∧ (s.watchdogStop part).tier = s.tier
      ∧ (∀ n, n < 128 → (s.watchdogStop part).rd (R.TIER_JOBn_CNT_OVR n) = s.rd (R.TIER_JOBn_CNT_OVR n))
      ∧ (s.watchdogStop part).rd R.DIOP_RSTAT_WHOLD = 1
      ∧ ∀ x, x < 16 → x ∈ s.dutiesOf part → s.isTarget x = true → ⟨s.now + 2, x, 6⟩ ∈ (s.watchdogStop part).evIn := by
  unfold State.watchdogStop
  dsimp only
  have hfault := (State.SafetyOnly.refl ((s.raise 6 ((s.dutiesOf part).filter s.isTarget) false).wr R.DIOP_RSTAT_WHOLD 1)).when
    (part == 8) (State.safetyFault · 1) (State.safetyOnly_safetyFault · 1)
  generalize State.when _ _ _ = t at hfault ⊢
  refine ⟨hfault.mem.trans (by simp), hfault.tier.trans (by simp), fun n hn => ?_, ?_, fun x hx hpart htarget => ?_⟩
  · rw [State.rd_of_word (R.TIER_JOBn_CNT_OVR n) (show 15 < 32 by decide) (hfault.word _
        (by simp only [R.TIER_JOBn_CNT_OVR]; unfold R.EVNT_STAT; omega)
        (by simp only [R.TIER_JOBn_CNT_OVR]; unfold R.RECD_STAT; omega)
        (.inl (by simp only [R.TIER_JOBn_CNT_OVR]; omega))),
      State.rd_wr_apart _ R.DIOP_RSTAT_WHOLD _ _ rfl rfl (.inl (by simp only [R.DIOP_RSTAT_WHOLD, R.TIER_JOBn_CNT_OVR, ne_eq]; omega))]
    refine State.raise_rd _ _ _ _ _ ?_
    exact ovr_quiet n hn
  · rw [State.rd_of_word R.DIOP_RSTAT_WHOLD (by decide) (hfault.word _ (by decide) (by decide) (.inr (by decide)))]
    exact State.rd_wr_same _ _ _ (by decide)
  · refine hfault.sent _ ?_ (show 6 ≠ 178 by decide) (show 6 ≠ 179 by decide)
    exact State.raise_sends s 6 x _ false hx htarget (.inl (List.mem_filter.mpr ⟨hpart, htarget⟩))

/-- The fields that describe a job stay as they are when its miss is counted and an event is raised. -/
theorem State.Missed.rd_raise {s u : State} {n : Nat} (h : s.Missed u n) (hn : n < 128) (e : Nat) (ds : List Nat) (sup : Bool)
    (f : FieldRef) (h32 : f.hi < 32) (h0 : R.TIER_JOBn_CFG n ≤ f.addr) (h1 : f.addr < R.TIER_JOBn_STAT n) :
    (u.raise e ds sup).rd f = s.rd f := by
  unfold R.TIER_JOBn_CFG at h0
  unfold R.TIER_JOBn_STAT at h1
  refine State.rd_of_word f h32 ((State.raise_word u e ds sup _ ?_ ?_).trans (h.word _ ?_ ?_))
  · unfold R.EVNT_STAT; omega
  · unfold R.RECD_STAT; omega
  · unfold R.TIER_JOBn_CNT; omega
  · unfold R.TIER_JOBn_STAT; omega

/-- A counted miss of class R, with its event raised, has the job's region marked later (R35). -/
theorem State.Missed.markLater_toMark {s u : State} {n : Nat} (h : s.Missed u n) (hn : n < 128) (e : Nat) (ds : List Nat)
    (sup : Bool) : ((u.raise e ds sup).markLater n).tier.toMark = s.tier.toMark
      ++ [(n, ⟨s.rd (R.TIER_JOBn_BASE_BASE n), s.rd (R.TIER_JOBn_LEN_LEN n), s.tick.toNat⟩)] := by
  have hbase := h.rd_raise hn e ds sup (R.TIER_JOBn_BASE_BASE n) (show 17 < 32 by decide) (by simp [R.TIER_JOBn_BASE_BASE])
    (by simp [R.TIER_JOBn_BASE_BASE])
  have hlen := h.rd_raise hn e ds sup (R.TIER_JOBn_LEN_LEN n) (show 18 < 32 by decide) (by simp [R.TIER_JOBn_LEN_LEN])
    (by simp [R.TIER_JOBn_LEN_LEN])
  obtain ⟨-, htick, -, -, -, -, -, -, -, -, -, -, -, htier, -⟩ := State.raise_frame u e ds sup
  rw [State.markLater, State.setTier_tier, hbase, hlen, State.tickN, htick, h.tick, htier, h.toMark]

/-- A raise and a mark to come leave the job as it was counted. -/
theorem State.job_markLater_raise (u : State) (n e : Nat) (ds : List Nat) (sup : Bool) :
    ((u.raise e ds sup).markLater n).job n = u.job n := by
  obtain ⟨-, -, -, -, -, -, -, -, -, -, -, -, -, htier, -⟩ := State.raise_frame u e ds sup
  show NMap.get JobS.init (u.raise e ds sup).tier.jobs n = _
  rw [htier, ← State.job]

/-- Settles O40: the miss is counted in both classes (`countMiss_missed`); the watchdog stop of class W and the event of class R
leave the count and reach the duties they name. -/
theorem deadlineMisses : Obligations.DeadlineMisses := by
  unfold Obligations.DeadlineMisses
  intro s n hdue q counted
  have hmiss := State.countMiss_missed s n.val
  have hsame := hmiss.sameCores n.isLt
  refine ⟨fun hclass => ⟨_, exec_classWDeadlineMiss s n hdue hclass, ?_⟩,
    fun hclass => ⟨_, exec_classRDeadlineMiss s n hdue hclass, ?_⟩⟩
  · obtain ⟨hmem, htier, hovr, hhold, hsent⟩ := State.watchdogStop_shown (s.countMiss n.val) (s.partOf q)
    have hjob : ((s.countMiss n.val).watchdogStop (s.partOf q)).job n.val = (s.countMiss n.val).job n.val := by
      rw [State.job, htier, ← State.job]
    refine ⟨⟨(hovr _ n.isLt).trans hmiss.ovr, ?_, ?_, hmem.trans hmiss.mem⟩, hhold, fun x hx hpart htarget => ?_⟩
    · rw [hjob]; exact hmiss.due
    · rw [hjob]; exact hmiss.lastOk
    · rw [← hmiss.now]
      exact hsent x hx (by rwa [hsame.dutiesOf]) (by rwa [hsame.isTarget])
  · generalize s.countMiss n.val = u at hmiss hsame ⊢
    rw [hsame.dutyOf]
    have hjob := State.job_markLater_raise u n.val 5 [s.dutyOf q] true
    obtain ⟨-, -, -, -, -, -, -, -, -, hmem, hcores, -⟩ := State.raise_frame u 5 [s.dutyOf q] true
    refine ⟨⟨?_, ?_, ?_, hmem.trans hmiss.mem⟩, hcores.trans hmiss.cores, hmiss.markLater_toMark n.isLt 5 _ true,
      fun x hx hnamed htarget => ?_⟩
    · rw [State.markLater, State.rd_setTier, State.raise_rd _ _ _ _ _ (ovr_quiet _ n.isLt)]
      exact hmiss.ovr
    · rw [hjob]; exact hmiss.due
    · rw [hjob]; exact hmiss.lastOk
    · rw [← hmiss.now]
      refine State.raise_sends u 5 x [s.dutyOf q] true hx (by rwa [hsame.isTarget]) ?_
      rw [hsame.dutiesOf]
      simpa using hnamed

end Sys2Proof.Machine
end

section
/-! PROOFS. Two claims about ticks and about loads that fail: a cancelled solver command posts at the tick edge that stops it
(07_solver_engine R227, R228; 01 R23), and within the first 64 cycles of a tick a load shows what is held of the samples
(22_module_connectors_electrical R578, R579). -/

namespace Sys2Proof.Machine

/-! ## A tick edge with a cancelled command -/

/-- The edge of every tick but the first. -/
theorem exec_tickEdge_running (s : State) (e : TickIn) (hrun : s.phase = .running) (hfeed : s.feed.dying = false) :
    exec (.tickEdge e) s = .next (s.nextEdge e) := by
  show execTickEdge e s = _
  simp [execTickEdge, hrun, hfeed]

/-- A solve (OP 9) of problem 0 on lane 0 that asks for a completion post to word 0 (POST, R219), and has been cancelled. -/
def cancelledSolve : SqCmd :=
  ⟨false, 0, 0x1000, 0, 0, some ⟨[9 + 2 ^ 17, 0, 0, 0, 0, 0, 0, 0], 0, [0], none, true, 0, none, false⟩⟩

/-- The module runs in tick 0 and holds the command. -/
def stCancelled : State :=
  { State.reset with phase := .running, solv := { SolvS.init with held := [cancelledSolve] } }

/-- A tick edge at which nothing comes from outside. -/
def quietEdge : TickIn := ⟨0, 0, 0, 2400, 2400, 0, [], [], none⟩

/-- The command stops at the edge (R228) and completes with code 13 after 1 tick; its completion word is a post of cycle 0 of
the new tick, from the source of the lane's service position, so it is in that tick's staging buffer (R23, R227). -/
theorem stCancelled_staging :
    (stCancelled.nextEdge quietEdge).tier.staging = [(16, [⟨0, [2 ^ 32 * 13 + 2 ^ 48], false⟩])] := by decide +kernel

/-- Refutes O39: the first clause leaves every staging buffer empty at cycle 0 of a tick, and a solver command that is cancelled
with POST set posts its completion word there. -/
theorem not_tickCommands : ¬ Obligations.TickCommands := by
  unfold Obligations.TickCommands
  intro h
  obtain ⟨t, hexec, -, -, -, -, hempty, -⟩ := (h stCancelled ⟨0, 0⟩).1 quietEdge rfl rfl rfl
  rw [exec_tickEdge_running stCancelled quietEdge rfl rfl] at hexec
  obtain rfl : stCancelled.nextEdge quietEdge = t := by injection hexec
  rw [stCancelled_staging] at hempty
  exact absurd hempty (by decide)

/-! ## A load in the first cycles of a tick -/

/-- Core 0 runs, and the words held for the first 64 cycles of the tick give job 0's counters as 5. `State.early` holds input
words alone there; the claim is of every state. -/
def stHeldCount : State :=
  { State.reset with
    cores := [(0, { CoreS.off with on := true })],
    diop := { DiopS.init with early := [(R.TIER_JOBn_CNT 0, some 5)] } }

/-- In cycle 0 the load returns the word held, where the counters in effect are 0 (`State.shownWord`). -/
theorem stHeldCount_load :
    stHeldCount.word (R.TIER_JOBn_CNT 0) = 0
      ∧ (stHeldCount.loadCommand ⟨0, 0⟩ (R.TIER_JOBn_CNT 0) 4).readData = 5 := by decide +kernel

/-- Refutes O41: its last clause has a load of a job's counters in any cycle return the counters in effect, and in the first 64
cycles of a tick a load returns a word held from before the tick's samples, where one is held at its address. -/
theorem not_tierSealsAndReads : ¬ Obligations.TierSealsAndReads := by
  unfold Obligations.TierSealsAndReads
  intro h
  obtain ⟨-, -, hreads⟩ := h stHeldCount ⟨0, 0⟩ rfl (by decide)
  obtain ⟨⟨t, hexec, ⟨hdata, -⟩, -⟩, -⟩ := (hreads 0).1 (fun e he => absurd he List.not_mem_nil)
  obtain ⟨hword, hload⟩ := stHeldCount_load
  have ht : stHeldCount.loadCommand ⟨0, 0⟩ (R.TIER_JOBn_CNT 0) 4 = t := by injection hexec
  rw [← ht] at hdata
  exact absurd (hload.symm.trans (hdata.trans (congrArg (fun w : Word => BitVec.ofNat 64 w.toNat) hword))) (by decide)

end Sys2Proof.Machine
end

section
/-! PROOFS. The commons' own work: a scrub, a row switch, and the check unit's commands (04_commons_and_checks R131 to R142). -/

namespace Sys2Proof.Machine

/-! ## Registers of the commons -/

/-- No event and no record writes a register of the commons. -/
theorem quiet_of_commons (f : FieldRef) (h0 : 0x40020000 ≤ f.addr) (h1 : f.addr < 0x40030000) : f.quiet = true := by
  simp only [FieldRef.quiet, Bool.and_eq_true, bne_iff_ne, ne_eq, R.EVNT_STAT, R.RECD_STAT]
  omega

theorem State.raise_rd_commons (s : State) (e : Nat) (ds : List Nat) (sup : Bool) (a hi lo : Nat) (h0 : 0x40020000 ≤ a)
    (h1 : a < 0x40030000) : (s.raise e ds sup).rd ⟨a, hi, lo⟩ = s.rd ⟨a, hi, lo⟩ :=
  State.raise_rd s e ds sup _ (quiet_of_commons _ h0 h1)

theorem State.raise_cmns (s : State) (e : Nat) (ds : List Nat) (sup : Bool) : (s.raise e ds sup).cmns = s.cmns := by simp

theorem State.raise_mem_cores (s : State) (e : Nat) (ds : List Nat) (sup : Bool) :
    (s.raise e ds sup).mem = s.mem ∧ (s.raise e ds sup).cores = s.cores := by simp

/-! ## Error marks -/

theorem State.wordMark_of_err {s t : State} (h : t.cmns.err = s.cmns.err) (w : Nat) : t.wordMark w = s.wordMark w := by
  rw [State.wordMark, State.wordMark, h]

theorem State.wordMark_setMark_same (s : State) (w : Nat) (m : ErrMark) : (s.setMark w m).wordMark w = m :=
  NMap.get_set_same _ _ _ _

/-- A word with its error corrected and counted, before the event (R131). -/
def State.corrected (s : State) (w : Nat) : State :=
  let t := ((s.setMark w .clean).inc R.CMNS_ECCCNT_COR).inc (R.CMNS_BANKb_COR (bankOfWord w))
  t.setCmns { t.cmns with
    perCor := NMap.set 0 t.cmns.perCor (bankOfWord w) (NMap.get 0 t.cmns.perCor (bankOfWord w) + 1) }

/-- The event of a corrected error follows at the threshold. -/
theorem State.countCorrected_cases (s : State) (w : Nat) :
    s.countCorrected w = s.corrected w ∨ s.countCorrected w = (s.corrected w).raise 48 [] true := by
  have heq : s.countCorrected w = if (s.corrected w).rd R.CMNS_CFG_CORTHR = 0
      ∨ NMap.get 0 s.cmns.perCor (bankOfWord w) + 1 = (s.corrected w).rd R.CMNS_CFG_CORTHR
      then (s.corrected w).raiseSup 48 else s.corrected w := rfl
  rw [heq]
  split
  · exact .inr rfl
  · exact .inl rfl

theorem State.corrected_shown (s : State) (w : Nat) :
    (s.corrected w).wordMark w = .clean ∧ (s.corrected w).rd R.CMNS_ECCCNT_COR = min 65535 (s.rd R.CMNS_ECCCNT_COR + 1)
      ∧ (s.corrected w).cmns.scrub = s.cmns.scrub ∧ (s.corrected w).mem = s.mem ∧ (s.corrected w).cores = s.cores := by
  have herr : (s.corrected w).cmns.err = (s.setMark w .clean).cmns.err := by
    simp [State.corrected, State.inc_eq, State.incBy_eq]
  have hscrub : (s.corrected w).cmns.scrub = (s.setMark w .clean).cmns.scrub := by
    simp [State.corrected, State.inc_eq, State.incBy_eq]
  refine ⟨(State.wordMark_of_err herr w).trans (State.wordMark_setMark_same s w .clean), ?_, hscrub,
    by simp [State.corrected, State.inc_eq, State.incBy_eq], by simp [State.corrected, State.inc_eq, State.incBy_eq]⟩
  have hbank : ((s.setMark w .clean).inc R.CMNS_ECCCNT_COR |>.inc (R.CMNS_BANKb_COR (bankOfWord w))).rd R.CMNS_ECCCNT_COR
      = ((s.setMark w .clean).inc R.CMNS_ECCCNT_COR).rd R.CMNS_ECCCNT_COR :=
    State.rd_inc_mk_apart _ _ _ _ _ _ _ (by decide) (by decide) (.inl (by omega))
  rw [State.corrected, State.rd_setCmns, hbank]
  exact State.rd_inc_half _ _

/-- A single-bit error found is corrected and counted, whether or not its event is raised. -/
theorem State.countCorrected_shown (s : State) (w : Nat) :
    (s.countCorrected w).wordMark w = .clean
      ∧ (s.countCorrected w).rd R.CMNS_ECCCNT_COR = min 65535 (s.rd R.CMNS_ECCCNT_COR + 1)
      ∧ (s.countCorrected w).cmns.scrub = s.cmns.scrub ∧ (s.countCorrected w).mem = s.mem
      ∧ (s.countCorrected w).cores = s.cores := by
  have hshown := State.corrected_shown s w
  rcases State.countCorrected_cases s w with h | h
  · rw [h]
    exact hshown
  · obtain ⟨hmark, hcor, hscrub, hmem, hcores⟩ := hshown
    have hcmns := State.raise_cmns (s.corrected w) 48 [] true
    obtain ⟨hmem', hcores'⟩ := State.raise_mem_cores (s.corrected w) 48 [] true
    rw [h]
    exact ⟨(State.wordMark_of_err (congrArg CmnsS.err hcmns) w).trans hmark,
      (State.raise_rd_commons _ 48 [] true _ _ _ (by decide) (by decide)).trans hcor,
      (congrArg CmnsS.scrub hcmns).trans hscrub, hmem'.trans hmem, hcores'.trans hcores⟩

/-- An uncorrectable word met through a port is poisoned, and its address and the port are recorded (R132). -/
theorem State.poisonedRead_shown (s : State) (port w : Nat) (hport : port < 32) (hw : w < 2 ^ 20) :
    (s.poisonedRead port w).wordMark w = .poisoned ∧ (s.poisonedRead port w).rd R.CMNS_UEADDR_ADDR = 8 * w
      ∧ (s.poisonedRead port w).rd R.CMNS_UEINFO_PORT = port ∧ (s.poisonedRead port w).mem = s.mem := by
  unfold State.poisonedRead
  dsimp only
  refine ⟨?_, ?_, ?_, by simp [State.inc_eq, State.incBy_eq]⟩
  · rw [State.wordMark_of_err (congrArg CmnsS.err (State.raise_cmns _ _ _ _))]
    exact State.wordMark_setMark_same s w .poisoned
  · rw [R.CMNS_UEADDR_ADDR, State.raise_rd_commons _ _ _ _ _ _ _ (by decide) (by decide), R.CMNS_UEINFO_PORT,
      State.rd_wr_mk_apart _ _ _ _ _ _ _ _ (by decide) (by decide) (.inl (by decide)), State.rd_wr_mk_same _ _ _ _ _ (by decide)]
    omega
  · rw [R.CMNS_UEINFO_PORT, State.raise_rd_commons _ _ _ _ _ _ _ (by decide) (by decide),
      State.rd_wr_mk_same _ _ _ _ _ (by decide)]
    exact Nat.mod_eq_of_lt hport

/-! ## Scrubbing -/

/-- The word that a bank's scrubber checks next. -/
def State.scrubWord (s : State) (bank : Nat) : Nat := 32 * NMap.get 0 s.cmns.scrub bank + bank

/-- The scrubber of a bank moves on (R133). -/
def State.scrubOn (s : State) (bank : Nat) : State :=
  s.setCmns { s.cmns with scrub := NMap.set 0 s.cmns.scrub bank ((NMap.get 0 s.cmns.scrub bank + 1) % 32768) }

theorem exec_commonsScrub_off (s : State) (bank : Fin 32) (h : s.rd R.CMNS_CFG_SCRUB = 0) :
    exec (.commonsScrub bank) s = .next s := by
  show execCommonsScrub bank s = _
  rw [execCommonsScrub, if_neg (by rw [State.rdBit_eq_false h]; decide)]

/-- A scrub moves on and treats the word by its mark. -/
theorem exec_commonsScrub_on (s : State) (bank : Fin 32) (h : s.rd R.CMNS_CFG_SCRUB = 1) :
    exec (.commonsScrub bank) s = .next
      (if s.wordMark (s.scrubWord bank.val) = .single then (s.scrubOn bank.val).countCorrected (s.scrubWord bank.val)
       else if s.wordMark (s.scrubWord bank.val) = .double then (s.scrubOn bank.val).poisonedRead 31 (s.scrubWord bank.val)
       else s.scrubOn bank.val) := by
  show execCommonsScrub bank s = _
  rw [execCommonsScrub, if_pos (State.rdBit_eq_true h)]
  show Host.Outcome.next (match s.wordMark (s.scrubWord bank.val) with | .single => _ | .double => _ | _ => _) = _
  cases s.wordMark (s.scrubWord bank.val) <;> rfl

theorem commonsScrub_single (s : State) (bank : Fin 32) (h : s.rd R.CMNS_CFG_SCRUB = 1)
    (hmark : s.wordMark (s.scrubWord bank.val) = .single) :
    Answers (.commonsScrub bank) s fun t =>
      t.wordMark (s.scrubWord bank.val) = .clean ∧ t.rd R.CMNS_ECCCNT_COR = min 65535 (s.rd R.CMNS_ECCCNT_COR + 1)
      ∧ NMap.get 0 t.cmns.scrub bank.val = (NMap.get 0 s.cmns.scrub bank.val + 1) % 32768 ∧ t.mem = s.mem
      ∧ t.cores = s.cores := by
  have hexec := exec_commonsScrub_on s bank h
  rw [if_pos hmark] at hexec
  obtain ⟨hclean, hcor, hscrub, hmem, hcores⟩ := State.countCorrected_shown (s.scrubOn bank.val) (s.scrubWord bank.val)
  exact ⟨_, hexec, hclean, hcor, by rw [hscrub]; exact NMap.get_set_same _ _ _ _, hmem, hcores⟩

theorem commonsScrub_double (s : State) (bank : Fin 32) (h : s.rd R.CMNS_CFG_SCRUB = 1) (hw : s.scrubWord bank.val < 2 ^ 20)
    (hmark : s.wordMark (s.scrubWord bank.val) = .double) :
    Answers (.commonsScrub bank) s fun t =>
      t.wordMark (s.scrubWord bank.val) = .poisoned ∧ t.rd R.CMNS_UEADDR_ADDR = 8 * s.scrubWord bank.val
      ∧ t.rd R.CMNS_UEINFO_PORT = 31 ∧ t.mem = s.mem := by
  have hexec := exec_commonsScrub_on s bank h
  rw [if_neg (by rw [hmark]; decide), if_pos hmark] at hexec
  exact ⟨_, hexec, State.poisonedRead_shown (s.scrubOn bank.val) 31 _ (by decide) hw⟩

/-! ## Who can be the target of an event, from the registers that say it -/

theorem State.physOf_lt (s : State) (d : Nat) : s.physOf d < 16 := by
  unfold State.physOf bitsOf
  rw [show 4 * d + 3 + 1 - 4 * d = 4 by omega]
  exact Nat.mod_lt _ (by decide)

/-- Two states hold the same cores and the same registers of the windows of cores and bench, which say who holds which duty. -/
structure State.SameDuties (s t : State) : Prop where
  core : ∀ a, 0x40010000 ≤ a → a < 0x40020000 → t.word a = s.word a
  bench : ∀ a, 0x40150000 ≤ a → t.word a = s.word a
  cores : t.cores = s.cores

section
variable {s t : State} (h : s.SameDuties t)
include h

theorem State.SameDuties.physOf (d : Nat) : t.physOf d = s.physOf d := by
  rw [State.physOf, State.physOf, h.bench R.BNCH_MAPLO (by decide), h.bench R.BNCH_MAPHI (by decide)]

theorem State.SameDuties.inService (p : Nat) : t.inService p = s.inService p := by
  rw [State.inService, State.inService, State.rd_of_word R.CORE_SVC_INSVC (by decide) (h.core _ (by decide) (by decide))]

theorem State.SameDuties.partOf (p : Nat) (hp : p < 16) : t.partOf p = s.partOf p :=
  State.rd_of_word (R.CORE_nBIND_PART p) (show 3 < 32 by decide)
    (h.core _ (by simp only [R.CORE_nBIND_PART]; omega) (by simp only [R.CORE_nBIND_PART]; omega))

theorem State.SameDuties.isTarget (d : Nat) : t.isTarget d = s.isTarget d := by
  simp only [State.isTarget, h.physOf, h.inService, h.partOf _ (s.physOf_lt d), State.core_congr h.cores]

theorem State.SameDuties.dutiesOf (part : Nat) : t.dutiesOf part = s.dutiesOf part := by
  simp only [State.dutiesOf, h.physOf, h.inService, h.partOf _ (s.physOf_lt _)]

end

/-! ## Row switches -/

/-- The bank's oldest copied row leaves the list of copies, and is noted on the bank's next bench row (R135). -/
def State.rowNoted (s : State) (bank row : Nat) (rest : List (Nat × Nat)) : State :=
  s.setCmns { s.cmns with
    rowCopy := NMap.set [] s.cmns.rowCopy bank rest
    rowSub := NMap.set 0 s.cmns.rowSub (256 * bank + row) (s.rd (R.CMNS_BANKb_BROWS bank) + 1) }

/-- The row is on its bench row, and the bench state is written (R135, R547); the event is still to come. -/
def State.rowSwitched (s : State) (bank row : Nat) (rest : List (Nat × Nat)) : State :=
  ((s.rowNoted bank row rest).inc (R.CMNS_BANKb_BROWS bank)).saveBench

theorem exec_commonsRowSwitch_early (s : State) (bank : Fin 32) (row since : Nat) (rest : List (Nat × Nat))
    (hcopy : NMap.get [] s.cmns.rowCopy bank.val = (row, since) :: rest)
    (h : s.tick.toNat % 1000 ≠ 0 ∨ s.tick.toNat ≤ since) : exec (.commonsRowSwitch bank) s = .next s := by
  show execCommonsRowSwitch bank s = _
  unfold execCommonsRowSwitch
  dsimp only
  rw [hcopy]
  exact congrArg Host.Outcome.next (if_pos (by rw [Bool.or_eq_true, bne_iff_ne, decide_eq_true_eq]; exact h))

theorem exec_commonsRowSwitch_due (s : State) (bank : Fin 32) (row since : Nat) (rest : List (Nat × Nat))
    (hcopy : NMap.get [] s.cmns.rowCopy bank.val = (row, since) :: rest) (hround : s.tick.toNat % 1000 = 0)
    (hsince : since < s.tick.toNat) (hroom : s.rd (R.CMNS_BANKb_BROWS bank.val) < 32) :
    exec (.commonsRowSwitch bank) s = .next ((s.rowSwitched bank.val row rest).raise 54 [] true) := by
  show execCommonsRowSwitch bank s = _
  unfold execCommonsRowSwitch
  dsimp only
  rw [hcopy]
  have hdue : ¬(s.tickN % 1000 != 0 || decide (s.tickN ≤ since)) = true := by
    rw [Bool.or_eq_true, bne_iff_ne, decide_eq_true_eq, State.tickN]
    omega
  exact congrArg Host.Outcome.next ((if_neg hdue).trans (if_pos hroom))

theorem State.saveBench_eq (s : State) : ∃ b, s.saveBench = s.setBnch b := ⟨_, rfl⟩

/-- A row switch takes the bank's next bench row and changes no word outside the commons' window. -/
theorem State.rowSwitched_shown (s : State) (bank row : Nat) (rest : List (Nat × Nat)) (hbank : bank < 32)
    (hroom : s.rd (R.CMNS_BANKb_BROWS bank) < 32) :
    (s.rowSwitched bank row rest).cmns = (s.rowNoted bank row rest).cmns
      ∧ (s.rowSwitched bank row rest).rd (R.CMNS_BANKb_BROWS bank) = s.rd (R.CMNS_BANKb_BROWS bank) + 1
      ∧ (s.rowSwitched bank row rest).mem = s.mem ∧ (s.rowSwitched bank row rest).now = s.now
      ∧ s.SameDuties (s.rowSwitched bank row rest) := by
  obtain ⟨b, hb⟩ := State.saveBench_eq ((s.rowNoted bank row rest).inc (R.CMNS_BANKb_BROWS bank))
  rw [State.rowSwitched, hb]
  have hword (a : Nat) (ha : a ≠ 0x40020100 + 4 * bank) :
      (((s.rowNoted bank row rest).inc (R.CMNS_BANKb_BROWS bank)).setBnch b).word a = s.word a := by
    rw [State.word_setBnch, State.inc_eq, State.incBy_eq,
      State.word_wr_other _ (R.CMNS_BANKb_BROWS bank) _ _ ha (fun h => absurd h (by decide : ¬ 32 ≤ 5))]
    rfl
  refine ⟨rfl, ?_, rfl, rfl, ⟨fun a _ h1 => hword a (by omega), fun a h0 => hword a (by omega), rfl⟩⟩
  rw [State.rd_setBnch, State.inc_eq, State.incBy_eq, R.CMNS_BANKb_BROWS, State.rd_wr_mk_same _ _ _ _ _ (by decide)]
  have htop : ¬63 < s.rd (R.CMNS_BANKb_BROWS bank) + 1 := by omega
  show satAdd 63 (s.rd (R.CMNS_BANKb_BROWS bank)) 1 % 64 = s.rd (R.CMNS_BANKb_BROWS bank) + 1
  rw [satAdd, if_neg htop, Nat.mod_eq_of_lt (by omega)]

theorem commonsRowSwitch_due (s : State) (bank : Fin 32) (row since : Nat) (rest : List (Nat × Nat))
    (hcopy : NMap.get [] s.cmns.rowCopy bank.val = (row, since) :: rest) (hround : s.tick.toNat % 1000 = 0)
    (hsince : since < s.tick.toNat) (hroom : s.rd (R.CMNS_BANKb_BROWS bank.val) < 32) :
    Answers (.commonsRowSwitch bank) s fun t =>
      NMap.get [] t.cmns.rowCopy bank.val = rest
      ∧ NMap.get 0 t.cmns.rowSub (256 * bank.val + row) = s.rd (R.CMNS_BANKb_BROWS bank.val) + 1
      ∧ t.rd (R.CMNS_BANKb_BROWS bank.val) = s.rd (R.CMNS_BANKb_BROWS bank.val) + 1 ∧ t.mem = s.mem ∧ t.cores = s.cores
      ∧ ∀ x, x < 16 → x ∈ s.dutiesOf 7 → s.isTarget x = true → ⟨s.now + 2, x, 54⟩ ∈ t.evIn := by
  refine ⟨_, exec_commonsRowSwitch_due s bank row since rest hcopy hround hsince hroom, ?_⟩
  obtain ⟨hcmns, hrows, hmem, hnow, hduties⟩ := State.rowSwitched_shown s bank.val row rest bank.isLt hroom
  generalize s.rowSwitched bank.val row rest = u at hcmns hrows hmem hnow hduties
  obtain ⟨hmem', hcores'⟩ := State.raise_mem_cores u 54 [] true
  rw [State.raise_cmns, hcmns, State.rowNoted, State.setCmns_cmns]
  dsimp only
  refine ⟨NMap.get_set_same _ _ _ _, NMap.get_set_same _ _ _ _, ?_, hmem'.trans hmem, hcores'.trans hduties.cores,
    fun x hx hmember htarget => ?_⟩
  · exact (State.raise_rd_commons u 54 [] true _ _ _ (by omega) (by omega)).trans hrows
  · rw [← hnow]
    exact State.raise_sends u 54 x [] true hx (by rwa [hduties.isTarget]) (.inr ⟨rfl, by rwa [hduties.dutiesOf]⟩)

/-! ## The check unit: a command begins -/

/-- The command that a channel's registers describe (R141). -/
def State.ckAsked (s : State) (op k p : Nat) : CkRun :=
  ⟨op, s.rd (R.CMNS_CKkSRC_SRC k), s.rd (R.CMNS_CKkDST_DST k), s.rd (R.CMNS_CKkLEN_LEN k), s.dutyOf p⟩

theorem State.ckStart_idle (s : State) (op k p : Nat) (h : s.rd (R.CMNS_CKkCMD_BUSY k) = 0) :
    s.ckStart op k p = (s.wr (R.CMNS_CKkCMD_BUSY k) 1).setCmns
      { s.cmns with ck := NMap.set none s.cmns.ck k (some (s.ckAsked op k p)) } := by
  unfold State.ckStart
  rw [if_neg (by rw [State.rdBit_eq_false h]; decide)]
  rfl

theorem State.ckStart_busy (s : State) (op k p : Nat) (h : s.rd (R.CMNS_CKkCMD_BUSY k) = 1) :
    s.ckStart op k p = (s.wr (R.CMNS_CKkCMD_ERR k) 4).raiseCoreSup 53 p := by
  unfold State.ckStart
  rw [if_pos (State.rdBit_eq_true h)]

/-- A write to an idle channel begins the command: it holds what its registers say, and the channel is busy. -/
theorem State.ckStart_idle_shown (s : State) (op k p : Nat) (h : s.rd (R.CMNS_CKkCMD_BUSY k) = 0) :
    NMap.get none (s.ckStart op k p).cmns.ck k = some (s.ckAsked op k p)
      ∧ (s.ckStart op k p).rd (R.CMNS_CKkCMD_BUSY k) = 1 ∧ (s.ckStart op k p).mem = s.mem
      ∧ (s.ckStart op k p).cores = s.cores := by
  rw [State.ckStart_idle s op k p h]
  refine ⟨by rw [State.setCmns_cmns, NMap.get_set_same], ?_, by simp, by simp⟩
  rw [State.rd_setCmns, R.CMNS_CKkCMD_BUSY]
  exact State.rd_wr_mk_same s _ 4 4 1 (by decide)

/-- A write to a busy channel is refused with code 4 (R142). -/
theorem State.ckStart_busy_shown (s : State) (op p : Nat) (k : Fin 4) (h : s.rd (R.CMNS_CKkCMD_BUSY k.val) = 1) :
    (s.ckStart op k.val p).rd (R.CMNS_CKkCMD_ERR k.val) = 4 ∧ (s.ckStart op k.val p).cmns = s.cmns
      ∧ (s.ckStart op k.val p).mem = s.mem := by
  rw [State.ckStart_busy s op k.val p h, State.raiseCoreSup]
  obtain ⟨hmem, -⟩ := State.raise_mem_cores (s.wr (R.CMNS_CKkCMD_ERR k.val) 4) 53
    [(s.wr (R.CMNS_CKkCMD_ERR k.val) 4).dutyOf p] true
  refine ⟨?_, by rw [State.raise_cmns]; simp, by rw [hmem]; simp⟩
  rw [R.CMNS_CKkCMD_ERR, State.raise_rd_commons _ _ _ _ _ _ _ (by omega) (by omega)]
  exact State.rd_wr_mk_same s _ 11 8 4 (by decide)

/-! ## The check unit: the words it reads and writes -/

theorem State.commonsRead_clean (s : State) (port a n : Nat) (h : s.wordMark (a / 8) = .clean) :
    s.commonsRead port a n = (memRead s.mem a n, false, s) := by
  unfold State.commonsRead State.checkWord
  rw [h]

/-- Words free of error are read as they stand, and reading them changes nothing. -/
theorem State.readWords_clean (s : State) (port a n : Nat) (h : ∀ x, a / 8 ≤ x → x < a / 8 + n → s.wordMark x = .clean) :
    s.readWords port a n = (memWords s.mem a n, false, s) := by
  induction n generalizing a with
  | zero => rfl
  | succ n ih =>
    have hrest := ih (a + 8) (fun x h0 h1 => h x (by omega) (by omega))
    simp only [State.readWords, State.commonsRead_clean s port a 8 (h _ (Nat.le_refl _) (by omega)), hrest, memWords_succ,
      Bool.or_self]

/-- A word written goes to memory; the write touches memory and error marks alone (R123, R131). -/
theorem State.commonsWrite_word (s : State) (port a v : Nat) :
    (s.commonsWrite port a 8 v).mem = memWrite s.mem a 8 v ∧ (s.commonsWrite port a 8 v).cores = s.cores := by
  unfold State.commonsWrite
  rw [if_pos rfl]
  exact ⟨rfl, by simp⟩

theorem State.writeWords_mem (s : State) (port a : Nat) (ws : List Nat) :
    (s.writeWords port a ws).mem = memPutWords s.mem a ws ∧ (s.writeWords port a ws).cores = s.cores := by
  induction ws generalizing s a with
  | nil => exact ⟨rfl, rfl⟩
  | cons w r ih =>
    obtain ⟨hmem, hcores⟩ := State.commonsWrite_word s port a w
    obtain ⟨hmem', hcores'⟩ := ih (s.commonsWrite port a 8 w) (a + 8)
    exact ⟨by rw [State.writeWords, hmem', hmem, memPutWords], hcores'.trans hcores⟩

theorem memWords_lt (m : NMap Byte) (a n : Nat) : ∀ w ∈ memWords m a n, w < 2 ^ 64 := by
  intro w hw
  obtain ⟨i, -, rfl⟩ := List.mem_map.mp hw
  rw [memRead_low m _ 8 0, pow_word]
  exact Nat.mod_lt _ (by decide)

theorem memWords_length (m : NMap Byte) (a n : Nat) : (memWords m a n).length = n := by
  rw [memWords, List.length_map, List.length_range]

theorem memRead_carryWord (m : NMap Byte) (a : Nat) (ws : List Nat) :
    memRead (memWrite m a 8 (carryWord ws)) a 8 = carryWord ws := by
  rw [memRead_memWrite_same, ← pow_word, Nat.mod_eq_of_lt (carryWord_lt ws)]

/-! ## The check unit: a command's work and its end -/

/-- The checks before the first access, of a command that passes them (R142). -/
theorem CkRun.code_sound (r : CkRun) (hlen : r.len ≠ 0) (hsrc : r.src % 8 = 0 ∧ r.src + 8 * (r.len + 1) ≤ 0x800000)
    (hdst : r.op = 3 → r.dst % 8 = 0 ∧ r.dst + 8 * (r.len + 1) ≤ 0x800000
      ∧ (r.src + 8 * (r.len + 1) ≤ r.dst ∨ r.dst + 8 * (r.len + 1) ≤ r.src)) : r.code = 0 := by
  have hbytes : commonsBytes = 0x800000 := rfl
  unfold CkRun.code
  dsimp only
  rw [if_neg (by simpa using hlen), if_neg, if_neg]
  · intro h
    simp only [Bool.and_eq_true, beq_iff_eq, decide_eq_true_eq] at h
    have := hdst h.1.1
    omega
  · intro h
    simp only [Bool.and_eq_true, Bool.or_eq_true, bne_iff_ne, beq_iff_eq, decide_eq_true_eq] at h
    rcases h with h | ⟨hop, h⟩
    · omega
    · have := hdst hop
      omega

theorem checkWordOf_memWords (m : NMap Byte) (a n : Nat) :
    checkWordOf (crc32c (wordsBytes (memWords m a n))) n 0x5C = carryWord (memWords m a n) := by
  rw [carryWord, memWords_length]

/-- The first n words at a command's source are free of error. -/
def State.ckClean (s : State) (r : CkRun) (n : Nat) : Prop :=
  ∀ x, r.src / 8 ≤ x → x < r.src / 8 + n → s.wordMark x = .clean

/-- A seal writes the check word behind its data (R138, R141). -/
theorem State.ckWork_seal (s : State) (r : CkRun) (hop : r.op = 1) (h : s.ckClean r r.len) :
    s.ckWork r = (0, s.commonsWrite busPort (r.src + 8 * r.len) 8 (carryWord (memWords s.mem r.src r.len))) := by
  unfold State.ckWork
  simp only [s.readWords_clean busPort r.src r.len h, hop, if_true, Bool.false_eq_true, if_false, checkWordOf_memWords]

/-- What a verification of data and check word free of error comes to. -/
def State.ckFound (s : State) (r : CkRun) : Nat :=
  verifyCheck (memWords s.mem r.src r.len) (memRead s.mem (r.src + 8 * r.len) 8)

theorem State.ckRead_check (s : State) (r : CkRun) (h : s.ckClean r (r.len + 1)) :
    s.commonsRead busPort (r.src + 8 * r.len) 8 = (memRead s.mem (r.src + 8 * r.len) 8, false, s) :=
  s.commonsRead_clean _ _ _ (h _ (by omega) (by omega))

theorem ckCode_unpoisoned (code : Nat) : ckCode code false = code := by
  unfold ckCode
  split
  · rfl
  · simp only [Bool.false_eq_true, if_false]
    omega

/-- A verification changes nothing. -/
theorem State.ckWork_verify (s : State) (r : CkRun) (hop : r.op = 2) (h : s.ckClean r (r.len + 1)) :
    s.ckWork r = (s.ckFound r, s) := by
  unfold State.ckWork
  simp only [s.readWords_clean busPort r.src r.len (fun x h0 h1 => h x h0 (by omega)), s.ckRead_check r h, Bool.or_self,
    ckCode_unpoisoned]
  exact (if_neg (by rw [hop]; decide)).trans (if_pos hop)

/-- A copy of sound data writes it with its check word at the destination. -/
theorem State.ckWork_copy (s : State) (r : CkRun) (hop : r.op = 3) (h : s.ckClean r (r.len + 1)) (hfound : s.ckFound r = 0) :
    s.ckWork r = (0, (s.writeWords busPort r.dst (memWords s.mem r.src r.len)).commonsWrite busPort (r.dst + 8 * r.len) 8
      (carryWord (memWords s.mem r.src r.len))) := by
  unfold State.ckFound at hfound
  unfold State.ckWork
  simp only [s.readWords_clean busPort r.src r.len (fun x h0 h1 => h x h0 (by omega)), s.ckRead_check r h, Bool.or_self,
    ckCode_unpoisoned, hfound, if_true, checkWordOf_memWords]
  exact (if_neg (by rw [hop]; decide)).trans (if_neg (by rw [hop]; decide))

/-- What a failed carried check records lies below the channels' registers (R139). -/
theorem State.carriedFail_shown (s : State) (addr block a hi lo : Nat) (exit : Bool) (h0 : 0x40020200 ≤ a) (h1 : a < 0x40030000)
    (hf : lo ≤ hi ∧ hi < 32) :
    (s.carriedFail addr block exit).rd ⟨a, hi, lo⟩ = s.rd ⟨a, hi, lo⟩ ∧ (s.carriedFail addr block exit).cmns = s.cmns
      ∧ (s.carriedFail addr block exit).mem = s.mem ∧ (s.carriedFail addr block exit).cores = s.cores := by
  unfold State.carriedFail State.raiseSup
  refine ⟨?_, by rw [State.raise_cmns]; simp [State.wrBit_eq], by simp [State.wrBit_eq], by simp [State.wrBit_eq]⟩
  rw [State.raise_rd_commons _ _ _ _ _ _ _ (by omega) h1, R.CMNS_CKFINFO_EXIT,
    State.rd_wrBit_mk_apart _ _ _ _ _ _ _ (by decide) hf (.inl (by omega)), R.CMNS_CKFINFO_DETECT,
    State.rd_wr_mk_apart _ _ _ _ _ _ _ _ (by decide) hf (.inl (by omega)), R.CMNS_CKFADDR_ADDR,
    State.rd_wr_mk_apart _ _ _ _ _ _ _ _ (by decide) hf (.inl (by omega))]

/-- A channel with its command ended with a code, before what the code raises (R142). -/
def State.ckFreed (s : State) (k code : Nat) : State :=
  ((s.setCmns { s.cmns with ck := NMap.set none s.cmns.ck k none }).wr (R.CMNS_CKkCMD_BUSY k) 0).wr (R.CMNS_CKkCMD_ERR k) code

/-- From s to t the command of channel k has ended with the code, and nothing was done to memory or cores. -/
structure State.CkEnded (s t : State) (k code : Nat) : Prop where
  busy : t.rd (R.CMNS_CKkCMD_BUSY k) = 0
  err : t.rd (R.CMNS_CKkCMD_ERR k) = code
  ck : NMap.get none t.cmns.ck k = none
  cores : t.cores = s.cores
  mem : t.mem = s.mem

theorem State.ckEnded_freed (s : State) (k code : Nat) (hcode : code < 16) : s.CkEnded (s.ckFreed k code) k code where
  busy := by
    rw [State.ckFreed, R.CMNS_CKkCMD_ERR, R.CMNS_CKkCMD_BUSY,
      State.rd_wr_mk_apart _ _ _ _ _ _ _ _ (by decide) (by decide) (.inr (.inr (by decide))),
      State.rd_wr_mk_same _ _ _ _ _ (by decide), Nat.zero_mod]
  err := by
    rw [State.ckFreed, R.CMNS_CKkCMD_ERR, State.rd_wr_mk_same _ _ _ _ _ (by decide)]
    exact Nat.mod_eq_of_lt hcode
  ck := by simp [State.ckFreed]
  cores := by simp [State.ckFreed]
  mem := by simp [State.ckFreed]

section
variable {s t : State} {k code : Nat} (h : s.CkEnded t k code) (hk : k < 4)
include h hk

theorem State.CkEnded.raise (e : Nat) (ds : List Nat) (sup : Bool) : s.CkEnded (t.raise e ds sup) k code where
  busy := (State.raise_rd_commons t e ds sup _ _ _ (by omega) (by omega)).trans h.busy
  err := (State.raise_rd_commons t e ds sup _ _ _ (by omega) (by omega)).trans h.err
  ck := by rw [State.raise_cmns, h.ck]
  cores := (State.raise_mem_cores t e ds sup).2.trans h.cores
  mem := (State.raise_mem_cores t e ds sup).1.trans h.mem

theorem State.CkEnded.carriedFail (addr block : Nat) (exit : Bool) : s.CkEnded (t.carriedFail addr block exit) k code := by
  have hshown (hi lo : Nat) := State.carriedFail_shown t addr block (R.CMNS_CKkCMD k) hi lo exit
    (by unfold R.CMNS_CKkCMD; omega) (by unfold R.CMNS_CKkCMD; omega)
  obtain ⟨hbusy, hcmns, hmem, hcores⟩ := hshown 4 4 (by decide)
  obtain ⟨herr, -⟩ := hshown 11 8 (by decide)
  exact ⟨hbusy.trans h.busy, herr.trans h.err, by rw [hcmns, h.ck], hcores.trans h.cores, hmem.trans h.mem⟩

end

theorem State.ckEnd_eq (s : State) (k : Nat) (r : CkRun) (code : Nat) :
    s.ckEnd k r code =
      let u := (s.ckFreed k code).when (code == 5 || code == 6) (State.carriedFail · (r.src + 8 * r.len) 2 false)
      if code = 0 then u.raise 52 [r.core] false else u.raise 53 [r.core] true := rfl

/-- The end of a command frees its channel and shows its code, whatever it raises (R142). -/
theorem State.ckEnded_ckEnd (s : State) (k : Nat) (r : CkRun) (code : Nat) (hk : k < 4) (hcode : code < 16) :
    s.CkEnded (s.ckEnd k r code) k code := by
  have hfreed := State.ckEnded_freed s k code hcode
  have hfail : s.CkEnded ((s.ckFreed k code).when (code == 5 || code == 6)
      (State.carriedFail · (r.src + 8 * r.len) 2 false)) k code := by
    rw [State.when_eq]
    split
    · exact hfreed.carriedFail hk _ _ _
    · exact hfreed
  rw [State.ckEnd_eq]
  dsimp only
  split
  · exact hfail.raise hk _ _ _
  · exact hfail.raise hk _ _ _

/-! ## The check unit: a command completes -/

/-- A command that fails the checks before its first access ends with their code, with nothing done (R142). -/
theorem checkUnitComplete_refused (s : State) (k : Fin 4) (r : CkRun) (hr : NMap.get none s.cmns.ck k.val = some r)
    (h0 : r.code ≠ 0) (hcode : r.code < 16) : Answers (.checkUnitComplete k) s fun t => s.CkEnded t k.val r.code := by
  refine ⟨s.ckEnd k.val r r.code, ?_, s.ckEnded_ckEnd k.val r r.code k.isLt hcode⟩
  show execCheckUnitComplete k s = _
  rw [execCheckUnitComplete, hr]
  exact congrArg Host.Outcome.next (if_pos h0)

/-- A command that passes them ends with the code of its work, on what the work left. -/
theorem checkUnitComplete_worked (s u : State) (k : Fin 4) (r : CkRun) (code : Nat)
    (hr : NMap.get none s.cmns.ck k.val = some r) (h0 : r.code = 0) (hwork : s.ckWork r = (code, u)) (hcode : code < 16) :
    Answers (.checkUnitComplete k) s fun t => u.CkEnded t k.val code := by
  refine ⟨u.ckEnd k.val r code, ?_, u.ckEnded_ckEnd k.val r code k.isLt hcode⟩
  show execCheckUnitComplete k s = _
  rw [execCheckUnitComplete, hr]
  dsimp only
  rw [hwork]
  exact congrArg Host.Outcome.next (if_neg (not_not_intro h0))

/-- What is claimed of a channel whose command has ended with a code, its cores as in s. -/
def State.CkDone (s t : State) (k code : Nat) : Prop :=
  t.rd (R.CMNS_CKkCMD_BUSY k) = 0 ∧ t.rd (R.CMNS_CKkCMD_ERR k) = code ∧ NMap.get none t.cmns.ck k = none ∧ t.cores = s.cores

theorem State.CkEnded.done {s t u : State} {k code : Nat} (h : u.CkEnded t k code) (hcores : u.cores = s.cores) :
    s.CkDone t k code := ⟨h.busy, h.err, h.ck, h.cores.trans hcores⟩

theorem checkUnitComplete_empty (s : State) (k : Fin 4) (op a d core : Nat)
    (hr : NMap.get none s.cmns.ck k.val = some ⟨op, a, d, 0, core⟩) :
    Answers (.checkUnitComplete k) s fun t => s.CkDone t k.val 1 ∧ t.mem = s.mem := by
  have hcode : (CkRun.mk op a d 0 core).code = 1 := rfl
  obtain ⟨t, ht, hended⟩ := checkUnitComplete_refused s k _ hr (by rw [hcode]; decide) (by rw [hcode]; decide)
  rw [hcode] at hended
  exact ⟨t, ht, hended.done rfl, hended.mem⟩

section
variable {s : State} {k : Fin 4} {a d len core : Nat} (hlen : len ≠ 0) (ha : a % 8 = 0) (hin : a + 8 * (len + 1) ≤ 0x800000)
  (hclean : ∀ x, a / 8 ≤ x → x < a / 8 + (len + 1) → s.wordMark x = .clean)
include hlen ha hin hclean

/-- A seal writes the check word behind its data, and no other byte. -/
theorem checkUnitComplete_seal (hr : NMap.get none s.cmns.ck k.val = some ⟨1, a, d, len, core⟩) :
    Answers (.checkUnitComplete k) s fun t => s.CkDone t k.val 0
      ∧ memRead t.mem (a + 8 * len) 8 = carryWord (memWords s.mem a len)
      ∧ ∀ b, b < a + 8 * len ∨ a + 8 * len + 8 ≤ b → memRead t.mem b 1 = memRead s.mem b 1 := by
  have hcode := CkRun.code_sound ⟨1, a, d, len, core⟩ hlen ⟨ha, hin⟩ (fun h => absurd h (by decide : ¬ 1 = 3))
  have hwork := State.ckWork_seal s ⟨1, a, d, len, core⟩ rfl (fun x h0 h1 => hclean x h0 (Nat.lt_succ_of_lt h1))
  obtain ⟨t, ht, hended⟩ := checkUnitComplete_worked s _ k _ 0 hr hcode hwork (by decide)
  obtain ⟨hwrite, hcores⟩ := State.commonsWrite_word s busPort (a + 8 * len) (carryWord (memWords s.mem a len))
  have hmem := hended.mem.trans hwrite
  refine ⟨t, ht, hended.done hcores, ?_, fun b hb => ?_⟩
  · rw [hmem, memRead_carryWord]
  · rw [hmem, memRead_memWrite_other _ _ _ _ _ _ (by omega)]

/-- A verification ends with what it finds, and leaves memory. -/
theorem checkUnitComplete_verify (hr : NMap.get none s.cmns.ck k.val = some ⟨2, a, d, len, core⟩) (code : Nat)
    (hcode : code < 16) (hfound : s.ckFound ⟨2, a, d, len, core⟩ = code) :
    Answers (.checkUnitComplete k) s fun t => s.CkDone t k.val code ∧ t.mem = s.mem := by
  have hsound := CkRun.code_sound ⟨2, a, d, len, core⟩ hlen ⟨ha, hin⟩ (fun h => absurd h (by decide : ¬ 2 = 3))
  have hwork := State.ckWork_verify s ⟨2, a, d, len, core⟩ rfl hclean
  rw [hfound] at hwork
  obtain ⟨t, ht, hended⟩ := checkUnitComplete_worked s s k _ code hr hsound hwork hcode
  exact ⟨t, ht, hended.done rfl, hended.mem⟩

omit hlen ha hclean in
/-- A sound check word is found sound: a command in the commons holds fewer words than LEN of a check word can say. -/
theorem State.ckFound_sound (op : Nat) (hcheck : memRead s.mem (a + 8 * len) 8 = carryWord (memWords s.mem a len)) :
    s.ckFound ⟨op, a, d, len, core⟩ = 0 := by
  unfold State.ckFound
  dsimp only
  rw [hcheck]
  exact verifyCheck_carryWord _ (by rw [memWords_length]; omega)

/-- A copy of sound data puts it and its check word at the destination, and writes no other byte. -/
theorem checkUnitComplete_copy (hr : NMap.get none s.cmns.ck k.val = some ⟨3, a, d, len, core⟩)
    (hdst : d % 8 = 0 ∧ d + 8 * (len + 1) ≤ 0x800000 ∧ (a + 8 * (len + 1) ≤ d ∨ d + 8 * (len + 1) ≤ a))
    (hcheck : memRead s.mem (a + 8 * len) 8 = carryWord (memWords s.mem a len)) :
    Answers (.checkUnitComplete k) s fun t => s.CkDone t k.val 0
      ∧ (∀ j, j < len → memRead t.mem (d + 8 * j) 8 = memRead s.mem (a + 8 * j) 8)
      ∧ memRead t.mem (d + 8 * len) 8 = carryWord (memWords s.mem a len)
      ∧ ∀ b, b < d ∨ d + 8 * (len + 1) ≤ b → memRead t.mem b 1 = memRead s.mem b 1 := by
  have hcode := CkRun.code_sound ⟨3, a, d, len, core⟩ hlen ⟨ha, hin⟩ (fun _ => hdst)
  have hwork := State.ckWork_copy s ⟨3, a, d, len, core⟩ rfl hclean (State.ckFound_sound hin 3 hcheck)
  obtain ⟨t, ht, hended⟩ := checkUnitComplete_worked s _ k _ 0 hr hcode hwork (by decide)
  obtain ⟨hdata, hcores⟩ := State.writeWords_mem s busPort d (memWords s.mem a len)
  have hwords := memWords_length s.mem a len
  obtain ⟨hwrite, hcores'⟩ := State.commonsWrite_word (s.writeWords busPort d (memWords s.mem a len)) busPort (d + 8 * len)
    (carryWord (memWords s.mem a len))
  have hmem := hended.mem.trans hwrite
  rw [hdata] at hmem
  refine ⟨t, ht, hended.done (hcores'.trans hcores), fun j hj => ?_, ?_, fun b hb => ?_⟩
  · have hput := memWords_memPutWords s.mem d (memWords s.mem a len) (memWords_lt s.mem a len)
    rw [hwords] at hput
    rw [hmem, memRead_memWrite_other _ _ _ _ _ _ (by omega)]
    exact List.map_inj_left.mp hput j (List.mem_range.mpr hj)
  · rw [hmem, memRead_carryWord]
  · rw [hmem, memRead_memWrite_other _ _ _ _ _ _ (by omega), memRead_memPutWords_other _ _ _ _ _ (by omega)]

end

/-- A check word without the mark of a sealed buffer fails (R138). -/
theorem verifyCheck_unmarked (ws : List Nat) (cw : Nat) (h : bitsOf cw 63 56 ≠ 0x5C) : verifyCheck ws cw = 5 :=
  if_pos (.inl h)

theorem State.byCore_quiet (s : State) (p : Port) (f : State → State) (he : s.evIn = []) (hs : s.serves p = true) :
    s.byCore p f = f (s.setCycle p.cyc) := by
  rw [State.byCore_served s p f hs, State.atCycle_quiet s _ he]

/-- A write of an operation to an idle channel begins its command. -/
theorem ckCommand_started (c : Port → Fin 4 → Instr) (op : Nat) (s : State) (p : Port) (k : Fin 4)
    (hc : exec (c p k) s = .next (s.byCore p fun s => s.ckStart op k.val p.core.val)) (he : s.evIn = [])
    (hs : s.serves p = true) (hbusy : s.rd (R.CMNS_CKkCMD_BUSY k.val) = 0) :
    Answers (c p k) s fun t =>
      NMap.get none t.cmns.ck k.val = some (s.ckAsked op k.val p.core.val) ∧ t.rd (R.CMNS_CKkCMD_BUSY k.val) = 1
      ∧ t.mem = s.mem ∧ t.cores = s.cores := by
  rw [State.byCore_quiet s p _ he hs] at hc
  exact ⟨_, hc, State.ckStart_idle_shown (s.setCycle p.cyc) op k.val p.core.val hbusy⟩

/-- A seal asked of a busy channel is refused. -/
theorem ckSeal_busy (s : State) (p : Port) (k : Fin 4) (he : s.evIn = []) (hs : s.serves p = true)
    (hbusy : s.rd (R.CMNS_CKkCMD_BUSY k.val) = 1) :
    Answers (.ckSeal p k) s fun t => t.rd (R.CMNS_CKkCMD_ERR k.val) = 4 ∧ t.cmns = s.cmns ∧ t.mem = s.mem := by
  have hexec : exec (.ckSeal p k) s = .next (s.byCore p fun s => s.ckStart 1 k.val p.core.val) := rfl
  rw [State.byCore_quiet s p _ he hs] at hexec
  exact ⟨_, hexec, State.ckStart_busy_shown (s.setCycle p.cyc) 1 p.core.val k hbusy⟩

/-- Settles O42: scrub, row switch and check-unit command each by its own lemma above; what a command's end shows is
`State.ckEnded_ckEnd`, and what its work does to memory is `State.ckWork_seal`, `State.ckWork_verify` and `State.ckWork_copy`. -/
theorem commonsCommands : Obligations.CommonsCommands := by
  unfold Obligations.CommonsCommands
  intro s bank p k n w idle started sound words done
  refine ⟨commonsScrub_single s bank, fun hon hw hmark => commonsScrub_double s bank hon hw hmark, exec_commonsScrub_off s bank,
    fun row since rest hcopy => ⟨commonsRowSwitch_due s bank row since rest hcopy,
      exec_commonsRowSwitch_early s bank row since rest hcopy⟩,
    fun ⟨he, hs, hbusy⟩ => ckCommand_started .ckSeal 1 s p k rfl he hs hbusy,
    fun ⟨he, hs, hbusy⟩ => ckCommand_started .ckVerify 2 s p k rfl he hs hbusy,
    fun ⟨he, hs, hbusy⟩ => ckCommand_started .ckCopy 3 s p k rfl he hs hbusy, ckSeal_busy s p k,
    fun a d len core hlen ha hin hclean => ⟨checkUnitComplete_seal hlen ha hin hclean, fun hr hcheck => ?_, fun hr _ hmark => ?_,
      fun hr hd hdin hapart hcheck => checkUnitComplete_copy hlen ha hin hclean hr ⟨hd, hdin, hapart⟩ hcheck⟩,
    fun a d core op hr => checkUnitComplete_empty s k op a d core hr⟩
  · exact checkUnitComplete_verify hlen ha hin hclean hr 0 (by decide) (State.ckFound_sound hin 2 hcheck)
  · exact checkUnitComplete_verify hlen ha hin hclean hr 5 (by decide) (verifyCheck_unmarked _ _ hmark)

end Sys2Proof.Machine
end

section
/-! PROOFS. State fusion's samples and buffers: the intake, the slot area's seal, and the close of a buffer
(06_state_fusion R168 to R178, R196). -/

namespace Sys2Proof.Machine

/-! ## Registers of state fusion -/

/-- No event and no record writes a register of state fusion. -/
theorem State.raise_rd_fusion (s : State) (e : Nat) (ds : List Nat) (sup : Bool) (a hi lo : Nat) (h0 : 0x40040000 ≤ a)
    (h1 : a < 0x40050000) : (s.raise e ds sup).rd ⟨a, hi, lo⟩ = s.rd ⟨a, hi, lo⟩ := by
  refine State.raise_rd s e ds sup _ ?_
  simp only [FieldRef.quiet, Bool.and_eq_true, bne_iff_ne, ne_eq, R.EVNT_STAT, R.RECD_STAT]
  omega

theorem State.raise_fusa (s : State) (e : Nat) (ds : List Nat) (sup : Bool) : (s.raise e ds sup).fusa = s.fusa := by simp

theorem State.showQlen_rd_apart (s : State) (a hi lo : Nat) (hg : lo ≤ hi ∧ hi < 32)
    (h : a ≠ 0x40040018 ∨ 16 < lo ∨ hi < 8) :
    s.showQlen.rd ⟨a, hi, lo⟩ = s.rd ⟨a, hi, lo⟩ :=
  State.rd_wr_mk_apart _ _ _ _ _ _ _ _ (by decide) hg (by omega)

/-! ## The intake (R168 to R170, R174) -/

theorem State.drainSamples_zero (s : State) : s.drainSamples 0 = s.showQlen := by
  unfold State.drainSamples
  simp only [Nat.zero_min, List.take_zero, List.foldl_nil, List.drop_zero]
  rfl

theorem State.drainAll_empty (s : State) (h : s.fusa.queue = []) : s.drainAll = s.showQlen := by
  rw [State.drainAll, h]
  exact s.drainSamples_zero

theorem exec_fusaSampleWrite (s : State) (p : Port) (size : Size) (v : DWord) (he : s.evIn = []) (hs : s.serves p = true) :
    exec (.fusaSampleWrite p size v 0) s
      = .next ((s.setCycle p.cyc).sampleStore p.core.val size.bytes v.toNat).showQlen := by
  have hexec : exec (.fusaSampleWrite p size v 0) s = .next (s.byCore p fun s =>
    (s.sampleStore p.core.val size.bytes v.toNat).drainSamples 0) := rfl
  rw [hexec, State.byCore_quiet s p _ he hs, State.drainSamples_zero]

/-- A refusal counted and its reason shown (R169); the event is still to come. -/
def State.sampleRefused (s : State) (code : Nat) : State := (s.inc R.FUSA_CNTB_REFUSED).wr R.FUSA_STAT_RREASON code

theorem State.sampleStore_refused (s : State) (p bytes v : Nat) (h : s.sampleCode bytes v ≠ 0) :
    s.sampleStore p bytes v = (s.sampleRefused (s.sampleCode bytes v)).raiseCore 87 p := if_pos h

/-- A refused sample changes neither the queue nor memory nor cores; it is counted with its reason (R169). -/
theorem fusaSampleWrite_refused (s : State) (p : Port) (size : Size) (v : DWord) (code : Nat) (he : s.evIn = [])
    (hs : s.serves p = true) (hcode : s.sampleCode size.bytes v.toNat = code) (h0 : code ≠ 0) (h16 : code < 16) :
    Answers (.fusaSampleWrite p size v 0) s fun t =>
      t.fusa.queue = s.fusa.queue ∧ t.rd R.FUSA_STAT_RREASON = code
      ∧ t.rd R.FUSA_CNTB_REFUSED = min 65535 (s.rd R.FUSA_CNTB_REFUSED + 1) ∧ t.mem = s.mem ∧ t.cores = s.cores := by
  refine ⟨_, exec_fusaSampleWrite s p size v he hs, ?_⟩
  have hu : (s.setCycle p.cyc).sampleCode size.bytes v.toNat = code := hcode
  rw [State.sampleStore_refused _ _ _ _ (by rw [hu]; exact h0), hu, State.raiseCore]
  generalize hx : (s.setCycle p.cyc).sampleRefused code = x
  have hreason : x.rd R.FUSA_STAT_RREASON = code := by
    rw [← hx, State.sampleRefused, R.FUSA_STAT_RREASON, State.rd_wr_mk_same _ _ _ _ _ (by decide)]
    exact Nat.mod_eq_of_lt h16
  have hcount : x.rd R.FUSA_CNTB_REFUSED = min 65535 (s.rd R.FUSA_CNTB_REFUSED + 1) := by
    rw [← hx, State.sampleRefused, R.FUSA_STAT_RREASON, R.FUSA_CNTB_REFUSED,
      State.rd_wr_mk_apart _ _ _ _ _ _ _ _ (by decide) (by decide) (.inl (by decide))]
    exact State.rd_inc_half _ _
  have hraised (f : FieldRef) (hf : f.short = true) (h0 : 0x40040000 ≤ f.addr) (h1 : f.addr < 0x40050000)
      (hapart : f.addr ≠ 0x40040018 ∨ 16 < f.lo ∨ f.hi < 8) :
      (x.raise 87 [x.dutyOf p.core.val] false).showQlen.rd f = x.rd f := by
    simp only [FieldRef.short, Bool.and_eq_true, decide_eq_true_eq] at hf
    exact (State.showQlen_rd_apart _ _ _ _ hf hapart).trans (State.raise_rd_fusion x _ _ _ _ _ _ h0 h1)
  obtain ⟨hmem, hcores⟩ := State.raise_mem_cores x 87 [x.dutyOf p.core.val] false
  have hfusa := State.raise_fusa x 87 [x.dutyOf p.core.val] false
  refine ⟨(congrArg FusaS.queue hfusa).trans ?_, (hraised _ rfl (by decide) (by decide) (by decide)).trans hreason,
    (hraised _ rfl (by decide) (by decide) (by decide)).trans hcount, hmem.trans ?_, hcores.trans ?_⟩
  · rw [← hx]
    rfl
  · rw [← hx]
    rfl
  · rw [← hx]
    rfl

/-- The reasons for a refusal, the first that holds (R169). -/
theorem State.sampleCode_stopped (s : State) (bytes v : Nat) (h : s.rd R.FUSA_STAT_RUN = 0) : s.sampleCode bytes v = 1 := by
  unfold State.sampleCode State.fusaRun
  rw [State.rdBit_eq_false h]
  rfl

theorem State.sampleCode_noModel (s : State) (bytes v : Nat) (h : s.rd R.FUSA_STAT_RUN = 1)
    (hmodel : s.rd R.FUSA_QM_STAT_AVALID = 0) : s.sampleCode bytes v = 2 := by
  unfold State.sampleCode State.fusaRun
  rw [State.rdBit_eq_true h, State.rdBit_eq_false hmodel]
  rfl

section
variable {s : State} {bytes v : Nat} (hrun : s.rd R.FUSA_STAT_RUN = 1) (hmodel : s.rd R.FUSA_QM_STAT_AVALID = 1)
  (href : bitsOf v 43 32 < s.nref)
include hrun hmodel href

/-- With state fusion running and a reference of the active generation, the queue and the form of the sample decide. -/
theorem State.sampleCode_named : s.sampleCode bytes v =
    if 256 ≤ s.fusa.queue.length then 3 else if bytes < 8 || bitsOf v 47 44 != 0 then 4
    else if s.tickN < bitsOf v 63 48 then 5 else 0 := by
  unfold State.sampleCode State.fusaRun
  rw [State.rdBit_eq_true hrun, State.rdBit_eq_true hmodel, if_neg (by decide), if_neg]
  simp only [Bool.not_true, Bool.false_or, decide_eq_true_eq]
  omega

theorem State.sampleCode_full (hfull : 256 ≤ s.fusa.queue.length) : s.sampleCode bytes v = 3 := by
  rw [State.sampleCode_named hrun hmodel href, if_pos hfull]

theorem State.sampleCode_narrow (hroom : s.fusa.queue.length < 256) (hbytes : bytes < 8) : s.sampleCode bytes v = 4 := by
  rw [State.sampleCode_named hrun hmodel href, if_neg (by omega), if_pos (by simp [hbytes])]

theorem State.sampleCode_accepted (hroom : s.fusa.queue.length < 256) (hbytes : bytes = 8) (hzero : bitsOf v 47 44 = 0)
    (hage : bitsOf v 63 48 ≤ s.tickN) : s.sampleCode bytes v = 0 := by
  rw [State.sampleCode_named hrun hmodel href, if_neg (by omega), if_neg (by simp [hbytes, hzero]), if_neg (by omega)]

end

theorem Size.bytes_narrow {size : Size} (h : size ≠ .dword) : size.bytes < 8 := by
  cases size with
  | dword => exact absurd rfl h
  | _ => decide

theorem clampInt_eq (lo hi x : Int) (h : lo ≤ hi) : clampInt lo hi x = max lo (min hi x) := by
  unfold clampInt
  split
  · omega
  · split
    · omega
    · omega

theorem clampBits_nearest (x : Int) : clampBits 32 x = nearest 32 x := by
  rw [clampBits, nearest, clampInt_eq _ _ _ (by decide)]
  rfl

/-- The calibrated value: gain times value rounded half upwards, plus the offset, or the nearest limit (R170). -/
theorem State.calibrated_eq (s : State) (r v : Nat) : s.calibrated r v
    = nearest 32 (halfUp (s.rdI (R.FUSA_REFr_GAIN_GAIN r) * signedOf 32 v) 28 + s.rdI (R.FUSA_REFr_OFF_OFF r)) := by
  rw [State.calibrated, clampBits_nearest]
  rfl

/-- The sample that an accepted store makes. -/
def State.sampleOf (s : State) (v : Nat) : Sample :=
  ⟨bitsOf v 43 32, patternOf 32 (s.calibrated (bitsOf v 43 32) (bitsOf v 31 0)), s.tickN - bitsOf v 63 48, s.now⟩

theorem State.sampleStore_accepted (s : State) (p bytes v : Nat) (h : s.sampleCode bytes v = 0) :
    s.sampleStore p bytes v = (s.setFusa { s.fusa with queue := s.fusa.queue ++ [s.sampleOf v] }).showQlen :=
  if_neg (not_not_intro h)

/-- An accepted sample is at the end of the queue, whose length is shown. -/
theorem fusaSampleWrite_accepted (s : State) (p : Port) (v : DWord) (he : s.evIn = []) (hs : s.serves p = true)
    (hcode : s.sampleCode 8 v.toNat = 0) (hroom : s.fusa.queue.length < 256) :
    Answers (.fusaSampleWrite p .dword v 0) s fun t =>
      t.fusa.queue = s.fusa.queue ++ [(s.setCycle p.cyc).sampleOf v.toNat]
      ∧ t.rd R.FUSA_STAT_QLEN = s.fusa.queue.length + 1 ∧ t.mem = s.mem ∧ t.cores = s.cores := by
  refine ⟨_, exec_fusaSampleWrite s p .dword v he hs, ?_⟩
  have hu : (s.setCycle p.cyc).sampleCode Size.dword.bytes v.toNat = 0 := hcode
  rw [State.sampleStore_accepted _ _ _ _ hu]
  refine ⟨rfl, ?_, rfl, rfl⟩
  rw [State.showQlen, R.FUSA_STAT_QLEN, State.rd_wr_mk_same _ _ _ _ _ (by decide)]
  show (s.fusa.queue ++ [_]).length % 512 = _
  rw [List.length_append, List.length_singleton, Nat.mod_eq_of_lt (by omega)]

/-! ## The slot area's seal (R7 to R9, R196) -/

/-- A sealed field in the low bits of its word reads what the merged word brings. -/
theorem bitsOf_mergeBits_lowField (w x : Word) (n : Nat) (hn : n < 32) :
    bitsOf (mergeBits w x (BitVec.ofNat 32 (2 ^ (n + 1) - 1))).toNat n 0 = x.toNat % 2 ^ (n + 1) := by
  apply Nat.eq_of_testBit_eq
  intro j
  rw [testBit_bitsOf, Nat.testBit_mod_two_pow, Nat.zero_add, BitVec.testBit_toNat, BitVec.testBit_toNat, getLsbD_mergeBits,
    BitVec.getLsbD_ofNat, Nat.testBit_two_pow_sub_one]
  by_cases hj : j < n + 1
  · simp [hj, show j < 32 by omega]
  · simp [hj]

/-- The family of the slot area's base (R196). -/
def slotBaseFam : RegFam := ⟨0x40040004, 1, 65536, 1, 65536, false, some .fusaSbase, [⟨22, 0, .sealed, .rw, 0, false⟩]⟩

theorem findReg_slotBase : findReg R.FUSA_SBASE = some ⟨slotBaseFam, 0, 0, 0⟩ := by decide +kernel

theorem slotBase_mask : BitVec.ofNat 32 (sealedMask slotBaseFam false) = BitVec.ofNat 32 (2 ^ 23 - 1) := by decide

theorem slotBase_inGroup : inGroup 4 .fusaSbase none R.FUSA_SBASE = true := by decide +kernel

section
variable {s : State} {w : Word} (hcoll : s.coll = [(R.FUSA_SBASE, w)])
include hcoll

theorem State.rdColl_slotBase : s.rdColl R.FUSA_SBASE_SBASE = w.toNat % 2 ^ 23 := by
  unfold State.rdColl
  rw [hcoll]
  show bitsOf (w.toNat + 0) 22 0 = _
  rfl

theorem State.discardColl_slotBase : s.discardColl 4 .fusaSbase none = { s with coll := [] } := by
  unfold State.discardColl
  rw [hcoll, List.filter_cons_of_neg (by rw [slotBase_inGroup]; decide), List.filter_nil]

/-- A sound seal puts the collected base in effect. -/
theorem State.applyColl_slotBase : s.applyColl 4 .fusaSbase none = ({ s with coll := [] } : State).setWord R.FUSA_SBASE
    (mergeBits (s.word R.FUSA_SBASE) w (BitVec.ofNat 32 (2 ^ 23 - 1))) := by
  have hwrites : s.coll.filter (fun e => inGroup 4 .fusaSbase none e.1) = [(R.FUSA_SBASE, w)] := by
    rw [hcoll]
    exact List.filter_cons_of_pos slotBase_inGroup
  unfold State.applyColl
  rw [State.discardColl_slotBase hcoll, hwrites]
  simp only [List.foldl_cons, List.foldl_nil, findReg_slotBase]
  rw [← slotBase_mask]
  rfl

theorem State.rd_applyColl_slotBase : (s.applyColl 4 .fusaSbase none).rd R.FUSA_SBASE_SBASE = w.toNat % 2 ^ 23 := by
  rw [State.applyColl_slotBase hcoll, State.rd, planeRd, planeWide_lo _ _ (by decide)]
  exact (congrArg (fun x => bitsOf (BitVec.toNat x) 22 0) (planeGet_planeSet_same _ _ _)).trans
    (bitsOf_mergeBits_lowField _ _ 22 (by decide))

end

theorem exec_fusaSbaseSeal (s : State) (p : Port) (he : s.evIn = []) (hs : s.serves p = true) :
    exec (.fusaSbaseSeal p) s = .next ((s.setCycle p.cyc).fusaSeal p.core.val) := by
  have hexec : exec (.fusaSbaseSeal p) s = .next (s.byCore p fun s => s.fusaSeal p.core.val) := rfl
  rw [hexec, State.byCore_quiet s p _ he hs]

/-- What the seal finds of the base (R196): 1 out of place, 2 over a generation. -/
def State.slotCode (s : State) (base : Nat) : Nat :=
  if base % 256 != 0 || decide (commonsBytes < base + slotArea) then 1 else if s.slotOverlap base then 2 else 0

theorem State.slotCode_sound (s : State) {base : Nat} (hplace : base % 256 = 0) (hin : base + 0x5AA00 ≤ 0x800000)
    (hclear : s.slotOverlap base = false) : s.slotCode base = 0 := by
  have hend : ¬commonsBytes < base + slotArea := Nat.not_lt.mpr hin
  simp [State.slotCode, hplace, hend, hclear]

theorem State.slotCode_misplaced (s : State) {base : Nat} (hplace : base % 256 ≠ 0) : s.slotCode base = 1 := by
  simp [State.slotCode, hplace]

theorem State.fusaSeal_stopped (s : State) (p : Nat) (h : s.rd R.FUSA_STAT_RUN = 0) :
    s.fusaSeal p = (if s.slotCode (s.rdColl R.FUSA_SBASE_SBASE) = 0 then s.applyColl 4 .fusaSbase none
      else s.discardColl 4 .fusaSbase none).wr R.FUSA_SEAL_ERR (s.slotCode (s.rdColl R.FUSA_SBASE_SBASE)) :=
  if_neg (by rw [State.fusaRun, State.rdBit_eq_false h]; decide)

theorem State.fusaSeal_running (s : State) (p : Nat) (h : s.rd R.FUSA_STAT_RUN = 1) : s.fusaSeal p = s.raiseCore 89 p :=
  if_pos (State.rdBit_eq_true h)

section
variable {s : State} {p : Port} (he : s.evIn = []) (hs : s.serves p = true)
include he hs

/-- The base collected is sound, and takes effect. -/
theorem fusaSbaseSeal_sound {w : Word} (hstop : s.rd R.FUSA_STAT_RUN = 0) (hcoll : s.coll = [(R.FUSA_SBASE, w)])
    (hcode : s.slotCode (w.toNat % 2 ^ 23) = 0) : Answers (.fusaSbaseSeal p) s fun t =>
      t.rd R.FUSA_SBASE_SBASE = w.toNat % 2 ^ 23 ∧ t.rd R.FUSA_SEAL_ERR = 0 ∧ t.coll = [] ∧ t.mem = s.mem := by
  have hu : (s.setCycle p.cyc).coll = [(R.FUSA_SBASE, w)] := hcoll
  have hcode' : (s.setCycle p.cyc).slotCode ((s.setCycle p.cyc).rdColl R.FUSA_SBASE_SBASE) = 0 := by
    rw [State.rdColl_slotBase hu]
    exact hcode
  refine ⟨_, exec_fusaSbaseSeal s p he hs, ?_⟩
  rw [(s.setCycle p.cyc).fusaSeal_stopped p.core.val hstop, hcode', if_pos rfl]
  refine ⟨?_, by rw [R.FUSA_SEAL_ERR, State.rd_wr_mk_same _ _ _ _ _ (by decide), Nat.zero_mod], ?_, ?_⟩
  · rw [← State.rd_applyColl_slotBase hu]
    exact State.rd_wr_mk_apart _ _ 7 4 0 _ _ _ (by decide) (by decide) (.inl (by decide))
  · rw [State.applyColl_slotBase hu]
    rfl
  · rw [State.applyColl_slotBase hu]
    rfl

/-- The base collected fails a check, and is discarded. -/
theorem fusaSbaseSeal_failed {w : Word} (code : Nat) (hstop : s.rd R.FUSA_STAT_RUN = 0) (hcoll : s.coll = [(R.FUSA_SBASE, w)])
    (hcode : s.slotCode (w.toNat % 2 ^ 23) = code) (h0 : code ≠ 0) (h16 : code < 16) : Answers (.fusaSbaseSeal p) s fun t =>
      t.rd R.FUSA_SBASE_SBASE = s.rd R.FUSA_SBASE_SBASE ∧ t.rd R.FUSA_SEAL_ERR = code ∧ t.coll = [] ∧ t.mem = s.mem := by
  have hu : (s.setCycle p.cyc).coll = [(R.FUSA_SBASE, w)] := hcoll
  have hcode' : (s.setCycle p.cyc).slotCode ((s.setCycle p.cyc).rdColl R.FUSA_SBASE_SBASE) = code := by
    rw [State.rdColl_slotBase hu]
    exact hcode
  refine ⟨_, exec_fusaSbaseSeal s p he hs, ?_⟩
  rw [(s.setCycle p.cyc).fusaSeal_stopped p.core.val hstop, hcode', if_neg h0, State.discardColl_slotBase hu]
  exact ⟨State.rd_wr_mk_apart _ _ 7 4 code _ _ _ (by decide) (by decide) (.inl (by decide)),
    (State.rd_wr_mk_same _ _ 7 4 code (by decide)).trans (Nat.mod_eq_of_lt h16), rfl, rfl⟩

/-- While state fusion runs, the seal is refused (R8). -/
theorem fusaSbaseSeal_running (hrun : s.rd R.FUSA_STAT_RUN = 1) : Answers (.fusaSbaseSeal p) s fun t =>
    t.rd R.FUSA_SBASE_SBASE = s.rd R.FUSA_SBASE_SBASE ∧ t.rd R.FUSA_SEAL_ERR = s.rd R.FUSA_SEAL_ERR ∧ t.mem = s.mem := by
  refine ⟨_, exec_fusaSbaseSeal s p he hs, ?_⟩
  rw [(s.setCycle p.cyc).fusaSeal_running p.core.val hrun, State.raiseCore]
  exact ⟨State.raise_rd_fusion _ _ _ _ _ _ _ (by decide) (by decide),
    State.raise_rd_fusion _ _ _ _ _ _ _ (by decide) (by decide),
    (State.raise_mem_cores _ _ _ _).1⟩

end

/-! ## What is read of the quarter model -/

/-- Two states hold the same commons and the same registers of the quarter model and above. -/
structure State.SameModel (s t : State) : Prop where
  word : ∀ a, 0x4004C000 ≤ a → t.word a = s.word a
  mem : t.mem = s.mem

section
variable {s t : State} (h : s.SameModel t)
include h

theorem State.SameModel.rd (f : FieldRef) (h32 : f.hi < 32) (ha : 0x4004C000 ≤ f.addr) : t.rd f = s.rd f :=
  State.rd_of_word f h32 (h.word _ ha)

theorem State.SameModel.activeBase : t.activeBase = s.activeBase := by
  rw [State.activeBase, State.activeBase, h.rd R.FUSA_QM_STAT_ACTG (by decide) (by decide)]
  exact h.rd (R.FUSA_QMg_BASE_BASE _) (show 22 < 32 by decide) (Nat.le_add_right _ _)

theorem State.SameModel.nref : t.nref = s.nref := by
  unfold State.nref State.nrefAt State.rdBit
  rw [h.rd R.FUSA_QM_STAT_AVALID (by decide) (by decide), h.activeBase, h.mem]

theorem State.SameModel.refRec (r : Nat) : t.refRec r = s.refRec r := by
  rw [State.refRec, State.refRec, State.refAt, State.refAt, h.activeBase, h.mem]

/-- What is present in a slot depends on the model and on the base of the slots. -/
theorem State.SameModel.allPresent (k : Nat) (hbase : t.rd R.FUSA_SBASE_SBASE = s.rd R.FUSA_SBASE_SBASE) :
    t.allPresent k = s.allPresent k := by
  simp only [State.allPresent, State.slotAddr, h.nref, h.refRec, h.mem, hbase]

end

theorem State.sameModel_wr (s : State) (f : FieldRef) (x : Nat) (h32 : f.hi < 32) (ha : f.addr < 0x4004C000) :
    s.SameModel (s.wr f x) :=
  ⟨fun a h0 => State.word_wr_other s f x a (by omega) (by omega), rfl⟩

/-! ## Buffers close at their limit (R173, R174) -/

theorem State.allPresent_showQlen (s : State) (k : Nat) : s.showQlen.allPresent k = s.allPresent k :=
  (s.sameModel_wr R.FUSA_STAT_QLEN _ (by decide) (by decide)).allPresent k
    (s.showQlen_rd_apart _ _ _ (by decide) (.inl (by decide)))

/-- With an empty queue, the evaluation of tick T(k) + LIMIT closes buffer k in any case. -/
theorem State.fusaEvaluate_limit (s : State) (k : Nat) (hk : s.fusa.aligning = some k) (hq : s.fusa.queue = [])
    (hlimit : 1000 * k + s.fusa.limit ≤ s.tickN) : s.fusaEvaluate true = s.showQlen.closeBuffer k (!s.allPresent k) := by
  have hdue : decide (1000 * k + s.showQlen.fusa.limit ≤ s.showQlen.tickN) = true := decide_eq_true hlimit
  unfold State.fusaEvaluate
  rw [hk]
  dsimp only
  rw [State.drainAll_empty s hq, State.allPresent_showQlen, hdue, if_neg (by simp), if_pos (by decide)]

theorem State.closeBuffer_eq (s : State) (k : Nat) (byLim : Bool) : s.closeBuffer k byLim =
    ((((s.setFusa { s.fusa with
      aligning := none, closed := k + 1, nlate := 0, closing := some ⟨k, s.tickN - 1000 * k, byLim, s.fusa.nlate⟩ }).wr
      R.FUSA_CBUF_CBUF k).wr R.FUSA_STAT_CTICK (s.tickN - 1000 * k)).wrBit R.FUSA_STAT_BYLIM byLim).wr R.FUSA_STAT_ALIGN 0 := rfl

/-- A buffer that closes is final, and its number and that none aligns are shown. -/
theorem State.closeBuffer_shown (s : State) (k : Nat) (byLim : Bool) :
    (s.closeBuffer k byLim).fusa = { s.fusa with
        aligning := none, closed := k + 1, nlate := 0, closing := some ⟨k, s.tickN - 1000 * k, byLim, s.fusa.nlate⟩ }
      ∧ (s.closeBuffer k byLim).rd R.FUSA_CBUF_CBUF = k % 2 ^ 32 ∧ (s.closeBuffer k byLim).rd R.FUSA_STAT_ALIGN = 0
      ∧ (s.closeBuffer k byLim).mem = s.mem := by
  rw [State.closeBuffer_eq]
  refine ⟨rfl, ?_, by rw [R.FUSA_STAT_ALIGN, State.rd_wr_mk_same _ _ _ _ _ (by decide), Nat.zero_mod],
    by simp [State.wrBit_eq]⟩
  rw [R.FUSA_STAT_ALIGN, R.FUSA_STAT_BYLIM, R.FUSA_STAT_CTICK, R.FUSA_CBUF_CBUF,
    State.rd_wr_mk_apart _ _ _ _ _ _ _ _ (by decide) (by decide) (.inl (by decide)),
    State.rd_wrBit_mk_apart _ _ _ _ _ _ _ (by decide) (by decide) (.inl (by decide)),
    State.rd_wr_mk_apart _ _ _ _ _ _ _ _ (by decide) (by decide) (.inl (by decide))]
  exact State.rd_wr_mk_same _ _ 31 0 k (by decide)

theorem alignmentLimitExpiry_closes (s : State) (k : Nat) (he : s.evIn = []) (hk : s.fusa.aligning = some k)
    (hq : s.fusa.queue = []) (hlimit : 1000 * k + s.fusa.limit ≤ s.tick.toNat) : Answers .alignmentLimitExpiry s fun t =>
      t.fusa.closed = k + 1 ∧ t.fusa.aligning = none ∧ t.fusa.nlate = 0
      ∧ t.fusa.closing = some ⟨k, s.tick.toNat - 1000 * k, !s.allPresent k, s.fusa.nlate⟩
      ∧ t.rd R.FUSA_CBUF_CBUF = k % 2 ^ 32 ∧ t.rd R.FUSA_STAT_ALIGN = 0 ∧ t.mem = s.mem := by
  have hexec : exec .alignmentLimitExpiry s = .next ((s.atCycle Config.changeover).fusaEvaluate true) := rfl
  rw [State.atCycle_quiet s _ he, (s.setCycle Config.changeover).fusaEvaluate_limit k hk hq hlimit] at hexec
  obtain ⟨hfusa, hnumber, halign, hmem⟩ := State.closeBuffer_shown (s.setCycle Config.changeover).showQlen k
    (!(s.setCycle Config.changeover).allPresent k)
  refine ⟨_, hexec, ?_⟩
  exact ⟨congrArg FusaS.closed hfusa, congrArg FusaS.aligning hfusa, congrArg FusaS.nlate hfusa,
    congrArg FusaS.closing hfusa, hnumber, halign, hmem⟩

/-! ## Accesses to the commons and events leave state fusion, the time and the duties -/

theorem State.SameDuties.refl (s : State) : s.SameDuties s := ⟨fun _ _ _ => rfl, fun _ _ => rfl, rfl⟩

theorem State.SameDuties.trans {s t u : State} (h : s.SameDuties t) (h' : t.SameDuties u) : s.SameDuties u :=
  ⟨fun a h0 h1 => (h'.core a h0 h1).trans (h.core a h0 h1), fun a h0 => (h'.bench a h0).trans (h.bench a h0),
    h'.cores.trans h.cores⟩

/-- From s to t nothing has changed but memory, the commons' own state and registers, the recorder and the events on their way,
of which none is withdrawn. -/
structure State.AccessOnly (s t : State) : Prop where
  fusa : t.fusa = s.fusa
  now : t.now = s.now
  duties : s.SameDuties t
  base : t.rd R.FUSA_SBASE_SBASE = s.rd R.FUSA_SBASE_SBASE
  sent : ∀ x ∈ s.evIn, x ∈ t.evIn

theorem State.AccessOnly.refl (s : State) : s.AccessOnly s := ⟨rfl, rfl, .refl s, rfl, fun _ h => h⟩

theorem State.AccessOnly.trans {s t u : State} (h : s.AccessOnly t) (h' : t.AccessOnly u) : s.AccessOnly u :=
  ⟨h'.fusa.trans h.fusa, h'.now.trans h.now, h.duties.trans h'.duties, h'.base.trans h.base,
    fun x hx => h'.sent x (h.sent x hx)⟩

theorem State.accessOnly_raise (s : State) (e : Nat) (ds : List Nat) (sup : Bool) : s.AccessOnly (s.raise e ds sup) where
  fusa := s.raise_fusa e ds sup
  now := by simp [State.now]
  duties := ⟨fun a h0 h1 => s.raise_word e ds sup a (by unfold R.EVNT_STAT; omega) (by unfold R.RECD_STAT; omega),
    fun a h0 => s.raise_word e ds sup a (by unfold R.EVNT_STAT; omega) (by unfold R.RECD_STAT; omega),
    (s.raise_mem_cores e ds sup).2⟩
  base := s.raise_rd_fusion e ds sup _ _ _ (by decide) (by decide)
  sent := fun _ h => s.mem_raise_of_mem e ds sup h

/-- A write of a register of the commons. -/
theorem State.accessOnly_wr (s : State) (f : FieldRef) (x : Nat) (hf : f.short = true) (h0 : 0x40020000 ≤ f.addr)
    (h1 : f.addr < 0x40030000) : s.AccessOnly (s.wr f x) := by
  have hshort := hf
  simp only [FieldRef.short, Bool.and_eq_true, decide_eq_true_eq] at hshort
  exact ⟨rfl, rfl, ⟨fun a _ _ => s.word_wr_other f x a (by omega) (by omega),
    fun a _ => s.word_wr_other f x a (by omega) (by omega), rfl⟩,
    s.rd_wr_apart f R.FUSA_SBASE_SBASE x hf rfl (.inl (by unfold R.FUSA_SBASE_SBASE; dsimp only; omega)), fun _ h => h⟩

theorem State.accessOnly_inc (s : State) (f : FieldRef) (hf : f.short = true) (h0 : 0x40020000 ≤ f.addr)
    (h1 : f.addr < 0x40030000) : s.AccessOnly (s.inc f) :=
  (⟨rfl, rfl, ⟨fun _ _ _ => rfl, fun _ _ => rfl, rfl⟩, rfl, fun _ h => h⟩ : s.AccessOnly (s.noteHw s.now f 1 false)).trans
    (State.accessOnly_wr _ f _ hf h0 h1)

theorem State.accessOnly_setCmns (s : State) (c : CmnsS) : s.AccessOnly (s.setCmns c) :=
  ⟨rfl, rfl, ⟨fun _ _ _ => rfl, fun _ _ => rfl, rfl⟩, rfl, fun _ h => h⟩

theorem State.accessOnly_corrected (s : State) (w : Nat) : s.AccessOnly (s.corrected w) := by
  have hbank : (R.CMNS_BANKb_COR (bankOfWord w)).addr < 0x40030000 := by
    have := Nat.mod_lt w (show 0 < 32 by decide)
    unfold R.CMNS_BANKb_COR bankOfWord
    dsimp only
    omega
  exact (((s.accessOnly_setCmns _).trans (State.accessOnly_inc _ R.CMNS_ECCCNT_COR rfl (by decide) (by decide))).trans
    (State.accessOnly_inc _ (R.CMNS_BANKb_COR (bankOfWord w)) rfl (Nat.le_add_right_of_le (by decide)) hbank)).trans
    (State.accessOnly_setCmns _ _)

theorem State.accessOnly_countCorrected (s : State) (w : Nat) : s.AccessOnly (s.countCorrected w) := by
  rcases s.countCorrected_cases w with h | h
  · rw [h]
    exact s.accessOnly_corrected w
  · rw [h]
    exact (s.accessOnly_corrected w).trans (State.accessOnly_raise _ _ _ _)

theorem State.accessOnly_poisonedRead (s : State) (port w : Nat) : s.AccessOnly (s.poisonedRead port w) :=
  ((((s.accessOnly_setCmns _).trans (State.accessOnly_inc _ R.CMNS_ECCCNT_UNC rfl (by decide) (by decide))).trans
    (State.accessOnly_wr _ R.CMNS_UEADDR_ADDR _ rfl (by decide) (by decide))).trans
    (State.accessOnly_wr _ R.CMNS_UEINFO_PORT _ rfl (by decide) (by decide))).trans (State.accessOnly_raise _ _ _ _)

theorem State.poisonedRead_mem (s : State) (port w : Nat) : (s.poisonedRead port w).mem = s.mem := by
  unfold State.poisonedRead
  simp [State.inc_eq, State.incBy_eq]

/-- Whatever the mark of the word read, memory is as it was (R131, R132). -/
theorem State.checkWord_shown (s : State) (port w : Nat) :
    (s.checkWord port w).1.mem = s.mem ∧ s.AccessOnly (s.checkWord port w).1 := by
  unfold State.checkWord
  cases s.wordMark w with
  | clean => exact ⟨rfl, .refl s⟩
  | single =>
    obtain ⟨-, -, -, hmem, -⟩ := s.countCorrected_shown w
    exact ⟨hmem, s.accessOnly_countCorrected w⟩
  | double => exact ⟨s.poisonedRead_mem port w, s.accessOnly_poisonedRead port w⟩
  | poisoned => exact ⟨s.poisonedRead_mem port w, s.accessOnly_poisonedRead port w⟩

/-- Words are read as they stand in memory, whatever their marks. -/
theorem State.readWords_shown (s : State) (port a n : Nat) :
    (s.readWords port a n).1 = memWords s.mem a n ∧ (s.readWords port a n).2.2.mem = s.mem
      ∧ s.AccessOnly (s.readWords port a n).2.2 := by
  induction n generalizing s a with
  | zero => exact ⟨rfl, rfl, .refl s⟩
  | succ n ih =>
    obtain ⟨hmem, hacc⟩ := s.checkWord_shown port (a / 8)
    obtain ⟨hwords, hmem', hacc'⟩ := ih (s.checkWord port (a / 8)).1 (a + 8)
    simp only [State.readWords, State.commonsRead]
    exact ⟨by rw [hwords, hmem, memWords_succ], hmem'.trans hmem, hacc.trans hacc'⟩

theorem State.accessOnly_commonsWrite (s : State) (port a v : Nat) : s.AccessOnly (s.commonsWrite port a 8 v) := by
  unfold State.commonsWrite
  rw [if_pos rfl]
  exact ⟨rfl, rfl, ⟨fun _ _ _ => rfl, fun _ _ => rfl, rfl⟩, rfl, fun _ h => h⟩

theorem State.accessOnly_writeWords (s : State) (port a : Nat) (ws : List Nat) : s.AccessOnly (s.writeWords port a ws) := by
  induction ws generalizing s a with
  | nil => exact .refl s
  | cons w r ih => exact (s.accessOnly_commonsWrite port a w).trans (ih _ (a + 8))

/-! ## A closed buffer's header and check word, and the next slot cleared (R175, R177) -/

theorem zeros_eq_replicate (n : Nat) : zeros n = List.replicate n 0 := by
  induction n with
  | zero => rfl
  | succ n ih => rw [zeros, ih, List.replicate_succ]

/-- The memory after a slot of n words at a has got its word k and its check word, and one of as many at b is cleared. -/
def slotClosed (m : NMap Byte) (a b k n header : Nat) : NMap Byte :=
  let m' := memWrite m (a + 8 * k) 8 header
  memPutWords (memWrite m' (a + 8 * n) 8 (carryWord (memWords m' a n))) b (zeros (n + 1))

section
variable (m : NMap Byte) {a b k n header : Nat} (hab : a + 8 * (n + 1) ≤ b ∨ b + 8 * (n + 1) ≤ a)
include hab

/-- Below its check word the slot is as it was but for its word k. -/
theorem memRead_slotClosed_data (j : Nat) (hj : j < n) :
    memRead (slotClosed m a b k n header) (a + 8 * j) 8 = memRead (memWrite m (a + 8 * k) 8 header) (a + 8 * j) 8 := by
  rw [slotClosed, memRead_memPutWords_other _ _ _ _ _ (by rw [zeros_eq_replicate, List.length_replicate]; omega),
    memRead_memWrite_other _ _ _ _ _ _ (by omega)]

theorem memRead_slotClosed_header (hk : k < n) : memRead (slotClosed m a b k n header) (a + 8 * k) 8 = header % 2 ^ 64 := by
  rw [memRead_slotClosed_data m hab k hk, memRead_memWrite_same, pow_word]

theorem memRead_slotClosed_check : memRead (slotClosed m a b k n header) (a + 8 * n) 8
    = carryWord (memWords (slotClosed m a b k n header) a n) := by
  have hdata : memWords (slotClosed m a b k n header) a n = memWords (memWrite m (a + 8 * k) 8 header) a n :=
    List.map_congr_left fun j hj => memRead_slotClosed_data m hab j (List.mem_range.mp hj)
  rw [hdata, slotClosed, memRead_memPutWords_other _ _ _ _ _ (by rw [zeros_eq_replicate, List.length_replicate]; omega),
    memRead_carryWord]

theorem memRead_slotClosed_entry (hk : k < n) (j : Nat) (hj : j < k) :
    memRead (slotClosed m a b k n header) (a + 8 * j) 8 = memRead m (a + 8 * j) 8 := by
  rw [memRead_slotClosed_data m hab j (by omega), memRead_memWrite_other _ _ _ _ _ _ (by omega)]

omit hab in
theorem memRead_slotClosed_cleared (j : Nat) (hj : j < n + 1) : memRead (slotClosed m a b k n header) (b + 8 * j) 8 = 0 := by
  have hwords := memWords_memPutWords (memWrite (memWrite m (a + 8 * k) 8 header) (a + 8 * n) 8
    (carryWord (memWords (memWrite m (a + 8 * k) 8 header) a n))) b (zeros (n + 1))
    (fun w hw => by rw [zeros_eq_replicate] at hw; rw [List.eq_of_mem_replicate hw]; decide)
  have hmember : memRead (slotClosed m a b k n header) (b + 8 * j) 8
      ∈ memWords (slotClosed m a b k n header) b (zeros (n + 1)).length :=
    List.mem_map.mpr ⟨j, List.mem_range.mpr (by rw [zeros_eq_replicate, List.length_replicate]; exact hj), rfl⟩
  rw [slotClosed, hwords, zeros_eq_replicate] at hmember
  rw [slotClosed, zeros_eq_replicate]
  exact List.eq_of_mem_replicate hmember

end

/-- The header of a closed buffer (R175). -/
def FusaClose.header (c : FusaClose) : Nat := c.buf % 2 ^ 32 + 2 ^ 32 * c.ctick + 2 ^ 42 * b2n c.byLim + 2 ^ 43 * c.nlate

/-- The slot at a with its check word written. -/
def State.slotChecked (s : State) (a : Nat) : State :=
  (s.readWords busPort a 4609).2.2.commonsWrite busPort (a + 8 * 4609) 8 (carryWord (s.readWords busPort a 4609).1)

/-- The close is told: event 80, and after a close by limit event 86. -/
def State.closeTold (s : State) (byLim : Bool) : State :=
  (s.raise 80 (s.dutiesOf 2) false).when byLim fun s => s.raise 86 (s.dutiesOf 2) false

/-- The close that is in progress has given the slot at a its header and check word, and is told. -/
def State.closeWritten (s : State) (c : FusaClose) (a : Nat) : State :=
  ((((s.setFusa { s.fusa with closing := none }).commonsWrite busPort (a + 8 * 4096) 8 c.header).slotChecked a).closeTold c.byLim)

theorem exec_bufferClosedAndSealed (s : State) (c : FusaClose) (hc : s.fusa.closing = some c) :
    exec .bufferClosedAndSealed s = .next ((s.closeWritten c (s.slotAddr c.buf)).writeWords busPort
      ((s.closeWritten c (s.slotAddr c.buf)).slotAddr (c.buf + 2)) (zeros 4610)) := by
  show execBufferClosedAndSealed s = _
  unfold execBufferClosedAndSealed
  rw [hc]
  unfold State.closeWritten State.closeTold State.slotChecked
  -- Without their numerals the accesses to a whole slot are compared as they are written, and not run.
  generalize 4609 = n, 4610 = l
  rfl

theorem State.slotChecked_shown (s : State) (a : Nat) :
    (s.slotChecked a).mem = memWrite s.mem (a + 8 * 4609) 8 (carryWord (memWords s.mem a 4609))
      ∧ s.AccessOnly (s.slotChecked a) := by
  obtain ⟨hwords, hmem, hacc⟩ := s.readWords_shown busPort a 4609
  unfold State.slotChecked
  rw [(State.commonsWrite_word _ _ _ _).1, hwords, hmem]
  exact ⟨rfl, hacc.trans (State.accessOnly_commonsWrite _ _ _ _)⟩

/-- A close is told to every duty of partition 2 that can be a target. -/
theorem State.closeTold_shown (s : State) (byLim : Bool) :
    (s.closeTold byLim).mem = s.mem ∧ s.AccessOnly (s.closeTold byLim)
      ∧ ∀ x, x < 16 → x ∈ s.dutiesOf 2 → s.isTarget x = true → ⟨s.now + 2, x, 80⟩ ∈ (s.closeTold byLim).evIn := by
  have hmem := (s.raise_mem_cores 80 (s.dutiesOf 2) false).1
  have hacc := s.accessOnly_raise 80 (s.dutiesOf 2) false
  have hsent (x : Nat) (hx : x < 16) (hd : x ∈ s.dutiesOf 2) (ht : s.isTarget x = true) :=
    s.raise_sends 80 x (s.dutiesOf 2) false hx ht (.inl hd)
  unfold State.closeTold
  generalize s.raise 80 (s.dutiesOf 2) false = t at hmem hacc hsent
  cases byLim with
  | false => exact ⟨hmem, hacc, hsent⟩
  | true => exact ⟨(t.raise_mem_cores _ _ _).1.trans hmem, hacc.trans (t.accessOnly_raise _ _ _),
      fun x hx hd ht => t.mem_raise_of_mem _ _ _ (hsent x hx hd ht)⟩

theorem State.closeWritten_shown (s : State) (c : FusaClose) (a : Nat) :
    (s.closeWritten c a).mem = memWrite (memWrite s.mem (a + 8 * 4096) 8 c.header) (a + 8 * 4609) 8
        (carryWord (memWords (memWrite s.mem (a + 8 * 4096) 8 c.header) a 4609))
      ∧ (s.setFusa { s.fusa with closing := none }).AccessOnly (s.closeWritten c a)
      ∧ ∀ x, x < 16 → x ∈ s.dutiesOf 2 → s.isTarget x = true → ⟨s.now + 2, x, 80⟩ ∈ (s.closeWritten c a).evIn := by
  have hheader := (s.setFusa { s.fusa with closing := none }).accessOnly_commonsWrite busPort (a + 8 * 4096) c.header
  obtain ⟨hmem, -⟩ := (s.setFusa { s.fusa with closing := none }).commonsWrite_word busPort (a + 8 * 4096) c.header
  unfold State.closeWritten
  generalize (s.setFusa { s.fusa with closing := none }).commonsWrite busPort (a + 8 * 4096) 8 c.header = t at hheader hmem
  obtain ⟨hmem', hcheck⟩ := t.slotChecked_shown a
  obtain ⟨hmem'', htold, hsent⟩ := (t.slotChecked a).closeTold_shown c.byLim
  have hacc := hheader.trans hcheck
  refine ⟨by rw [hmem'', hmem', hmem]; rfl, hacc.trans htold, fun x hx hd ht => ?_⟩
  have hnow : (t.slotChecked a).now = s.now := hacc.now
  have hd' : x ∈ (t.slotChecked a).dutiesOf 2 := (hacc.duties.dutiesOf 2).symm ▸ hd
  exact hnow ▸ hsent x hx hd' ((hacc.duties.isTarget x).trans ht)

/-- Slots k and k + 2 lie apart (R175). -/
theorem State.slotAddr_apart (s : State) (k : Nat) :
    s.slotAddr k + 8 * (4609 + 1) ≤ s.slotAddr (k + 2) ∨ s.slotAddr (k + 2) + 8 * (4609 + 1) ≤ s.slotAddr k := by
  unfold State.slotAddr slotBytes
  omega

theorem bufferClosedAndSealed_written (s : State) (c : FusaClose) (hc : s.fusa.closing = some c) :
    Answers .bufferClosedAndSealed s fun t =>
      t.fusa = { s.fusa with closing := none }
      ∧ t.mem = slotClosed s.mem (s.slotAddr c.buf) (s.slotAddr (c.buf + 2)) 4096 4609 c.header
      ∧ ∀ x, x < 16 → x ∈ s.dutiesOf 2 → s.isTarget x = true → ⟨s.now + 2, x, 80⟩ ∈ t.evIn := by
  obtain ⟨hmem, hacc, hsent⟩ := s.closeWritten_shown c (s.slotAddr c.buf)
  refine ⟨_, exec_bufferClosedAndSealed s c hc, ?_⟩
  generalize s.closeWritten c (s.slotAddr c.buf) = t at hmem hacc hsent
  have hclear := t.accessOnly_writeWords busPort (t.slotAddr (c.buf + 2)) (zeros 4610)
  have hslot : t.slotAddr (c.buf + 2) = s.slotAddr (c.buf + 2) := congrArg (· + (c.buf + 2) % 10 * slotBytes) hacc.base
  refine ⟨hclear.fusa.trans hacc.fusa, ?_, fun x hx hd ht => hclear.sent _ (hsent x hx hd ht)⟩
  rw [(t.writeWords_mem _ _ _).1, hmem, hslot]
  rfl

end Sys2Proof.Machine
end

section
/-! PROOFS. State fusion's assist commands: how GATE and CUPD begin and end, and what CUPD writes
(06_state_fusion R181, R188, R196 to R198). -/

namespace Sys2Proof.Machine

/-! ## An assist command begins (R181, R188, R196 to R198) -/

/-- The checks before a command's first access fail with one of the codes 1 to 4. -/
theorem State.assistCode_le (s : State) (r : AssistRun) : s.assistCode r ≤ 4 := by
  unfold State.assistCode
  dsimp only
  repeat' split
  all_goals omega

/-- The operands of a command, sampled as it begins, with its descriptor as it stands. -/
def State.assistRead (s : State) (op k p : Nat) : AssistRun where
  op := op
  desc := s.rdPrev (R.FUSA_AkDESC_DESC k)
  words := memWords s.mem (s.rdPrev (R.FUSA_AkDESC_DESC k)) 8
  core := s.dutyOf p
  code := 0
  base := s.activeBase
  g1 := s.rdPrev R.FUSA_GATEB_G1
  g2 := s.rdPrev R.FUSA_GATEA_G2
  g3 := s.rdPrev R.FUSA_GATEA_G3
  rehab := max 1 (s.rdPrev R.FUSA_GATEB_REHAB)

/-- The command with the code of its first failing check. -/
def State.assistAsked (s : State) (op k p : Nat) : AssistRun :=
  { s.assistRead op k p with code := s.assistCode (s.assistRead op k p) }

/-- The channel's descriptor lies in the commons, in place and free of error. -/
structure State.DescClean (s : State) (k : Nat) : Prop where
  aligned : s.rdPrev (R.FUSA_AkDESC_DESC k) % 64 = 0
  inside : s.rdPrev (R.FUSA_AkDESC_DESC k) + 64 ≤ 0x800000
  clean : ∀ w, s.rdPrev (R.FUSA_AkDESC_DESC k) / 8 ≤ w → w < s.rdPrev (R.FUSA_AkDESC_DESC k) / 8 + 8 →
    s.wordMark w = .clean

theorem State.assistStart_idle (s : State) (op k p : Nat) (hbusy : s.rd (R.FUSA_AkCMD_BUSY k) = 0) (hdesc : s.DescClean k) :
    s.assistStart op k p = (s.setFusa { s.fusa with
      assist := NMap.set none s.fusa.assist k (some (s.assistAsked op k p)) }).wr (R.FUSA_AkCMD_BUSY k) 1 := by
  have hin : s.rdPrev (R.FUSA_AkDESC_DESC k) % 64 = 0 ∧ inCommons (s.rdPrev (R.FUSA_AkDESC_DESC k)) 64 = true :=
    ⟨hdesc.aligned, decide_eq_true hdesc.inside⟩
  unfold State.assistStart
  rw [if_neg (by rw [State.rdBit_eq_false hbusy]; decide)]
  simp only [if_pos hin, s.readWords_clean busPort _ 8 hdesc.clean, Bool.false_eq_true, and_false, if_false]
  rfl

theorem State.assistStart_busy (s : State) (op k p : Nat) (hbusy : s.rd (R.FUSA_AkCMD_BUSY k) = 1) :
    s.assistStart op k p = (s.wr (R.FUSA_AkCMD_ERR k) 7).raiseCoreSup 85 p := if_pos (State.rdBit_eq_true hbusy)

/-- A write of an operation to an idle channel begins its command, which holds its operands as sampled in that cycle. -/
theorem assistCommand_started (c : Port → Fin 2 → Instr) (op : Nat) (s : State) (p : Port) (k : Fin 2)
    (hc : exec (c p k) s = .next (s.byCore p fun s => s.assistStart op k.val p.core.val)) (he : s.evIn = [])
    (hs : s.serves p = true) (hbusy : s.rd (R.FUSA_AkCMD_BUSY k.val) = 0) (hdesc : (s.setCycle p.cyc).DescClean k.val) :
    Answers (c p k) s fun t =>
      NMap.get none t.fusa.assist k.val = some ((s.setCycle p.cyc).assistAsked op k.val p.core.val)
      ∧ t.rd (R.FUSA_AkCMD_BUSY k.val) = 1 ∧ t.mem = s.mem ∧ t.cores = s.cores := by
  rw [State.byCore_quiet s p _ he hs, (s.setCycle p.cyc).assistStart_idle op k.val p.core.val hbusy hdesc] at hc
  refine ⟨_, hc, ?_, ?_, rfl, rfl⟩
  · exact NMap.get_set_same none s.fusa.assist k.val (some ((s.setCycle p.cyc).assistAsked op k.val p.core.val))
  · rw [R.FUSA_AkCMD_BUSY]
    exact State.rd_wr_mk_same _ _ 4 4 1 (by decide)

theorem cupd_busy (s : State) (p : Port) (k : Fin 2) (he : s.evIn = []) (hs : s.serves p = true)
    (hbusy : s.rd (R.FUSA_AkCMD_BUSY k.val) = 1) :
    Answers (.cupd p k) s fun t => t.rd (R.FUSA_AkCMD_ERR k.val) = 7 ∧ t.fusa = s.fusa ∧ t.mem = s.mem := by
  have hexec : exec (.cupd p k) s = .next (s.byCore p fun s => s.assistStart 2 k.val p.core.val) := rfl
  rw [State.byCore_quiet s p _ he hs, (s.setCycle p.cyc).assistStart_busy 2 k.val p.core.val hbusy, State.raiseCoreSup] at hexec
  refine ⟨_, hexec, ?_, (State.raise_fusa _ _ _ _).trans rfl, (State.raise_mem_cores _ _ _ _).1.trans rfl⟩
  rw [R.FUSA_AkCMD_ERR, State.raise_rd_fusion _ _ _ _ _ _ _ (by omega) (by omega)]
  exact State.rd_wr_mk_same _ _ 11 8 7 (by decide)

/-! ## An assist command ends (R198) -/

/-- A channel with its command ended with a code, before what the code raises. -/
def State.assistFreed (s : State) (k code : Nat) : State :=
  ((s.setFusa { s.fusa with assist := NMap.set none s.fusa.assist k none }).wr (R.FUSA_AkCMD_BUSY k) 0).wr
    (R.FUSA_AkCMD_ERR k) code

/-- From s to t the command of channel k has ended with the code, and nothing was done to memory or cores. -/
structure State.AssistEnded (s t : State) (k code : Nat) : Prop where
  busy : t.rd (R.FUSA_AkCMD_BUSY k) = 0
  err : t.rd (R.FUSA_AkCMD_ERR k) = code
  assist : NMap.get none t.fusa.assist k = none
  cores : t.cores = s.cores
  mem : t.mem = s.mem

theorem State.assistEnded_freed (s : State) (k code : Nat) (hcode : code < 16) : s.AssistEnded (s.assistFreed k code) k code where
  busy := by
    rw [State.assistFreed, R.FUSA_AkCMD_ERR, R.FUSA_AkCMD_BUSY,
      State.rd_wr_mk_apart _ _ _ _ _ _ _ _ (by decide) (by decide) (.inr (.inr (by decide))),
      State.rd_wr_mk_same _ _ _ _ _ (by decide), Nat.zero_mod]
  err := by
    rw [State.assistFreed, R.FUSA_AkCMD_ERR, State.rd_wr_mk_same _ _ _ _ _ (by decide)]
    exact Nat.mod_eq_of_lt hcode
  assist := by simp [State.assistFreed]
  cores := by simp [State.assistFreed]
  mem := by simp [State.assistFreed]

theorem State.AssistEnded.raise {s t : State} {k code : Nat} (h : s.AssistEnded t k code) (hk : k < 2) (e : Nat)
    (ds : List Nat) (sup : Bool) : s.AssistEnded (t.raise e ds sup) k code where
  busy := (State.raise_rd_fusion t e ds sup _ _ _ (by omega) (by omega)).trans h.busy
  err := (State.raise_rd_fusion t e ds sup _ _ _ (by omega) (by omega)).trans h.err
  assist := by rw [State.raise_fusa, h.assist]
  cores := (State.raise_mem_cores t e ds sup).2.trans h.cores
  mem := (State.raise_mem_cores t e ds sup).1.trans h.mem

/-- The end of a command that no failed check word or poisoned read ends. -/
def State.assistEnd (s : State) (k core code : Nat) : State :=
  if code = 0 then (s.assistFreed k code).raise 83 [core] false else (s.assistFreed k code).raise 85 [core] true

theorem State.assistEnded_assistEnd (s : State) (k core code : Nat) (hk : k < 2) (hcode : code ≤ 4) :
    s.AssistEnded (s.assistEnd k core code) k code := by
  have hfreed := s.assistEnded_freed k code (by omega)
  unfold State.assistEnd
  split
  · exact hfreed.raise hk _ _ _
  · exact hfreed.raise hk _ _ _

/-- What a running command comes to: the code it began with, or its work. -/
def State.assistDone (s : State) (r : AssistRun) : Nat × Nat × State :=
  if r.code ≠ 0 then (r.code, r.desc, s) else if r.op = 1 then s.gateWork r else s.cupdWork r

theorem exec_assistComplete (s : State) (k : Fin 2) (r : AssistRun) (hr : NMap.get none s.fusa.assist k.val = some r)
    (hq : s.fusa.queue = []) :
    exec (.assistComplete k) s = .next (
      let w := s.showQlen.assistDone r
      let u := (w.2.2.assistFreed k.val w.1).when (w.1 == 5 || w.1 == 6) (State.carriedFail · w.2.1 4 false)
      if w.1 = 0 then u.raise 83 [r.core] false else u.raise 85 [r.core] true) := by
  show execAssistComplete k s = _
  unfold execAssistComplete
  rw [hr]
  dsimp only
  rw [s.drainAll_empty hq]
  unfold State.assistDone State.assistFreed
  rfl

/-- A command that comes to a code of 0 to 4 ends with it, on what its work left. -/
theorem assistComplete_ended (s u : State) (k : Fin 2) (r : AssistRun) (code addr : Nat)
    (hr : NMap.get none s.fusa.assist k.val = some r) (hq : s.fusa.queue = [])
    (hdone : s.showQlen.assistDone r = (code, addr, u)) (hcode : code ≤ 4) :
    Answers (.assistComplete k) s fun t => u.AssistEnded t k.val code := by
  refine ⟨u.assistEnd k.val r.core code, ?_, u.assistEnded_assistEnd k.val r.core code k.isLt hcode⟩
  have hcalm : (code == 5 || code == 6) = false := by
    simp only [Bool.or_eq_false_iff, beq_eq_false_iff_ne, ne_eq]
    omega
  rw [exec_assistComplete s k r hr hq, hdone]
  dsimp only
  rw [hcalm]
  rfl

/-- What is claimed of a channel whose command has ended with a code, its cores as in s. -/
def State.AssistDone (s t : State) (k code : Nat) : Prop :=
  t.rd (R.FUSA_AkCMD_BUSY k) = 0 ∧ t.rd (R.FUSA_AkCMD_ERR k) = code ∧ NMap.get none t.fusa.assist k = none ∧ t.cores = s.cores

theorem State.AssistEnded.done {s t u : State} {k code : Nat} (h : u.AssistEnded t k code) (hcores : u.cores = s.cores) :
    s.AssistDone t k code := ⟨h.busy, h.err, h.assist, h.cores.trans hcores⟩

theorem assistComplete_refused (s : State) (k : Fin 2) (r : AssistRun) (hr : NMap.get none s.fusa.assist k.val = some r)
    (hq : s.fusa.queue = []) (h0 : r.code ≠ 0) (hcode : r.code ≤ 4) :
    Answers (.assistComplete k) s fun t => s.AssistDone t k.val r.code ∧ t.mem = s.mem := by
  obtain ⟨t, ht, hended⟩ := assistComplete_ended s _ k r r.code r.desc hr hq (if_pos h0) hcode
  exact ⟨t, ht, hended.done rfl, hended.mem⟩

/-! ## CUPD (R188) -/

/-- A write of part of a word free of error goes to memory. -/
theorem State.commonsWrite_part (s : State) (port a n v : Nat) (hn : n ≠ 8) (h : s.wordMark (a / 8) = .clean) :
    s.commonsWrite port a n v = { s with mem := memWrite s.mem a n v } := by
  unfold State.commonsWrite
  rw [if_neg hn, h]

/-- Words written leave every word that is free of error so (R131). -/
theorem State.wordMark_writeWords (s : State) (port a : Nat) (ws : List Nat) (x : Nat) (h : s.wordMark x = .clean) :
    (s.writeWords port a ws).wordMark x = .clean := by
  induction ws generalizing s a with
  | nil => exact h
  | cons w r ih =>
    refine ih _ (a + 8) ?_
    have hmark : (s.commonsWrite port a 8 w).wordMark x = (s.setMark (a / 8) .clean).wordMark x := by
      unfold State.commonsWrite
      rw [if_pos rfl]
      rfl
    rw [hmark]
    by_cases hx : x = a / 8
    · rw [hx]
      exact s.wordMark_setMark_same _ _
    · exact (NMap.get_set_other ErrMark.clean ErrMark.clean s.cmns.err ErrMark.clean hx).trans h

/-- What words written whole, then a part of a word free of error, leave in memory. -/
theorem State.writeWords_part (s : State) (port a b n v : Nat) (ws : List Nat) (hn : n ≠ 8) (h : s.wordMark (b / 8) = .clean) :
    ((s.writeWords port a ws).commonsWrite port b n v).mem = memWrite (memPutWords s.mem a ws) b n v
      ∧ ((s.writeWords port a ws).commonsWrite port b n v).cores = s.cores := by
  obtain ⟨hmem, hcores⟩ := s.writeWords_mem port a ws
  rw [State.commonsWrite_part _ _ _ _ _ hn (s.wordMark_writeWords port a ws _ h)]
  exact ⟨congrArg (memWrite · b n v) hmem, hcores⟩

theorem numWords_lt (n v : Nat) : ∀ w ∈ numWords n v, w < 2 ^ 64 := by
  induction n generalizing v with
  | zero => exact fun w hw => absurd hw List.not_mem_nil
  | succ n ih =>
    intro w hw
    rcases List.mem_cons.mp hw with hw | hw
    · rw [hw]
      exact Nat.mod_lt _ (by decide)
    · exact ih _ w hw

theorem numWords_length (n v : Nat) : (numWords n v).length = n := by
  induction n generalizing v with
  | zero => rfl
  | succ n ih => rw [numWords, List.length_cons, ih]

/-- The record at an address, as a number. -/
def State.cupdRecordAt (s : State) (a : Nat) : Nat := leNat (wordsBytes (memWords s.mem a 48))

/-- The state after the words of an update of the one record at a, counted at the descriptor as done or as left. -/
def State.cupdUpdated (s : State) (a desc : Nat) (ws : List Nat) (done : Bool) : State :=
  (s.writeWords busPort a ws).commonsWrite busPort (desc + 8) 4 (0 + b2n done + 65536 * (1 - (0 + b2n done)))

/-- A command on one record free of error updates it and counts it. -/
theorem State.cupdWork_single (s : State) (r : AssistRun) (hone : r.arg 4 = 1)
    (hclean : ∀ w, r.arg 0 / 8 ≤ w → w < r.arg 0 / 8 + 48 → s.wordMark w = .clean) :
    s.cupdWork r = (0, 0, s.cupdUpdated (r.arg 0) r.desc (numWords 48 (cupdRecord (s.cupdRecordAt (r.arg 0))).1)
      (cupdRecord (s.cupdRecordAt (r.arg 0))).2) := by
  have hrecord : State.cupdRecords (r.arg 0) 1 0 s = (0, 0, 0 + b2n (cupdRecord (s.cupdRecordAt (r.arg 0))).2,
      s.writeWords busPort (r.arg 0) (numWords 48 (cupdRecord (s.cupdRecordAt (r.arg 0))).1)) := by
    simp only [State.cupdRecords, s.readWords_clean busPort _ 48 hclean, Bool.false_eq_true, if_false, State.cupdRecordAt]
  unfold State.cupdWork State.cupdUpdated
  rw [hone, hrecord]
  rfl

section
variable {s : State} {a desc : Nat} (ws : List Nat) (done : Bool) (hdesc : desc % 64 = 0)
  (hclean : s.wordMark (desc / 8 + 1) = .clean)
include hdesc hclean

theorem State.cupdUpdated_mem : (s.cupdUpdated a desc ws done).mem = memWrite (memPutWords s.mem a ws) (desc + 8) 4
      (0 + b2n done + 65536 * (1 - (0 + b2n done)))
    ∧ (s.cupdUpdated a desc ws done).cores = s.cores := by
  unfold State.cupdUpdated
  exact s.writeWords_part busPort a (desc + 8) 4 _ ws (by decide)
    (by rw [show (desc + 8) / 8 = desc / 8 + 1 by omega]; exact hclean)

/-- The record is as updated, the count of records done and left as written, and every other byte as it was. -/
theorem State.cupdUpdated_shown (hlength : ws.length = 48) (hlt : ∀ w ∈ ws, w < 2 ^ 64)
    (hapart : a + 384 ≤ desc ∨ desc + 64 ≤ a) :
    memWords (s.cupdUpdated a desc ws done).mem a 48 = ws
      ∧ memRead (s.cupdUpdated a desc ws done).mem (desc + 8) 4 = (if done then 1 else 65536)
      ∧ ∀ b, (b < a ∨ a + 384 ≤ b) → (b < desc + 8 ∨ desc + 12 ≤ b) →
          memRead (s.cupdUpdated a desc ws done).mem b 1 = memRead s.mem b 1 := by
  have hwords := memWords_memPutWords s.mem a ws hlt
  rw [hlength] at hwords
  rw [(State.cupdUpdated_mem ws done hdesc hclean).1]
  refine ⟨?_, ?_, fun b hrecord hcount => ?_⟩
  · refine Eq.trans (List.map_congr_left fun j hj => ?_) hwords
    have := List.mem_range.mp hj
    rw [memRead_memWrite_other _ _ _ _ _ _ (by omega)]
  · rw [memRead_memWrite_same]
    cases done with
    | false => rfl
    | true => rfl
  · rw [memRead_memWrite_other _ _ _ _ _ _ (by omega), memRead_memPutWords_other _ _ _ _ _ (by omega)]

end

theorem assistComplete_cupd (s : State) (k : Fin 2) (r : AssistRun) (hr : NMap.get none s.fusa.assist k.val = some r)
    (hq : s.fusa.queue = []) (hcode : r.code = 0) (hop : r.op = 2) (hone : r.arg 4 = 1) (hdesc : r.desc % 64 = 0)
    (hapart : r.arg 0 + 384 ≤ r.desc ∨ r.desc + 64 ≤ r.arg 0)
    (hclean : ∀ w, r.arg 0 / 8 ≤ w → w < r.arg 0 / 8 + 48 → s.wordMark w = .clean)
    (hcount : s.wordMark (r.desc / 8 + 1) = .clean) : Answers (.assistComplete k) s fun t =>
      s.AssistDone t k.val 0
      ∧ memWords t.mem (r.arg 0) 48 = numWords 48 (cupdRecord (s.cupdRecordAt (r.arg 0))).1
      ∧ memRead t.mem (r.desc + 8) 4 = (if (cupdRecord (s.cupdRecordAt (r.arg 0))).2 then 1 else 65536)
      ∧ ∀ b, (b < r.arg 0 ∨ r.arg 0 + 384 ≤ b) → (b < r.desc + 8 ∨ r.desc + 12 ≤ b) → memRead t.mem b 1 = memRead s.mem b 1 := by
  have hdone : s.showQlen.assistDone r = (0, 0, s.showQlen.cupdUpdated (r.arg 0) r.desc
      (numWords 48 (cupdRecord (s.cupdRecordAt (r.arg 0))).1) (cupdRecord (s.cupdRecordAt (r.arg 0))).2) := by
    rw [State.assistDone, if_neg (not_not_intro hcode), if_neg (by rw [hop]; decide)]
    exact s.showQlen.cupdWork_single r hone hclean
  have hlength := numWords_length 48 (cupdRecord (s.cupdRecordAt (r.arg 0))).1
  have hlt := numWords_lt 48 (cupdRecord (s.cupdRecordAt (r.arg 0))).1
  generalize numWords 48 (cupdRecord (s.cupdRecordAt (r.arg 0))).1 = ws at hdone hlength hlt ⊢
  generalize (cupdRecord (s.cupdRecordAt (r.arg 0))).2 = done at hdone ⊢
  obtain ⟨t, ht, hended⟩ := assistComplete_ended s _ k r 0 0 hr hq hdone (by decide)
  have hcores := (State.cupdUpdated_mem (s := s.showQlen) (a := r.arg 0) ws done hdesc hcount).2
  refine ⟨t, ht, hended.done hcores, ?_⟩
  rw [hended.mem]
  exact State.cupdUpdated_shown (s := s.showQlen) ws done hdesc hcount hlength hlt hapart

end Sys2Proof.Machine
end

section
/-! PROOFS. State fusion's calibration writes (06_state_fusion R189, R190), and the statement of the block. -/

namespace Sys2Proof.Machine

/-! ## Calibration writes (R189, R190) -/

theorem signedOf_toNat (v : Word) : signedOf 32 v.toNat = v.toInt := by
  rw [signedOf, BitVec.toInt_eq_toNat_cond, Nat.mod_eq_of_lt v.isLt]

/-- Outside the free window a request is clamped to the step about the value held, then to the budget about the record's
value. -/
theorem calClamp_limited (v v0 held : Int) (step budget : Nat) : clampBits 32 (calClamp false v v0 held step budget)
    = nearest 32 (max (v0 - budget) (min (v0 + budget) (max (held - step) (min (held + step) v)))) := by
  unfold calClamp
  rw [if_neg (by decide), clampBits_nearest, clampInt_eq _ _ _ (by omega), clampInt_eq _ _ _ (by omega)]

theorem nearest_range (x : Int) : -2 ^ 31 ≤ nearest 32 x ∧ nearest 32 x < 2 ^ 31 := by
  unfold nearest
  omega

/-- What an offset takes of a request (R189). -/
def State.offsetLimited (s : State) (r v : Nat) : Int :=
  clampBits 32 (calClamp (decide (s.tickN < s.fusa.freeUntil)) (signedOf 32 v) (recSigned (s.refRec r) 16 4)
    (signedOf 32 ((NMap.get 0 s.fusa.held (R.FUSA_REFr_OFF r)).toNat))
    (recField (s.refRec r) 26 2 * s.rd R.FUSA_CALR_ORATE / 256) (recField (s.refRec r) 26 2))

/-- The offset of reference r written, and whether it is at its budget noted. -/
def State.offsetWritten (s : State) (r : Nat) (y : Int) : State := (s.wrI (R.FUSA_REFr_OFF_OFF r) y).noteBudget r false

theorem State.calStore_fixed (s : State) (r : Nat) (gain : Bool) (v : Nat)
    (h : (recField (s.refRec r) 32 1).testBit 1 = false) : s.calStore r gain v = s := by
  unfold State.calStore
  dsimp only
  rw [h]
  exact if_pos (by simp)

/-- An offset that can be written takes the request within its limits, and an event may tell that. -/
theorem State.calStore_offset (s : State) (r v : Nat) (href : r < s.nref)
    (h : (recField (s.refRec r) 32 1).testBit 1 = true) :
    s.calStore r false v = s.offsetWritten r (s.offsetLimited r v)
      ∨ ∃ ds, s.calStore r false v = (s.offsetWritten r (s.offsetLimited r v)).raise 84 ds true := by
  have hopen : ¬(decide (s.nref ≤ r) || !(recField (s.refRec r) 32 1).testBit 1) = true := by
    rw [h]
    simpa using href
  have heq : s.calStore r false v = if (s.offsetLimited r v != signedOf 32 v
        || (!s.budgetBit r false && (s.offsetWritten r (s.offsetLimited r v)).budgetBit r false)) = true
      then (s.offsetWritten r (s.offsetLimited r v)).raise 84 ((s.offsetWritten r (s.offsetLimited r v)).dutiesOf 2) true
      else s.offsetWritten r (s.offsetLimited r v) := if_neg hopen
  rw [heq]
  split
  · exact .inr ⟨_, rfl⟩
  · exact .inl rfl

/-- From s to t the offset of reference r has become y, with its budget bit, and nothing was done to memory or cores. -/
structure State.OffsetTaken (s t : State) (r : Nat) (y : Int) : Prop where
  offset : t.rdI (R.FUSA_REFr_OFF_OFF r) = y
  gain : t.rd (R.FUSA_REFr_GAIN_GAIN r) = s.rd (R.FUSA_REFr_GAIN_GAIN r)
  fusa : t.fusa = { s.fusa with budget := t.fusa.budget }
  budget : (NMap.get 0 t.fusa.budget r).testBit 0 = true
    ↔ (y - recSigned (s.refRec r) 16 4).natAbs = recField (s.refRec r) 26 2
  mem : t.mem = s.mem
  cores : t.cores = s.cores

theorem State.OffsetTaken.raise {s t : State} {r : Nat} {y : Int} (h : s.OffsetTaken t r y) (hr : r < 4096) (e : Nat)
    (ds : List Nat) (sup : Bool) : s.OffsetTaken (t.raise e ds sup) r y where
  offset := (congrArg (signedOf 32) (State.raise_rd_fusion t e ds sup _ _ _ (by omega) (by omega))).trans h.offset
  gain := (State.raise_rd_fusion t e ds sup _ _ _ (by omega) (by omega)).trans h.gain
  fusa := by
    rw [State.raise_fusa]
    exact h.fusa
  budget := by
    rw [State.raise_fusa]
    exact h.budget
  mem := (State.raise_mem_cores t e ds sup).1.trans h.mem
  cores := (State.raise_mem_cores t e ds sup).2.trans h.cores

theorem testBit_putBits_bit (n : Nat) (b : Bool) : (putBits n 0 0 (b2n b)).testBit 0 = b := by
  rw [testBit_putBits _ _ _ _ _ (by decide), if_pos (by decide)]
  cases b with
  | false => rfl
  | true => rfl

theorem State.offsetTaken_offsetWritten (s : State) (r : Nat) (y : Int) (hr : r < 4096) (hy : -2 ^ 31 ≤ y ∧ y < 2 ^ 31) :
    s.OffsetTaken (s.offsetWritten r y) r y := by
  have hrd : (s.wrI (R.FUSA_REFr_OFF_OFF r) y).rdI (R.FUSA_REFr_OFF_OFF r) = y :=
    State.rdI_of_pattern _ _ y (State.rd_wrI_mk_same s _ y) hy.1 hy.2
  have hmodel : s.SameModel (s.wrI (R.FUSA_REFr_OFF_OFF r) y) :=
    s.sameModel_wr _ _ (show 31 < 32 by decide) (by unfold R.FUSA_REFr_OFF_OFF; dsimp only; omega)
  have hbudget : (NMap.get 0 (s.offsetWritten r y).fusa.budget r).testBit 0
      = (s.wrI (R.FUSA_REFr_OFF_OFF r) y).atLimit r false := by
    have hget : NMap.get 0 (s.offsetWritten r y).fusa.budget r = putBits (NMap.get 0 s.fusa.budget r) 0 0
      (b2n ((s.wrI (R.FUSA_REFr_OFF_OFF r) y).atLimit r false)) := NMap.get_set_same _ _ _ _
    rw [hget, testBit_putBits_bit]
  refine ⟨hrd, ?_, rfl, ?_, rfl, rfl⟩
  · exact State.rd_wrI_mk_apart s _ 31 0 y _ 31 0 (by decide) (by decide) (.inl (by omega))
  · rw [hbudget, State.atLimit, hmodel.refRec, hrd]
    exact beq_iff_eq

theorem exec_calibrationWrite (s : State) (p : Port) (r : Fin 4096) (gain : Bool) (v : Word) (he : s.evIn = [])
    (hs : s.serves p = true) :
    exec (.calibrationWrite p r gain v) s = .next ((s.setCycle p.cyc).calStore r.val gain v.toNat) := by
  have hexec : exec (.calibrationWrite p r gain v) s = .next (s.byCore p fun s => s.calStore r.val gain v.toNat) := rfl
  rw [hexec, State.byCore_quiet s p _ he hs]

/-- Outside the free window a write of an offset takes effect within its limits. -/
theorem calibrationWrite_offset (s : State) (p : Port) (r : Fin 4096) (v : Word) (he : s.evIn = []) (hs : s.serves p = true)
    (href : r.val < s.nref) (h : (recField (s.refRec r.val) 32 1).testBit 1 = true) :
    Answers (.calibrationWrite p r false v) s fun t => s.OffsetTaken t r.val (s.offsetLimited r.val v.toNat) := by
  have hy : -2 ^ 31 ≤ s.offsetLimited r.val v.toNat ∧ s.offsetLimited r.val v.toNat < 2 ^ 31 := by
    rw [State.offsetLimited, clampBits_nearest]
    exact nearest_range _
  have htaken : s.OffsetTaken ((s.setCycle p.cyc).offsetWritten r.val (s.offsetLimited r.val v.toNat)) r.val
      (s.offsetLimited r.val v.toNat) := by
    obtain ⟨hoffset, hgain, hfusa, hbudget, hmem, hcores⟩ := (s.setCycle p.cyc).offsetTaken_offsetWritten r.val _ r.isLt hy
    exact ⟨hoffset, hgain, hfusa, hbudget, hmem, hcores⟩
  refine ⟨_, exec_calibrationWrite s p r false v he hs, ?_⟩
  rcases (s.setCycle p.cyc).calStore_offset r.val v.toNat href h with heq | ⟨ds, heq⟩
  · rw [heq]
    exact htaken
  · rw [heq]
    exact htaken.raise r.isLt _ _ _

/-! ## The statement -/

/-- Settles O44: every command's outcome is a lemma above, the intake's by `State.sampleCode`, a closed buffer's memory by
`slotClosed`, an assist command's end by `State.AssistEnded` and what CUPD writes by `State.cupdUpdated`. -/
theorem fusionCommands : Obligations.FusionCommands := by
  unfold Obligations.FusionCommands
  intro s p he hs
  refine ⟨?accepted, ?refused, ?sealed, fusaSbaseSeal_running he hs,
    fun k hk hq hlimit => alignmentLimitExpiry_closes s k he hk hq hlimit, ?closed, ?assist, ?calibration⟩
  case accepted =>
    intro v hrun hmodel hroom r x z href hzero hage
    obtain ⟨t, ht, hqueue, hrest⟩ := fusaSampleWrite_accepted s p v he hs
      (State.sampleCode_accepted hrun hmodel href hroom rfl hzero hage) hroom
    rw [State.sampleOf, State.calibrated_eq] at hqueue
    exact ⟨t, ht, hqueue.trans (by rw [State.now, Nat.mul_comm]; rfl), hrest⟩
  case refused =>
    intro size v refused
    have hrefused (code : Nat) (hcode : s.sampleCode size.bytes v.toNat = code) (h0 : code ≠ 0) (h16 : code < 16) :
        refused code := fusaSampleWrite_refused s p size v code he hs hcode h0 h16
    refine ⟨fun hstop => hrefused 1 (s.sampleCode_stopped _ _ hstop) (by decide) (by decide),
      fun hrun hmodel => hrefused 2 (s.sampleCode_noModel _ _ hrun hmodel) (by decide) (by decide),
      fun hrun hmodel href => ⟨fun hfull => ?_, fun hroom hsize => ?_⟩⟩
    · exact hrefused 3 (State.sampleCode_full hrun hmodel href hfull) (by decide) (by decide)
    · exact hrefused 4 (State.sampleCode_narrow hrun hmodel href hroom (Size.bytes_narrow hsize)) (by decide) (by decide)
  case sealed =>
    intro w hstop hcoll base
    exact ⟨fun hplace hin hclear => fusaSbaseSeal_sound he hs hstop hcoll (s.slotCode_sound hplace hin hclear),
      fun hplace => fusaSbaseSeal_failed he hs 1 hstop hcoll (s.slotCode_misplaced hplace) (by decide) (by decide)⟩
  case closed =>
    intro c hc a
    obtain ⟨t, ht, hfusa, hmem, hsent⟩ := bufferClosedAndSealed_written s c hc
    have hapart := s.slotAddr_apart c.buf
    refine ⟨t, ht, hfusa, ?_⟩
    rw [hmem]
    exact ⟨memRead_slotClosed_header _ hapart (by decide), memRead_slotClosed_check _ hapart,
      memRead_slotClosed_entry _ hapart (by decide), memRead_slotClosed_cleared _, hsent⟩
  case assist =>
    intro k u desc started
    refine ⟨fun hbusy halign hin hclean => ?_, cupd_busy s p k he hs, ?_⟩
    · have hstarted (c : Port → Fin 2 → Instr) (op : Nat)
          (hc : exec (c p k) s = .next (s.byCore p fun s => s.assistStart op k.val p.core.val)) :
          Answers (c p k) s (started op) := by
        obtain ⟨t, ht, hassist, hrest⟩ := assistCommand_started c op s p k hc he hs hbusy ⟨halign, hin, hclean⟩
        exact ⟨t, ht, ⟨_, hassist, rfl, rfl, rfl, rfl, rfl, rfl, rfl, rfl, rfl, State.assistCode_le _ _⟩, hrest⟩
      exact ⟨hstarted .gate 1 rfl, hstarted .cupd 2 rfl⟩
    · intro run hrun hq ended a rec'
      exact ⟨fun h1 h4 => assistComplete_refused s k run hrun hq (by omega) h4, fun hcode hop hone _ hdesc hapart hclean hcount =>
        assistComplete_cupd s k run hrun hq hcode hop hone hdesc hapart hclean hcount⟩
  case calibration =>
    intro r v hfree href x v0 step held near within
    refine ⟨fun hflag => ?_, fun hflag gain => ?_⟩
    · obtain ⟨t, ht, hoffset, hgain, hfusa, hbudget, hmem, hcores⟩ := calibrationWrite_offset s p r v he hs href hflag
      have hlimited : s.offsetLimited r.val v.toNat = nearest 32 within := by
        rw [State.offsetLimited, decide_eq_false (by rw [State.tickN]; omega), signedOf_toNat]
        exact calClamp_limited _ _ _ _ _
      exact ⟨t, ht, hoffset.trans hlimited, hgain, hfusa, by rw [hoffset]; exact hbudget, hmem, hcores⟩
    · rw [exec_calibrationWrite s p r gain v he hs]
      exact congrArg Host.Outcome.next ((s.setCycle p.cyc).calStore_fixed r.val gain v.toNat hflag)

end Sys2Proof.Machine
end
